-- ==== Sys2Proof/Word.lean ====
section
/-! DEFINITION. The word and byte types, and sparse tables: the plain containers the state is made of. -/

namespace Sys2Proof

/-- A byte of a packet, a frame or memory. -/
abbrev Byte := BitVec 8

/-- A 32-bit word: check values and pixel words. -/
abbrev Word := BitVec 32

/-- A sparse table keyed by a number. It lists, by strictly rising key, the entries that differ from the
value an unlisted key reads as. -/
abbrev Tab (α : Type) := List (Nat × α)

namespace Tab

variable {α : Type}

/-- The entry at key `k`; `d` is what an unlisted key reads as. -/
def get (d : α) (k : Nat) : Tab α → α
  | [] => d
  | (j, v) :: t => if j = k then v else if k < j then d else get d k t

/-- The entry at key `k`, where one is listed. -/
def find? (k : Nat) : Tab α → Option α
  | [] => none
  | (j, v) :: t => if j = k then some v else if k < j then none else find? k t

/-- Remove the entry at key `k`. -/
def erase (k : Nat) : Tab α → Tab α
  | [] => []
  | (j, v) :: t => if j = k then t else if k < j then (j, v) :: t else (j, v) :: erase k t

/-- List `v` at key `k`, in key order. -/
def put (k : Nat) (v : α) : Tab α → Tab α
  | [] => [(k, v)]
  | (j, w) :: t => if j = k then (k, v) :: t else if k < j then (k, v) :: (j, w) :: t else (j, w) :: put k v t

/-- Write `v` at key `k`, keeping the canonical form: a value equal to the unlisted reading `d` is not listed. -/
def set [DecidableEq α] (d : α) (k : Nat) (v : α) (t : Tab α) : Tab α :=
  if v = d then erase k t else put k v t

/-- Apply `f` to the entry at key `k`. -/
def modify [DecidableEq α] (d : α) (k : Nat) (f : α → α) (t : Tab α) : Tab α := set d k (f (get d k t)) t

/-- Every key is above `b`, and keys strictly rise. -/
def sortedFrom : Option Nat → Tab α → Bool
  | _, [] => true
  | none, (j, _) :: t => sortedFrom (some j) t
  | some b, (j, _) :: t => decide (b < j) && sortedFrom (some j) t

/-- The canonical form: keys strictly rise and no entry equals the unlisted reading. -/
def wf [DecidableEq α] (d : α) (t : Tab α) : Bool :=
  sortedFrom none t && t.all (fun e => decide (e.2 ≠ d))

end Tab

end Sys2Proof
end

