-- ==== Sys2Proof/Objects.lean ====
section
/-! DEFINITION. The objects that staging commands carry (R350 to R368). Each field's default is the reset value
that R369 gives it. Times and addresses are numbers; colours are 30-bit words. -/

namespace Sys2Proof

/-- `STAGE_DEVICE`, R352. -/
structure DeviceCfg where
  wallRate : Nat := 9
  alarmEngine : Nat := 3
  strandPref : Nat := 0
  tdFailover : Nat := 1
  tdSwitchMaxNs : Nat := 10000
  tdSlewPpm : Nat := 50
  memReserve : Nat := 1
  memRebase : Nat := 1
  txnIdleS : Nat := 10
  deriving DecidableEq, Repr

/-- `STAGE_SOURCE`, R353. -/
structure SourceCfg where
  kind : Nat := 0
  cls : Nat := 2
  buffers : Nat := 3
  origin : Nat := 0
  frozenN : Nat := 0
  surfWidth : Nat := 1
  surfHeight : Nat := 1
  surfFormat : Nat := 6
  deriving DecidableEq, Repr

/-- `STAGE_FLOW`, R354. `none` is 0xFFFF for VLAN and pair. -/
structure FlowCfg where
  enable : Bool := false
  type : Nat := 0
  mac : Nat := 0
  tsMode : Nat := 0
  vlan : Nat := 0
  dstPort : Nat := 1
  pair : Nat := 0
  srcAny : Bool := false
  ssrcAny : Bool := false
  dstAddr : Nat := 0
  srcAddr : Nat := 0
  ssrc : Nat := 0
  pdMaxUs : Nat := 1000
  captOffset : Int := 0
  target : Nat := 0
  pfIndexBase : Nat := 0
  pfIndexCount : Nat := 0
  pfTimeMode : Nat := 0
  sampling : Nat := 0
  packing : Nat := 0
  sender : Nat := 0
  width : Nat := 0
  height : Nat := 0
  rateNum : Nat := 0
  rateDen : Nat := 0
  deriving DecidableEq, Repr

/-- `STAGE_MAC`, R355. -/
structure MacCfg where
  lane : Nat := 8
  enable : Bool := false
  addr : Nat := 0
  ipv4 : Nat := 0
  ipv4Prefix : Nat := 0
  ipv6Prefix : Nat := 0
  ipv6 : Nat := 0
  deriving DecidableEq, Repr

/-- `STAGE_DPRX`, R356. -/
structure DprxCfg where
  enable : Bool := false
  lane0 : Nat := 8
  lanes : Nat := 1
  edidLen : Nat := 128
  edid : List Byte := []
  deriving DecidableEq, Repr

/-- `STAGE_CONTEXT`, R357. -/
structure ContextCfg where
  enable : Bool := false
  codec : Nat := 0
  maxLevel : Nat := 30
  extraBufs : Nat := 3
  source : Nat := 0
  maxWidth : Nat := 64
  maxHeight : Nat := 64
  outDepth : Nat := 10
  outScale : Nat := 0
  backlogMax : Nat := 4
  paramSets : List Byte := []
  deriving DecidableEq, Repr

/-- `STAGE_HEAD`, R358. -/
structure HeadCfg where
  enable : Bool := false
  mult : Nat := 0
  phase : Nat := 0
  hActive : Nat := 640
  hFp : Nat := 1
  hSync : Nat := 1
  hBp : Nat := 1
  vActive : Nat := 240
  vFp : Nat := 0
  vSync : Nat := 1
  hPol : Nat := 0
  vPol : Nat := 0
  vBp : Nat := 1
  bpc : Nat := 10
  cspace : Nat := 0
  linkRate : Nat := 0
  lanes : Nat := 1
  lane0 : Nat := 8
  urgentLines : Nat := 4
  lBegin : Nat := 3
  lBind : Nat := 1
  bg : Nat := 0
  overlay : Nat := 0
  ribbon : Nat := 0
  deriving DecidableEq, Repr

/-- `STAGE_WINDOW`, R359. -/
structure WindowCfg where
  enable : Bool := false
  head : Nat := 0
  layer : Nat := 0
  blend : Nat := 0
  source : Nat := 0
  alpha : Nat := 1023
  dstX : Int := 0
  dstY : Int := 0
  dstW : Nat := 1
  dstH : Nat := 1
  srcX : Nat := 0
  srcY : Nat := 0
  srcW : Nat := 1
  srcH : Nat := 1
  key : Nat := 0
  fill : Nat := 0
  matrix : Nat := 0
  range : Nat := 0
  siting : Nat := 0
  filter : Nat := 0
  staleMs : Nat := 100
  deadMs : Nat := 1000
  freezeMs : Nat := 500
  caption : Nat := 0
  captionCorner : Nat := 0
  captionScale : Nat := 1
  deriving DecidableEq, Repr

/-- One input region of an encode context, R235 and R360. -/
structure RegionCfg where
  enable : Bool := false
  head : Nat := 0
  scale : Nat := 0
  x : Nat := 0
  y : Nat := 0
  w : Nat := 0
  h : Nat := 0
  px : Nat := 0
  py : Nat := 0
  deriving DecidableEq, Repr

/-- `STAGE_ENCODER`, R360. -/
structure EncoderCfg where
  enable : Bool := false
  codec : Nat := 0
  level : Nat := 30
  rc : Nat := 0
  width : Nat := 64
  height : Nat := 64
  fill : Nat := 0
  matrix : Nat := 0
  div : Nat := 1
  startLine : Nat := 0xFFFF
  refreshN : Nat := 32
  qpMin : Int := 10
  qpMax : Int := 45
  cls : Nat := 2
  rate : Nat := 256000
  maxRate : Nat := 256000
  hrdBits : Nat := 1
  mtu : Nat := 1400
  mac : Nat := 0
  mac2 : Nat := 0
  dstAddr : Nat := 0
  dstAddr2 : Nat := 0
  dstPort : Nat := 1
  srcPort : Nat := 1
  vlan : Nat := 0
  dscp : Nat := 0
  ttl : Nat := 1
  pt : Nat := 96
  ssrc : Nat := 0
  regions : List RegionCfg := []
  deriving DecidableEq, Repr

/-- One glyph instance, R222. -/
structure GlyphCfg where
  point : Nat := 0
  enable : Bool := false
  nth : Nat := 0
  x : Nat := 0
  y : Nat := 0
  head : Nat := 0
  set : Nat := 0
  kind : Nat := 0
  decimals : Nat := 0
  digits : Nat := 0
  thresh : List Nat := [0, 0, 0, 0]
  staleMs : Nat := 1
  deriving DecidableEq, Repr

/-- `STAGE_GLYPH_SET`, R362. -/
structure GlyphSetCfg where
  cellW : Nat := 1
  cellH : Nat := 1
  digitBase : Nat := 0
  bandGlyph : List Nat := [0, 0, 0, 0, 0]
  bandColour : List Nat := [0, 0, 0, 0, 0]
  deriving DecidableEq, Repr

/-- `STAGE_SCALER`, R362: 64 phases of 8 taps, and 64 phases of 6 taps. -/
structure ScalerCfg where
  horiz : List (List Int) := []
  vert : List (List Int) := []
  deriving DecidableEq, Repr

/-- `STAGE_DESK`, R363. -/
structure DeskCfg where
  enable : Bool := false
  lane : Nat := 8
  driveN : Nat := 8
  senseN : Nat := 4
  mode : Nat := 0
  driveLevel : Nat := 160
  plans : Nat := 0xFFFF
  head : Nat := 0
  driftShift : Nat := 10
  maxContacts : Nat := 20
  filtK : Nat := 128
  matchRadius : Nat := 768
  touchThresh : Nat := 400
  hoverThresh : Nat := 60
  presenceThresh : Nat := 300
  antiThresh : Nat := 200
  driftMax : Nat := 250
  holdLimitS : Nat := 60
  mapA : Int := 0
  mapB : Int := 0
  mapC : Int := 0
  mapD : Int := 0
  mapE : Int := 0
  mapF : Int := 0
  deriving DecidableEq, Repr

/-- `STAGE_QUAD`, R364. -/
structure QuadCfg where
  mode : Nat := 0
  ethRate : Nat := 0
  ethFec : Nat := 0
  ssc : Nat := 0
  laneInv : Nat := 0
  swing : List Nat := [800, 800, 800, 800]
  ffePre : List Nat := [0, 0, 0, 0]
  ffePost : List Nat := [4, 4, 4, 4]
  deriving DecidableEq, Repr

/-- `STAGE_DOMAIN`, R365. -/
structure DomainCfg where
  enable : Bool := false
  mac : Nat := 0
  transport : Nat := 0
  domainNum : Nat := 127
  vlan : Nat := 0
  delayUnicast : Nat := 0
  dscp : Nat := 46
  lockNs : Nat := 1000
  syncTimeoutMs : Nat := 500
  holdoverS : Nat := 300
  gmAllow : List Nat := [0, 0, 0, 0]
  deriving DecidableEq, Repr

/-- `STAGE_PULSE`, R366: a TPI (objects 0 and 1) uses `tpiEdge`, a TPO (objects 2 to 5) the rest. -/
structure PulseCfg where
  tpiEdge : Nat := 0
  mode : Nat := 0
  base : Nat := 0
  pol : Nat := 0
  start : Nat := 0
  period : Nat := 0
  width : Nat := 8
  deriving DecidableEq, Repr

/-- `STAGE_REGULATOR`, R367: rates in MB/s and bursts in bytes. -/
structure RegulatorCfg where
  rate1 : Nat := 0
  burst1 : Nat := 262144
  rate2 : Nat := 0
  burst2 : Nat := 262144
  deriving DecidableEq, Repr

/-- `STAGE_ACCESS`, R368. `masters` is a mask of master IDs 0 to 47. -/
structure AccessCfg where
  enable : Bool := false
  read : Bool := false
  write : Bool := false
  priv : Bool := false
  lock : Bool := false
  base : Nat := 0
  limit : Nat := 0
  masters : Nat := 0
  deriving DecidableEq, Repr

/-- One staged object, named by its staging command. A `STAGE_GLYPHS` or `STAGE_ATLAS` run is one object (R350). -/
inductive StagedObj where
  | device (c : DeviceCfg)
  | source (id : Nat) (c : SourceCfg)
  | flow (id : Nat) (c : FlowCfg)
  | mac (id : Nat) (c : MacCfg)
  | dprx (id : Nat) (c : DprxCfg)
  | context (id : Nat) (c : ContextCfg)
  | head (id : Nat) (c : HeadCfg)
  | window (id : Nat) (c : WindowCfg)
  | encoder (id : Nat) (c : EncoderCfg)
  | glyphs (first : Nat) (cs : List GlyphCfg)
  | glyphSet (id : Nat) (c : GlyphSetCfg)
  | atlas (first : Nat) (masks : List (List Byte))
  | colours (cs : List Nat)
  | scaler (c : ScalerCfg)
  | desk (id : Nat) (c : DeskCfg)
  | quad (id : Nat) (c : QuadCfg)
  | domain (id : Nat) (c : DomainCfg)
  | pulse (id : Nat) (c : PulseCfg)
  | regulator (id : Nat) (c : RegulatorCfg)
  | access (id : Nat) (c : AccessCfg)
  deriving DecidableEq, Repr

/-- The whole committed set: every object's settings. Unlisted objects hold their reset values (R369). -/
structure Layout where
  dev : DeviceCfg := {}
  sources : Tab SourceCfg := []
  flows : Tab FlowCfg := []
  macs : Tab MacCfg := []
  dprxs : Tab DprxCfg := []
  contexts : Tab ContextCfg := []
  heads : Tab HeadCfg := []
  windows : Tab WindowCfg := []
  encoders : Tab EncoderCfg := []
  glyphs : Tab GlyphCfg := []
  glyphSets : Tab GlyphSetCfg := []
  atlas : Tab (List Byte) := []
  colours : List Nat := []
  scaler : ScalerCfg := {}
  desks : Tab DeskCfg := []
  quads : Tab QuadCfg := []
  domains : Tab DomainCfg := []
  pulses : Tab PulseCfg := []
  regulators : Tab RegulatorCfg := []
  access : Tab AccessCfg := []
  deriving DecidableEq, Repr

end Sys2Proof
end

