-- ==== Sys2Proof/Params.lean ====
section
/-! DEFINITION. What the rows of the opcode table bring with them: the header of a command, and what the outside
world brings to an event (packets, pictures, measurements, pin levels). -/

namespace Sys2Proof

/-- Where a command comes from and where its reply goes: a command ring 0 to 15, or the service UART (R42, R47). -/
inductive Channel where
  | ring (n : Nat)
  | uart
  deriving DecidableEq, Repr

/-- The header of a command packet as Cleat reads it (R37). `crcOk` says whether PKT_CRC matches, `crcCalc` is the
value the device computes, `rsvAt` the parameter offset of the first nonzero reserved byte, if any, and `busy` whether
four UART commands were pending when it arrived (R48). -/
structure CmdHdr where
  ch : Channel
  flags : Nat := 0
  tag : Nat := 0
  len : Nat := 0
  txn : Nat := 0
  crcOk : Bool := true
  crcCalc : Nat := 0
  rsvAt : Option Nat := none
  busy : Bool := false
  deriving DecidableEq, Repr

/-- The profiles that R113 names, and all others. -/
inductive Profile where
  | main | main10 | constrainedBaseline | avcMain | high | jpegBaseline | other
  deriving DecidableEq, Repr

/-- Tools and forms that R113 does not support. -/
inductive CodecTool where
  | rangeExtension | screenContent | multilayer | threeD | fieldOutput | framePacked
  | fieldPictures | mbaff | paff | fmo | aso | redundantSlices | spSlices | siSlices
  | progressive | hierarchical | arithmetic | lossless
  deriving DecidableEq, Repr

/-- What a sequence parameter set, or a JPEG frame header, signals (R113, R114). `chroma` is 0 greyscale, 1 4:2:0, 2 4:2:2, 3 4:4:4;
`tools` are those of R113's last column that the sequence uses; `level` is the level code; `dpbPics` the pictures of its DPB and
`reorder` its reorder depth; `ctuSize` the luma side of its CTUs, macroblocks or MCUs. -/
structure SeqParams where
  profile : Profile := .main
  chroma : Nat := 1
  depth : Nat := 8
  tools : List CodecTool := []
  level : Nat := 30
  width : Nat := 64
  height : Nat := 64
  dpbPics : Nat := 0
  reorder : Nat := 0
  ctuSize : Nat := 64
  deriving DecidableEq, Repr

/-- A parameter set, by its own ID and the ID of the set that it refers to (R118, R120). -/
inductive ParamSet where
  | vps (id : Nat)
  | sps (id vps : Nat) (seq : SeqParams)
  | pps (id sps : Nat)
  deriving DecidableEq, Repr

/-- What the slice headers of a coded picture say (R113 to R138): the reading of the coded bits, which the codecs' standards give and
the spec does not. Reference pictures are named by POC or frame number: `refs` are those the picture predicts from, the first of
list 0 first, and `keep` those that stay references with it. `newSeq` marks a picture that starts a new coded video sequence,
`reorder` its reorder depth, and `recovery` the count of a recovery point SEI that was received with it. -/
structure PicDesc where
  irap : Bool := false
  bla : Bool := false
  newSeq : Bool := false
  rasl : Bool := false
  recovery : Option Nat := none
  nonRef : Bool := false
  poc : Int := 0
  refs : List Int := []
  keep : List Int := []
  longTerm : List Int := []
  output : Bool := true
  reorder : Nat := 0
  deriving DecidableEq, Repr

/-- A NAL unit: a parameter set, an SEI message (a recovery point with its count, or another), a slice segment with the ID of its
picture parameter set, which depends on the segment before it or not, or another (R117, R118, R120, R134). -/
inductive NalUnit where
  | params (p : ParamSet)
  | sei (recovery : Option Nat)
  | slice (dependent : Bool) (pps : Nat) (head : PicDesc)
  | other
  deriving DecidableEq, Repr

/-- What a JPEG packet carries (R116, R118, R135): its RTP type and Q, in-band quantisation tables where it is a first packet with
Q above 127, the restart interval in MCUs (0 none), and the MCUs from `first` to `last` − 1 whose data it ends. -/
structure JpegPart where
  type : Nat := 1
  q : Nat := 50
  tables : List Byte := []
  restart : Nat := 0
  first : Nat := 0
  last : Nat := 0
  seq : SeqParams := {}
  deriving DecidableEq, Repr

/-- The payload of an RTP packet of flow types 0 to 2 (R116): whole NAL units, of one packet or an aggregation; a fragment of one, with
its start and end bits; or a part of a JPEG picture. `kind` is the payload type of the NAL unit header, and `don` says that it
carries a DONL or DOND field. -/
inductive RtpPayload where
  | none
  | units (kind : Nat) (don : Bool) (ns : List NalUnit)
  | fragment (kind : Nat) (don first last : Bool) (n : NalUnit)
  | jpeg (p : JpegPart)
  deriving DecidableEq, Repr

/-- A run of stored bytes of one line of a type-3 frame, as the ST 2110-20 payload places it. -/
structure Segment where
  line : Nat
  offset : Nat
  pixels : Nat
  data : List Byte
  deriving DecidableEq, Repr

/-- One RTP packet as the MAC hands it over (R91 to R93). `seq` is 32-bit for type 3, 16-bit otherwise. -/
structure RtpPacket where
  mac : Nat := 0
  vlan : Nat := 0xFFFF
  dst : Nat := 0
  dstPort : Nat := 1
  src : Nat := 0
  ssrc : Nat := 0
  seq : Nat := 0
  ts : Nat := 0
  marker : Bool := false
  segments : List Segment := []
  payload : RtpPayload := .none
  deriving DecidableEq, Repr

/-- What kind of Ethernet frame arrived (R89). -/
inductive EthKind where
  | ptp
  | arp (target : Nat)
  | neighbour (target : Nat)
  | echo (target : Nat)
  | igmpQuery
  | mldQuery
  | udp (port : Nat) (dst : Nat) (src : Nat) (ssrc : Nat)
  | other
  deriving DecidableEq, Repr

/-- A UDP packet for a point flow (R91, R218): the MAC it came in on, its addresses, and its payload. -/
structure PointDatagram where
  mac : Nat := 0
  vlan : Nat := 0xFFFF
  dst : Nat := 0
  dstPort : Nat := 1
  src : Nat := 0
  payload : List Byte := []
  deriving DecidableEq, Repr

/-- How one CTU or macroblock was predicted: the CTUs it reads of its reference pictures, and of its own picture
by intra prediction (R136). -/
structure CtuInfo where
  index : Nat
  interReads : List (Int × Nat) := []
  intraReads : List Nat := []
  deriving DecidableEq, Repr

/-- What decoding one slice gives (R134, R136): whether its syntax breaks a rule of its standard, and the CTUs it decodes. -/
structure SliceResult where
  broken : Bool := false
  ctus : List CtuInfo := []
  deriving DecidableEq, Repr

/-- What an engine's decode of one picture gives (R122, R131, R134 to R138): the decoded sample planes; for each slice received whole, in
order, what its decode gives; for a JPEG picture the MCUs at which a Huffman error stands and, where the decode stopped early, the
MCU at which it did. `ctuSize` is the luma side of its units; `jpeg` is the output format of a JPEG picture. `restoreError` and
`restored` tell of the save record where the engine switched: that it reads back with an uncorrectable error, and the picture
count that it reads back with where that is another record's. -/
structure DecodeResult where
  planes : List (List (List Nat)) := []
  depth : Nat := 8
  jpeg : Nat := 1
  ctuSize : Nat := 64
  slices : List SliceResult := []
  scanErrors : List Nat := []
  scanStop : Option Nat := none
  constrainedIntra : Bool := false
  restoreError : Bool := false
  restored : Option Nat := none
  deriving DecidableEq, Repr

/-- What a scrub read of a block gives (R299, R301). -/
inductive ScrubRead where
  | clean | corrected | uncorrectable
  deriving DecidableEq, Repr

/-- One PTP event or general message as it arrives on a MAC (R256, R258): transport, tag and domain number, the grandmaster, and what the
message carries. `receive` is a Delay_Resp's receive timestamp; that of a Sync is the Lay unit's own. Times in ns; corrections in 2^−16 ns.
`interval` is the time in ms without an Announce after which the master of an Announce counts as gone. -/
structure PtpMsg where
  mac : Nat := 0
  transport : Nat := 0
  vlan : Nat := 0xFFFF
  domainNum : Nat := 127
  master : Nat := 0
  seqId : Nat := 0
  twoStep : Bool := false
  origin : Int := 0
  receive : Int := 0
  correction : Int := 0
  quality : Nat := 0
  utcOffset : Int := 0
  interval : Nat := 0
  deriving DecidableEq, Repr

/-- The information memory of a touch head (R271), as read: `raw` are its bytes but for the CRC, whose places the spec does not give, `crc` is
the CRC that it holds. `gains` stand by sense line and plan, in 1/65,536; one that is not given is 1. -/
structure HeadInfo where
  ident : Nat := 0
  driveN : Nat := 8
  senseN : Nat := 4
  factory : List Nat := []
  limit : Nat := 0
  gains : List Nat := []
  raw : List Byte := []
  crc : Nat := 0
  deriving DecidableEq, Repr

/-- A rectangle of a head. -/
structure Rect where
  x : Nat := 0
  y : Nat := 0
  w : Nat := 0
  h : Nat := 0
  deriving DecidableEq, Repr

/-- An access on the interconnect as the debug port issues it (R391). -/
structure Access where
  write : Bool := false
  addr : Nat := 0
  len : Nat := 1
  data : List Byte := []
  deriving DecidableEq, Repr

/-- What a request at one of Sheave's ports serves (R296, R303): a source, a decode context, an encode context, the fetch of a
head's slots, the point table for a head's overlay, what is always class 0 (TPRs, a class-0 context's save record,
a recomposition that a class-0 seal set off), or the port's other traffic. -/
inductive ReqItem where
  | source (i : Nat)
  | context (c : Nat)
  | encoder (c : Nat)
  | fetch (head : Nat)
  | table (head : Nat)
  | alarm
  | other
  deriving DecidableEq, Repr

/-- What one strand reports with a tile (R163, R164): its flag, and the corrected errors of its buffers since its tile before. -/
structure StrandObs where
  flag : Bool := false
  corrected : Nat := 0
  deriving DecidableEq, Repr

/-- A clock, and the edge counts of its windows that are judged (R417 to R420). -/
structure ClockCounts where
  clock : Nat := 0
  counts : List Nat := []
  deriving DecidableEq, Repr

/-- A head whose link training succeeded, and the TX FFE preset of each lane that it settled on (R208, R211). -/
structure TrainedHead where
  head : Nat := 0
  presets : List Nat := []
  deriving DecidableEq, Repr

/-- The data of a sample instant, and the check that came with it (R270, R271). -/
structure SampleBlock where
  data : List Byte := []
  crc : Nat := 0
  deriving DecidableEq, Repr

/-- What a DBG_HALT request asks of a processor (R398). -/
inductive HaltOp where
  | halt
  | step
  | resume
  deriving DecidableEq, Repr

end Sys2Proof

namespace Sys2Proof

/-- What lane `lane`'s checker has seen since the wall line 0 before: bit errors while locked, resyncs, and whether it is
locked (R327). -/
structure PrbsObs where
  lane : Nat := 0
  errors : Nat := 0
  resyncs : Nat := 0
  locked : Bool := false
  deriving DecidableEq, Repr

/-- What port `port` of Sheave has moved since the wall line 0 before: blocks read, blocks written, read-modify-writes (R314). -/
structure PortObs where
  port : Nat := 0
  reads : Nat := 0
  writes : Nat := 0
  partials : Nat := 0
  deriving DecidableEq, Repr

/-- What the device observes of itself at a wall line 0: the twelve die sensors in milli-degrees (R196), the occupancy of
each channel in 1/65,536 and the sampled request addresses of each hot channel (R312, R313), port traffic, and lane checkers. Of the
head frames that start in the line it gives the failures of the Stopper's test rows: head, and checker 0 P or 1 Q (R189). -/
structure LineObs where
  temps : List Int := []
  occs : List Nat := []
  samples : List (Nat × Nat) := []
  testFails : List (Nat × Nat) := []
  traffic : List PortObs := []
  prbs : List PrbsObs := []
  deriving DecidableEq, Repr

/-- What a faulty checker does to its verdict on a tile (R187, R188): the tile column, the contributor entry whose markers it gets
wrong, and those markers as TR_MARKS bits; entry 4 stands for its TPR check (bit 0) and its band check (bit 1). -/
structure CheckFault where
  col : Nat := 0
  entry : Nat := 0
  mask : Nat := 0
  deriving DecidableEq, Repr

/-- What the memory and the checkers give when a band row is judged (R176, R177, R187, R205, R213): tile columns whose TPR
reads back uncorrectable, or with a reserved field that is not zero, tile columns whose band came back as an error response, what
each checker gets wrong, the line buffer's corrected errors, and the tile columns whose band had one that is not correctable. -/
structure BandObs where
  tprErrors : List Nat := []
  tprReserved : List Nat := []
  zeroed : List Nat := []
  faultP : List CheckFault := []
  faultQ : List CheckFault := []
  lbufCorrected : Nat := 0
  lbufErrors : List Nat := []
  deriving DecidableEq, Repr

/-- What the encoder's coding of a row gives (R238 to R244): of each parameter set, where they are due, and of each slice segment what
follows the NAL unit header; for each CTU the sum of absolute luma differences of its skip prediction from its input; and the QP that
rate control chooses. `refError`: a read of the reference picture or of saved state came back as an error (R250, R302). -/
structure RowObs where
  params : List (List Byte) := []
  slices : List (List Byte) := []
  sad : List Nat := []
  qp : Int := 0
  refError : Bool := false
  deriving DecidableEq, Repr

/-- A detected fault as the collector sees it (R402, R407, R473). -/
structure FaultInfo where
  source : Nat := 0
  unit : Nat := 0xFFFF
  master : Nat := 0xFF
  type : Nat := 0
  addr : Nat := 0
  length : Nat := 0
  subject : Nat := 0xFFFF
  deriving DecidableEq, Repr

/-- The parameters of `WHIP_SET` (R378). -/
structure WhipParams where
  unit : Nat := 0
  mode : Nat := 0
  stop : Nat := 0
  query : Nat := 0
  source : Nat := 0
  addr : Nat := 0
  len : Nat := 0
  seq : Nat := 0
  owner : Nat := 0
  expect : Nat := 0
  period : Nat := 0
  deriving DecidableEq, Repr

/-- The parameters of `PROBE_SET` (R379). -/
structure ProbeParams where
  group : Nat := 0
  probe : Nat := 0
  mode : Nat := 0
  n : Nat := 0
  head : Nat := 0
  x : Nat := 0
  y : Nat := 0
  w : Nat := 0
  h : Nat := 0
  expect : Nat := 0
  deriving DecidableEq, Repr

/-- What an AUX transaction returned (R210, R212): the DPCD link status, its lost-link verdict, or capabilities. -/
structure AuxData where
  status : List Byte := []
  linkLost : Bool := false
  caps : List Byte := []
  lttpr : List Byte := []
  edid : List Byte := []
  deriving DecidableEq, Repr

end Sys2Proof
end

