-- ==== Sys2Proof/Syntax.lean ====
section
/-! DEFINITION. The commands and events of the opcode table, one constructor for each row. The first operand `dt`
of every row is the number of 2 ns TIME ticks since the row before it (log entry 1). Host commands carry their
packet header; events carry what the outside world brings. -/

namespace Sys2Proof

/-- The rows of the opcode table. -/
inductive Instr where
  -- device and firmware commands (R342 to R347)
  | identify (dt : Nat) (c : CmdHdr)
  | summary (dt : Nat) (c : CmdHdr)
  | readLog (dt : Nat) (c : CmdHdr) (logFrom max : Nat)
  | reset (dt : Nat) (c : CmdHdr)
  | clearStartCount (dt : Nat) (c : CmdHdr)
  | fwBegin (dt : Nat) (c : CmdHdr) (size : Nat)
  | fwData (dt : Nat) (c : CmdHdr) (offset : Nat) (data : List Byte)
  | fwEnd (dt : Nat) (c : CmdHdr) (verifies : Bool) (imgSeq version : Nat)
  | fwLoadTimeout (dt : Nat)
  | memConfig (dt : Nat) (c : CmdHdr) (grain hash checkInit : Nat)
  | memConfigDone (dt : Nat)
  | paletteProgram (dt : Nat) (c : CmdHdr) (words : List Nat)
  -- transactions (R348, R369)
  | txnOpen (dt : Nat) (c : CmdHdr)
  | txnCommit (dt : Nat) (c : CmdHdr) (frame : Nat)
  | commitValidated (dt : Nat)
  | txnAbort (dt : Nat) (c : CmdHdr)
  | objectRead (dt : Nat) (c : CmdHdr) (opcode view id count : Nat)
  -- staging (R350 to R368)
  | stageDevice (dt : Nat) (c : CmdHdr) (id : Nat) (o : DeviceCfg)
  | stageSource (dt : Nat) (c : CmdHdr) (id : Nat) (o : SourceCfg)
  | stageFlow (dt : Nat) (c : CmdHdr) (id : Nat) (o : FlowCfg)
  | stageMac (dt : Nat) (c : CmdHdr) (id : Nat) (o : MacCfg)
  | stageDprx (dt : Nat) (c : CmdHdr) (id : Nat) (o : DprxCfg)
  | stageContext (dt : Nat) (c : CmdHdr) (id : Nat) (o : ContextCfg)
  | stageHead (dt : Nat) (c : CmdHdr) (id : Nat) (o : HeadCfg)
  | stageWindow (dt : Nat) (c : CmdHdr) (id : Nat) (o : WindowCfg)
  | stageEncoder (dt : Nat) (c : CmdHdr) (id : Nat) (o : EncoderCfg)
  | stageGlyphs (dt : Nat) (c : CmdHdr) (first : Nat) (os : List GlyphCfg)
  | stageGlyphSet (dt : Nat) (c : CmdHdr) (id : Nat) (o : GlyphSetCfg)
  | stageAtlas (dt : Nat) (c : CmdHdr) (first : Nat) (masks : List (List Byte))
  | stageColours (dt : Nat) (c : CmdHdr) (id : Nat) (colours : List Nat)
  | stageScaler (dt : Nat) (c : CmdHdr) (id : Nat) (o : ScalerCfg)
  | stageDesk (dt : Nat) (c : CmdHdr) (id : Nat) (o : DeskCfg)
  | stageQuad (dt : Nat) (c : CmdHdr) (id : Nat) (o : QuadCfg)
  | stageDomain (dt : Nat) (c : CmdHdr) (id : Nat) (o : DomainCfg)
  | stagePulse (dt : Nat) (c : CmdHdr) (id : Nat) (o : PulseCfg)
  | stageRegulator (dt : Nat) (c : CmdHdr) (id : Nat) (o : RegulatorCfg)
  | stageAccess (dt : Nat) (c : CmdHdr) (id : Nat) (o : AccessCfg)
  -- sources, queries, counters (R370 to R375)
  | surfacePublish (dt : Nat) (c : CmdHdr) (source flags pitch hostAddr capture : Nat)
  | surfaceCopyDone (dt : Nat) (source : Nat) (lines : List (List Byte)) (readOk : Bool)
  | sourceQuery (dt : Nat) (c : CmdHdr) (source count : Nat)
  | encQuery (dt : Nat) (c : CmdHdr) (ctx count : Nat)
  | pointQuery (dt : Nat) (c : CmdHdr) (first count : Nat)
  | headQuery (dt : Nat) (c : CmdHdr) (head sect offset length : Nat)
  | counterRead (dt : Nat) (c : CmdHdr) (block flags inst : Nat)
  -- time (R376, R377)
  | timeAdjust (dt : Nat) (c : CmdHdr) (domain flags incr : Nat) (offset : Int)
  | timeSwitch (dt : Nat) (c : CmdHdr) (domain : Nat)
  | timeStatus (dt : Nat) (c : CmdHdr) (sect sel start : Nat)
  -- checks, lanes, touch (R378 to R381)
  | whipSet (dt : Nat) (c : CmdHdr) (p : WhipParams)
  | probeSet (dt : Nat) (c : CmdHdr) (p : ProbeParams)
  | laneTest (dt : Nat) (c : CmdHdr) (lane flags ctrl : Nat)
  | touchBaseline (dt : Nat) (c : CmdHdr) (desk op : Nat)
  | baselineFlashWriteDone (dt : Nat) (desk : Nat)
  -- faults and debug commands (R382 to R384)
  | faultQuery (dt : Nat) (c : CmdHdr) (first count : Nat)
  | faultReact (dt : Nat) (c : CmdHdr) (source mask : Nat)
  | faultRearm (dt : Nat) (c : CmdHdr) (classes : Nat)
  | unitRestore (dt : Nat) (c : CmdHdr) (unit : Nat)
  | unitTestDone (dt : Nat) (unit : Nat) (pass : Bool)
  | debugChallenge (dt : Nat) (c : CmdHdr)
  | debugUnlock (dt : Nat) (c : CmdHdr) (verifies : Bool)
  | debugChallengeExpiry (dt : Nat)
  | debugLockoutExpiry (dt : Nat)
  -- transport (R41 to R48)
  | dbProducer (dt : Nat) (ring index : Nat) (packets : List (List Byte))
  | dbConsumer (dt : Nat) (ring index : Nat)
  | ringEnable (dt : Nat) (ring size cplSize msixVec modUs : Nat)
  | ringDisable (dt : Nat) (ring : Nat)
  | ringErrClear (dt : Nat) (ring : Nat)
  | registerWrite (dt : Nat) (ring reg value : Nat)
  | bar0StrayWrite (dt : Nat) (addr : Nat)
  | msixModerationExpiry (dt : Nat) (ring : Nat)
  | uartFrameRx (dt : Nat) (raw : List Byte)
  | uartGapTimeout (dt : Nat)
  | txnExpired (dt : Nat) (id : Nat)
  -- raster (R67, R69)
  | wallLineStart (dt : Nat) (obs : LineObs)
  | rasterStart (dt : Nat) (obs : LineObs)
  -- ingest (R89 to R105)
  | ethFrameRx (dt : Nat) (mac : Nat) (kind : EthKind) (vlan length : Nat) (fcsOk : Bool)
  | rtpPacketRx (dt : Nat) (p : RtpPacket)
  | holeClose (dt : Nat) (flow seq : Nat)
  | frameCloseTimeout (dt : Nat) (flow : Nat)
  | pathDown (dt : Nat) (flow path : Nat)
  | frameSeal (dt : Nat) (source : Nat) (lines : List (List Byte))
  | dprxFrameStart (dt : Nat) (port width height format : Nat)
  | dprxLinkLoss (dt : Nat) (port : Nat)
  | dprxHpdRelease (dt : Nat) (port : Nat)
  | pointDatagramRx (dt : Nat) (d : PointDatagram)
  | hostPointSlot (dt : Nat) (count : Nat) (rsv recs : List Byte)
  -- decoding (R113 to R141)
  | decodePictureComplete (dt : Nat) (engine : Nat) (res : DecodeResult)
  | decodeOverrun (dt : Nat) (engine : Nat) (res : DecodeResult)
  | poolBufferFreed (dt : Nat) (ctx : Nat)
  -- encoding and launch (R236 to R249)
  | encodeRowComplete (dt : Nat) (ctx : Nat) (row : RowObs)
  | rowLate (dt : Nat) (ctx : Nat) (row : RowObs)
  | encTileRowRead (dt : Nat) (ctx region row : Nat) (readOk : Bool)
  | packetLaunch (dt : Nat) (mac : Nat)
  | launchSlip (dt : Nat) (mac : Nat)
  -- Braid and overlay (R156 to R168, R226, R227)
  | tileComputed (dt : Nat) (head row : Nat) (mismatch : Bool) (strandA strandB : StrandObs) (readErrors : List Nat)
  | strandSwitch (dt : Nat)
  | passComplete (dt : Nat) (head row : Nat)
  | strandSelftestDone (dt : Nat) (strand : Nat) (pass : Bool)
  | overlaySurfaceDone (dt : Nat) (head : Nat) (readErrors : List Nat)
  | overlayWindowEnd (dt : Nat) (head : Nat)
  -- scan-out and links (R175, R204 to R212)
  | bandRowFetchDone (dt : Nat) (head band : Nat)
  | fetchUrgent (dt : Nat) (head band : Nat)
  | bandRowEmit (dt : Nat) (head band : Nat) (obs : BandObs)
  | hpdIrq (dt : Nat) (head : Nat)
  | hpdUnplug (dt : Nat) (head : Nat)
  | hpdAsserted (dt : Nat) (head : Nat)
  | auxReply (dt : Nat) (head : Nat) (data : AuxData)
  | auxTimeout (dt : Nat) (head : Nat)
  | trainingSuccess (dt : Nat) (r : TrainedHead)
  | trainingAttemptFail (dt : Nat) (head : Nat)
  | trainingAttemptTimeout (dt : Nat) (head : Nat)
  | trainingRetry (dt : Nat) (head : Nat)
  -- lanes (R318 to R334)
  | restExitRequest (dt : Nat) (lane : Nat)
  | laneIdleExit (dt : Nat) (lane : Nat)
  | quadPllLock (dt : Nat) (quad : Nat)
  | quadPllLockTimeout (dt : Nat) (quad : Nat)
  | quadPllUnlock (dt : Nat) (quad : Nat)
  | cdrLoss (dt : Nat) (lane : Nat)
  -- network time and pulses (R256 to R265)
  | ptpSyncRx (dt : Nat) (m : PtpMsg)
  | followUpRx (dt : Nat) (m : PtpMsg)
  | announceRx (dt : Nat) (m : PtpMsg)
  | delayRespRx (dt : Nat) (m : PtpMsg)
  | delayReqTx (dt : Nat) (domain : Nat)
  | mgmtDiscard (dt : Nat) (domain : Nat)
  | syncTimeout (dt : Nat) (domain : Nat)
  | announceTimeout (dt : Nat) (domain master : Nat)
  | holdoverExpiry (dt : Nat) (domain : Nat)
  | tpiEdge (dt : Nat) (input : Nat) (falling : Bool)
  | tpoPulse (dt : Nat) (output : Nat)
  -- touch (R270 to R287)
  | sampleInstantRx (dt : Nat) (desk count : Nat) (b : SampleBlock)
  | thimbleMessageRx (dt : Nat) (desk blockType payload : Nat)
  | touchFrameMeasured (dt : Nat) (desk : Nat) (values : List Int) (noise nextNoise : Nat)
  | deskBlockLock (dt : Nat) (desk : Nat)
  | deskInfoReadDone (dt : Nat) (desk : Nat) (info : HeadInfo)
  | deskStartTimeout (dt : Nat) (desk : Nat)
  | deskLinkLoss (dt : Nat) (desk : Nat)
  -- memory (R301 to R308)
  | refresh (dt : Nat)
  | mr4Poll (dt : Nat) (rates : List Nat)
  | regulatorRelease (dt : Nat) (port : Nat) (item : ReqItem) (size : Nat)
  | class2Promotion (dt : Nat) (channel : Nat)
  | whipCheckDone (dt : Nat) (unit : Nat) (readOk : Bool)
  -- faults and processors (R402 to R415)
  | faultSourceFire (dt : Nat) (f : FaultInfo)
  | processorWdogExpiry (dt : Nat) (proc : Nat)
  | watchdogKick (dt : Nat) (proc : Nat)
  | bowlineWdog (dt : Nat)
  | bowlineLockstep (dt : Nat)
  | collector (dt : Nat)
  -- power, reset, boot (R418 to R449)
  | por (dt : Nat)
  | railExcursion (dt : Nat) (rail : Nat)
  | resetNAssert (dt : Nat)
  | resetNRelease (dt : Nat)
  | perstN (dt : Nat)
  | fuseLoadDone (dt : Nat) (badBlocks strapReadings : List Nat)
  | clockStable (dt : Nat) (c : ClockCounts)
  | clockJudgeTimeout (dt : Nat) (clock : Nat) (count : Option Nat)
  | clockMonitorFail (dt : Nat) (c : ClockCounts)
  | fioRetry (dt : Nat)
  | imageLoaded (dt : Nat) (bad : List Nat)
  | memTrainingDone (dt : Nat) (failed : List Nat)
  | bootComplete (dt : Nat)
  | startTimeout (dt : Nat)
  | failedStartReset (dt : Nat)
  | pwrFailAssert (dt : Nat)
  | pwrFailRelease (dt : Nat)
  | lastGaspWriteDone (dt : Nat)
  -- TAP (R396 to R398)
  | extest (dt : Nat)
  | samplePreload (dt : Nat) (scan : List Bool)
  | idcode (dt : Nat)
  | clamp (dt : Nat)
  | highz (dt : Nat)
  | dbgAccess (dt : Nat) (a : Access)
  | dbgTrace (dt : Nat) (base size : Nat)
  | dbgHalt (dt : Nat) (op : HaltOp) (proc : Nat)
  | bypass (dt : Nat)
  | trstN (dt : Nat)
  -- further events
  | ethLinkDown (dt : Nat) (mac : Nat)
  | ethBlockLock (dt : Nat) (mac : Nat)
  | dprxSymbolLock (dt : Nat) (port : Nat)
  | dprxAuxRequest (dt : Nat) (port offset length : Nat)
  | scrub (dt : Nat) (channel : Nat) (read : ScrubRead)
  | supplyResetRelease (dt : Nat)
  | paletteProgramDone (dt : Nat) (readBackOk : Bool)
  | fwDataDone (dt : Nat)
  | processorRestartDone (dt : Nat) (proc : Nat)
  deriving DecidableEq, Repr

end Sys2Proof
end

