-- ==== Sys2Proof/Decode.lean ====
section
/-! DEFINITION. Words of the opcode table. -/

namespace Sys2Proof

/-- The row that a word of the opcode table spells. No row of this device's table has bits: commands arrive as
packets, which the transport rows read (R37, R338). -/
def decodeTableWord (_nbits _w : Nat) : Option Instr := none

end Sys2Proof
end

