-- ==== Sys2Proof/Config.lean ====
section
/-! DEFINITION. The values the spec leaves open, as constants without a body: no proof can see what they are.
A statement that mentions one holds for every value of it. -/

namespace Sys2Proof.Config

/-- Free values, one for each value of the state's counter `free`: debug challenges (R384), buffer placements
(R295), and the other choices that the assumption log lists under entry 5. -/
opaque freeNat : Nat → Nat

/-- The age that a snapshot gives for the last Sync of a domain that has taken none since reset (R63): the spec
states no value (log entry 5). -/
opaque noSyncAge : Nat → Nat

/-- The picture that test pattern generator n draws for a wall frame: format, width, height and lines. The spec gives the
generators no picture (log entry 5). -/
opaque testPattern : Nat → Nat → Nat × Nat × Nat × List (List Byte)

/-- The device page at which a tile row's slot lies, by row key, slot, and how often its head's ring has been rebased:
firmware places it (R155, R313, log entry 5). -/
opaque slotPage : Nat → Nat → Nat → Nat

/-- The page of its region at which a tile row's TPR array lies, by row key, slot and ring generation (R155, log entry 5). -/
opaque tprPage : Nat → Nat → Nat → Nat

/-- The page of its region at which a source's seal ring lies (R105, log entry 5). -/
opaque sealPage : Nat → Nat

/-- The page of its region at which the point table begins (R215, log entry 5). -/
opaque pointPage : Nat

/-- The page of its region at which a decode context's save record lies (R121, log entry 5). -/
opaque savePage : Nat → Nat

/-- What a context's CTX_PARAM_SETS give, by codec: the standards' syntax of parameter sets, which the spec does not give (R118, log
entry 5). -/
opaque paramSetsOf : Nat → List Byte → List ParamSet

/-- What spatial concealment puts in a column of a plane that has no decoded unit, in a picture that has one elsewhere: by plane, column,
line (R134; the spec states no value, log entry 118). -/
opaque concealSample : Nat → Nat → Nat → Nat

/-- Where in on-chip SRAM the source status table lies, in units of its size (R29, R386, log entry 24). -/
opaque statusPlace : Nat

/-- Whether a firmware image passes its CRC and its Nalerelm signature (R345), the image sequence and the version that its
header gives: the spec gives neither the image's layout nor the key (log entry 11). -/
opaque imageVerifies : List Byte → Bool

/-- The image sequence of an image (log entry 11). -/
opaque imageSeq : List Byte → Nat

/-- The firmware version of an image (log entry 11). -/
opaque imageVersion : List Byte → Nat

/-- Whether a response is Nalerelm's signature over a challenge and a die identity (R384, log entry 11). -/
opaque unlockVerifies : Nat → Nat → List Byte → Bool

/-- What the global registers of BAR0 read as: R41 gives them no layout (log entry 5). -/
opaque globalByte : Nat → Byte

/-- What a unit register reads as where the spec describes the unit and not the register's place in the control space (R386,
log entry 5): by address and by the state's counter `free`. -/
opaque controlByte : Nat → Nat → Byte

end Sys2Proof.Config
end

