-- ==== Sys2Proof/Machine/Crc.lean ====
section
/-! DEFINITION. The folded CRC-32C (R26, R27) and little-endian byte strings (R19). -/

namespace Sys2Proof.Machine

open Sys2Proof

/-- The low `n` bytes of `v`, least significant first (R19). -/
def leBytes : Nat → Nat → List Byte
  | 0, _ => []
  | n + 1, v => BitVec.ofNat 8 v :: leBytes n (v / 256)

/-- The number that a little-endian byte string spells (R19). -/
def leNat : List Byte → Nat
  | [] => 0
  | b :: t => b.toNat + 256 * leNat t

/-- One bit of the reflected CRC-32C register, polynomial 0x82F6_3B78 (R26). -/
def crcBit (c : Word) : Word := if c.getLsbD 0 then (c >>> 1) ^^^ 0x82F63B78#32 else c >>> 1

/-- One byte of the reflected CRC-32C register, bit 0 first (R26). -/
def crcByte (c : Word) (b : Byte) : Word :=
  crcBit (crcBit (crcBit (crcBit (crcBit (crcBit (crcBit (crcBit (c ^^^ b.setWidth 32))))))))

/-- Run the register over a byte string (R26). -/
def crcRun (c : Word) (bs : List Byte) : Word := bs.foldl crcByte c

/-- The 16-byte fold prefix (R27). -/
def foldPrefix (addr seq owner : Nat) : List Byte := leBytes 8 addr ++ leBytes 4 seq ++ leBytes 4 owner

/-- The folded CRC-32C of a block of data (R26). -/
def foldCrc (addr seq owner : Nat) (data : List Byte) : Word :=
  crcRun (crcRun 0xFFFFFFFF#32 (foldPrefix addr seq owner)) data ^^^ 0xFFFFFFFF#32

end Sys2Proof.Machine
end

