-- ==== Sys2Proof/Machine/Parts.lean ====
section
/-! DEFINITION. The parts State is made of, one structure for each unit of the device. All of it is plain data. -/

namespace Sys2Proof.Machine

open Sys2Proof

/-- The device states with their codes (R49). -/
inductive DevState where
  | off | starting | recovery | configuring | running | degraded | safe
  deriving DecidableEq, Repr

/-- The code of a device state (R49). -/
def DevState.code : DevState → Nat
  | .off => 0 | .starting => 1 | .recovery => 2 | .configuring => 3 | .running => 4 | .degraded => 5 | .safe => 6

/-- The head states with their codes (R52). -/
inductive HeadState where
  | down | training | starting | live | aborted
  deriving DecidableEq, Repr

/-- The code of a head state (R52). -/
def HeadState.code : HeadState → Nat
  | .down => 0 | .training => 1 | .starting => 2 | .live => 3 | .aborted => 4

/-- The clock sources of R417, in the order of CLK_FAIL (R436). -/
inductive Clock where
  | fio | sio | xa | xb | pllCore | pllCodec | pllComp | pllPix | pllMem | pllTime
  deriving DecidableEq, Repr

/-- The CLK_FAIL code of a clock (R436). -/
def Clock.code : Clock → Nat
  | .fio => 1 | .sio => 2 | .xa => 3 | .xb => 4 | .pllCore => 5 | .pllCodec => 6 | .pllComp => 7
  | .pllPix => 8 | .pllMem => 9 | .pllTime => 10

/-- The causes RESET_CAUSE records (R436). -/
inductive ResetCause where
  | por | supply | pin | command | reaction | bowline | failedStart
  deriving DecidableEq, Repr

/-- The RESET_CAUSE code (R436). -/
def ResetCause.code : ResetCause → Nat
  | .por => 0 | .supply => 1 | .pin => 2 | .command => 3 | .reaction => 4 | .bowline => 5 | .failedStart => 6

/-- The two forms of RECOVERY (R428). -/
inductive RecoveryForm where
  | none | full | sio
  deriving DecidableEq, Repr

/-- Boot sources of the strap (R435). -/
inductive BootSource where
  | xspi | pcie | uart
  deriving DecidableEq, Repr

/-! ### Reset, clocks, boot, fuses, flash (R417 to R446) -/

/-- Backup registers BK0 to BK6 (R436). -/
structure Backup where
  bootId : Nat := 0
  startCount : Nat := 0
  resetCause : ResetCause := .por
  clkFail : Nat := 0
  fioTries : Nat := 0
  collectorLatch : Bool := false
  stageValid : Bool := false
  fuseBad : List Nat := []
  strapChoice : Nat := 0
  strapAmbig : Bool := false
  deriving DecidableEq, Repr

/-- The COMMIT record of retained memory (R437): its newest valid slot. -/
structure CommitRec where
  seq : Nat := 0
  txnHigh : Nat := 0
  lastTxn : Nat := 0
  lastFrame : Nat := 0
  bootId : Nat := 0
  deriving DecidableEq, Repr

/-- Retained memory (R437). -/
structure Retained where
  commit : Option CommitRec := none
  trainSeq : Nat := 0
  trained : List Nat := []
  deriving DecidableEq, Repr

/-- One event record (R59). -/
structure Event where
  seq : Nat := 0
  frame : Nat := 0
  line : Nat := 0
  code : Nat := 0
  subject : Nat := 0
  data : Nat := 0
  deriving DecidableEq, Repr

/-- A last-gasp record (R441). -/
structure LastGasp where
  seq : Nat := 0
  bootId : Nat := 0
  startCount : Nat := 0
  wallFrame : Nat := 0
  committedTxn : Nat := 0
  txnHigh : Nat := 0
  committedFrame : Nat := 0
  devState : Nat := 0
  resetCause : Nat := 0
  events : List Event := []
  fenced : List Nat := []
  deriving DecidableEq, Repr

/-- A start record in flash (R427, R438). -/
structure StartRec where
  seq : Nat := 0
  count : Nat := 0
  txnReserved : Nat := 0
  deriving DecidableEq, Repr

/-- A firmware image slot: validity and image sequence (R429). -/
structure ImageSlot where
  valid : Bool := false
  seq : Nat := 0
  version : Nat := 0
  deriving DecidableEq, Repr

/-- A copy of the user calibration in flash: its sequence, and the offset of each node by desk (R282, R439). -/
structure CalCopy where
  valid : Bool := false
  seq : Nat := 0
  offsets : Tab (List Int) := []
  deriving DecidableEq, Repr

/-- A fuse request in flash (R432). -/
structure FuseReq where
  xbFreqKhz : Nat := 0
  xbExt : Bool := false
  pinOverrides : List Nat := []
  crcOk : Bool := true
  deriving DecidableEq, Repr

/-- The xSPI flash and the staged image of on-chip SRAM (R429, R438). -/
structure Flash where
  fitted : Bool := true
  slotA : ImageSlot := { valid := true }
  slotB : ImageSlot := {}
  staged : ImageSlot := {}
  startRec : Option StartRec := none
  calA : CalCopy := {}
  calB : CalCopy := {}
  lastGasp : Option LastGasp := none
  fuseReq : Option FuseReq := none
  deriving DecidableEq, Repr

/-- A fuse block's load outcome and customer words (R430, R431). -/
structure Fuses where
  fieldLocked : Bool := false
  dieId : Nat := 0
  xbFreqKhz : Nat := 0
  xbExt : Bool := false
  custProgrammed : Bool := false
  custBad : Bool := false
  pinFactory : List Nat := []
  pinOverrides : List Nat := []
  paletteFactory : List Nat := []
  paletteCustomer : List Nat := []
  paletteProgrammed : Bool := false
  paletteBad : Bool := false
  committed : Bool := false
  deriving DecidableEq, Repr

/-- Reset, boot and start sequence (R423 to R428). `step` says what the start of R426 waits for: 0 a reset that is held, 2 the
fuse load, 4 FIO, 6 XA and XB, 7 the PLLs, 8 the image, 9 memory training, 10 the boot-complete mark; 11 is a device that runs.
`xbUsed` is the shadow of XB_FREQ_KHZ being nonzero, `pinMap` the state of each mapped pin by R433's factory codes. -/
structure Boot where
  step : Nat := 0
  afterPor : Bool := true
  failed : Bool := false
  recovery : RecoveryForm := .none
  fwSlot : Nat := 0
  fwVersion : Nat := 0
  pinMap : List Nat := []
  palette : List Nat := []
  cleatUp : Bool := false
  xbUsed : Bool := false
  deriving DecidableEq, Repr

/-- Clock judgement and monitoring (R417 to R422): clocks that run, those judged stable, those whose clients run on FIO and
those whose clients are held in reset (R421, R425), whether the SAFE domain fell back to SIO, and whether FIO waits disabled
after a failed attempt. -/
structure Clocks where
  enabled : List Clock := []
  stable : List Clock := []
  onFio : List Clock := []
  held : List Clock := []
  safeOnSio : Bool := false
  fioWait : Bool := false
  deriving DecidableEq, Repr

/-- Pins and rails (R424, R440, R449, R453): rails outside their thresholds in the order of R448, and the last-gasp record that
the boot loader is writing. -/
structure Pins where
  resetLow : Bool := false
  pwrFailLow : Bool := false
  vddFuse : Bool := false
  railsBad : List Nat := []
  fetchStopped : Bool := false
  gasp : Option LastGasp := none
  deriving DecidableEq, Repr

/-- Die temperature sensors and the state of condition 4 (R196, R465). Readings in milli-degrees Celsius. -/
structure Temp where
  readings : List Int := []
  failing : Bool := false
  insideSinceLine0 : Bool := false
  deriving DecidableEq, Repr

/-! ### Host interface (R37 to R65) -/

/-- Status codes of a reply (R40). -/
inductive Status where
  | ok | wBoundVoid | eCrc | eLength | eOpcode | eParam | eState | eTxn | eTxnLimit | eLate | eOrder | eConflict
  | eNotFound | eCapacity | eDensity | ePolicy | eFenced | eBusy | eLocked | eAuth | eInternal
  deriving DecidableEq, Repr

/-- The code of a status (R40). -/
def Status.code : Status → Nat
  | .ok => 0 | .wBoundVoid => 1 | .eCrc => 0x100 | .eLength => 0x101 | .eOpcode => 0x102 | .eParam => 0x103
  | .eState => 0x104 | .eTxn => 0x105 | .eTxnLimit => 0x106 | .eLate => 0x107 | .eOrder => 0x108
  | .eConflict => 0x109 | .eNotFound => 0x10A | .eCapacity => 0x10B | .eDensity => 0x10C | .ePolicy => 0x10D
  | .eFenced => 0x10E | .eBusy => 0x10F | .eLocked => 0x110 | .eAuth => 0x111 | .eInternal => 0x112

/-- A first-error record (R407). -/
structure FirstErr where
  source : Nat := 0
  master : Nat := 0
  type : Nat := 0
  length : Nat := 0
  unit : Nat := 0
  addr : Nat := 0
  sec : Nat := 0
  ns : Nat := 0
  subject : Nat := 0
  valid : Bool := false
  overflow : Bool := false
  deriving DecidableEq, Repr

/-- Per-head part of the snapshot (R63). -/
structure SnapHead where
  state : Nat := 0
  hpd : Bool := false
  fenced : Bool := false
  ribbon : Bool := false
  lanes : Nat := 0
  deriving DecidableEq, Repr

/-- Per-transaction part of the snapshot (R63). -/
structure SnapTxn where
  id : Nat := 0
  staged : Nat := 0
  channel : Nat := 0
  lastFrame : Nat := 0
  deriving DecidableEq, Repr

/-- Per-domain part of the snapshot (R63). -/
structure SnapTd where
  status : Nat := 0
  active : Bool := false
  gm : Nat := 0
  offset : Int := 0
  syncAgeUs : Nat := 0
  deriving DecidableEq, Repr

/-- The part of a snapshot whose change raises the generation (R62). -/
structure SnapCore where
  devState : Nat := 0
  boundVoidAny : Bool := false
  singleStrand : Bool := false
  reserveOn : Bool := false
  fieldLocked : Bool := false
  bootId : Nat := 0
  startCount : Nat := 0
  committedTxn : Nat := 0
  committedFrame : Nat := 0
  scheduledTxn : Nat := 0
  scheduledFrame : Nat := 0
  heads : List SnapHead := []
  txns : List SnapTxn := []
  fenced : List Nat := []
  boundCond : Nat := 0
  boundVoid : List Nat := []
  tds : List SnapTd := []
  firstErr : List FirstErr := []
  deriving DecidableEq, Repr

/-- One SUMMARY snapshot (R63): the core, and the fields that do not count as changes. -/
structure Snapshot where
  generation : Nat := 0
  wallFrame : Nat := 0
  wallLine : Nat := 0
  core : SnapCore := {}
  headCounts : List (Nat × Nat × Nat) := []
  faultCounts : Tab Nat := []
  evtSeqs : List Nat := []
  deriving DecidableEq, Repr

/-- What `SOURCE_QUERY`, `ENC_QUERY` and the seal ring hold: one 64-byte seal (R108). -/
structure Seal where
  source : Nat := 0
  concealed : Bool := false
  frozen : Bool := false
  repeated : Bool := false
  part : Bool := false
  host : Bool := false
  captSrc : Nat := 0
  seq : Nat := 0
  capture : Nat := 0
  arrival : Nat := 0
  sealTime : Nat := 0
  bufAddr : Nat := 0
  payloadCrc : Word := 0
  contentCrc : Word := 0
  width : Nat := 0
  height : Nat := 0
  pitch : Nat := 0
  format : Nat := 0
  fraction : Nat := 0
  origin : Nat := 0
  frozenRun : Nat := 0
  cls : Nat := 2
  deriving DecidableEq, Repr

/-- A point record (R215). -/
structure PointEntry where
  value : Nat := 0
  flags : Nat := 0
  seq : Nat := 0
  time : Nat := 0
  deriving DecidableEq, Repr

/-- An offset sample of a time domain (R258): t2 in ns, the offset and the delay in 2^−16 ns. -/
structure Sample where
  seq : Nat := 0
  syncId : Nat := 0
  gm : Nat := 0
  t2 : Int := 0
  offset : Int := 0
  delay : Int := 0
  deriving DecidableEq, Repr

/-- A record of a time pulse input (R264). -/
structure TpiRec where
  falling : Bool := false
  td0 : Nat := 0
  td1 : Nat := 0
  wall : Nat := 0
  deriving DecidableEq, Repr

/-- Reply data, by command (R342 to R384). Numbers stand in the order of the command's reply layout. -/
inductive ReplyData where
  | empty
  | words (ws : List Int)
  | summary (s : Snapshot)
  | events (first count : Nat) (recs : List Event)
  | object (generation : Nat) (o : StagedObj)
  | source (latestSeq flags kind cls lastAdvance : Nat) (seals : List Seal)
  | encoder (state engine k : Nat) (seals : List Seal)
  | points (recs : List PointEntry)
  | bytes (total : Nat) (bs : List Byte)
  | samples (ss : List Sample)
  | tpis (rs : List TpiRec)
  | faults (first : List FirstErr) (rows : List (Nat × Nat × Nat))
  deriving DecidableEq, Repr

/-- A reply (R38): the header's echoed fields, the preamble and the data. -/
structure Reply where
  ch : Channel
  opcode : Nat
  tag : Nat
  txn : Nat
  status : Status
  devState : Nat
  legalStates : Nat
  generation : Nat
  detail : Nat
  data : ReplyData
  len : Nat := 0
  deriving DecidableEq, Repr

/-- A command packet that waits for its channel (R37, R340): its bytes, whether it arrived while four UART commands
were pending (R48), and the ring slots it occupies (R42). -/
structure Waiting where
  bytes : List Byte := []
  busy : Bool := false
  slots : Nat := 0
  deriving DecidableEq, Repr

/-- One ring's registers and positions (R43 to R46). -/
structure Ring where
  base : Nat := 0
  enable : Bool := false
  size : Nat := 0
  cplSize : Nat := 0
  msixVec : Nat := 0
  modUs : Nat := 0
  ringErr : Bool := false
  cplFull : Bool := false
  errCause : Nat := 0
  cplBase : Nat := 0
  wbAddr : Nat := 0
  producer : Nat := 0
  wbConsumer : Nat := 0
  wbProducer : Nat := 0
  released : Nat := 0
  wbGeneration : Nat := 0
  modHeld : Bool := false
  modRunning : Bool := false
  waiting : List Waiting := []
  held : List Reply := []
  deriving DecidableEq, Repr

/-- The service UART (R47, R48). -/
structure Uart where
  waiting : List Waiting := []
  discarded : Nat := 0
  deriving DecidableEq, Repr

/-- The status mirror (R64). -/
structure Mirror where
  devState : Nat := 0
  heartbeat : Nat := 0
  snapCount : Nat := 0
  snap : Snapshot := {}
  deriving DecidableEq, Repr

/-- The event log (R59, R60, R343): the newest 4,096 events, newest first. -/
structure EventLog where
  next : Nat := 1
  recs : List Event := []
  lost : Nat := 0
  firstLost : Nat := 0
  deriving DecidableEq, Repr

/-- Debug challenge state (R384). -/
structure Auth where
  challenge : Option Nat := none
  failures : Nat := 0
  lockout : Bool := false
  unlocked : Bool := false
  deriving DecidableEq, Repr

/-- A firmware load (R345). -/
structure FwLoad where
  open_ : Bool := false
  slot : Nat := 0
  size : Nat := 0
  received : Nat := 0
  data : List Byte := []
  idleFrom : Nat := 0
  deriving DecidableEq, Repr

/-- Commands that complete in the background (R340), with the headers their replies need. -/
structure Background where
  memConfig : Option (CmdHdr × Nat × Nat × Nat) := none
  palette : Option (CmdHdr × List Nat) := none
  fwData : List CmdHdr := []
  commit : List (CmdHdr × Nat) := []
  resetDue : Option Nat := none
  deriving DecidableEq, Repr

/-! ### Transactions and Splice (R54 to R58, R81 to R85) -/

/-- One staged object with the generation current when it was staged (R57). -/
structure Staged where
  obj : StagedObj
  gen : Nat
  deriving DecidableEq, Repr

/-- An open transaction (R54, R55). -/
structure Txn where
  id : Nat
  channel : Channel
  staged : List Staged := []
  lastFrame : Nat := 0
  lastTick : Nat := 0
  deriving DecidableEq, Repr

/-- A scheduled version of the Splice store (R81): its wall frame, its objects in commit order, and the
transactions merged into it. -/
structure Version where
  frame : Nat
  objs : List StagedObj := []
  txns : List Nat := []
  rebase : List Nat := []
  deriving DecidableEq, Repr

/-- An applied commit that waits for its `COMMIT_APPLIED` event (R58): the heads yet to start. -/
structure Awaiting where
  txn : Nat
  frame : Nat
  heads : List Nat
  deriving DecidableEq, Repr

/-- The Splice store and what the summary reports of it. `ringMoves` lists the rebases of tile-row rings: head, and the head
frame from which the new slots serve (R313). -/
structure Splice where
  versions : List Version := []
  history : List (Nat × Layout) := []
  changed : Tab Nat := []
  stagedGen : Tab Nat := []
  awaiting : List Awaiting := []
  committedTxn : Nat := 0
  committedFrame : Nat := 0
  tag : Nat := 0
  wantReserve : Option Nat := none
  wantRebase : List Nat := []
  ringMoves : List (Nat × Nat) := []
  deriving DecidableEq, Repr

/-- Transactions (R54). -/
structure Txns where
  next : Nat := 1
  reserved : Nat := 0
  open_ : List Txn := []
  deriving DecidableEq, Repr

/-! ### Time (R66 to R70, R253 to R267) -/

/-- PTP domain states (R259). -/
inductive TdState where
  | absent | locked | holdover
  deriving DecidableEq, Repr

/-- The code of a domain state (R259). -/
def TdState.code : TdState → Nat
  | .absent => 0 | .locked => 1 | .holdover => 2

/-- One time domain (R253 to R259). `units` is the counter in 2^−32 ns: TD_SEC, TD_NS and TD_FRAC are its views.
`lastSync` is a moment in TIME ticks; `samples` holds the latest 64, newest first, and `unread` the sequences not yet read;
`delayReq` is the master and t3 of the request under way, `exchange` the master, t3, t4 and cD of the latest exchange;
`masters` lists the masters heard with the quality that their Announces give, `heard` when each was last heard and how long it may be silent;
`syncFrom` is when the Sync timeout last began to run, `holdFrom` when HOLDOVER began. -/
structure Domain where
  units : Nat := 0
  incr : Nat := 0x200000000
  state : TdState := .absent
  everLocked : Bool := false
  good : Nat := 0
  bad : Nat := 0
  gm : Nat := 0
  utcOffset : Int := 0
  lastSync : Option Nat := none
  sampleSeq : Nat := 0
  samples : List Sample := []
  unread : List Nat := []
  pendingSync : Option PtpMsg := none
  delayReq : Option (Nat × Int) := none
  exchange : Option (Nat × Int × Int × Int) := none
  masters : Tab Nat := []
  heard : Tab (Nat × Nat) := []
  syncFrom : Nat := 0
  holdFrom : Nat := 0
  deriving DecidableEq, Repr

/-- A time pulse output's progress (R265). -/
structure TpoRt where
  next : Nat := 0
  done : Bool := false
  level : Bool := false
  deriving DecidableEq, Repr

/-- The Lay unit (R253 to R267). `resid` is WALL_RESID in 2^−32 ns. -/
structure Time where
  td0 : Domain := {}
  td1 : Domain := {}
  active : Nat := 0
  resid : Int := 0
  incrAtLine0 : Nat := 0x200000000
  pendingSwitch : Option Nat := none
  tpi : Tab (List TpiRec) := []
  tpiLast : Tab Nat := []
  tpo : Tab TpoRt := []
  upTicks : Nat := 0
  deriving DecidableEq, Repr

/-- The wall raster (R66 to R70). `run`: wall lines advance. `started`: it has reached its first wall line 0 since the
boot-complete mark. `first`: the wall frame at which it starts or restarts; `origin`: that of its start, whatever re-anchors follow (R107).
`anchored`: it stopped for a re-anchor, and every scheduled commit applies at the restart (R70). -/
structure Raster where
  run : Bool := false
  started : Bool := false
  frame : Nat := 0
  line : Nat := 0
  first : Nat := 0
  origin : Nat := 0
  anchored : Bool := false
  deriving DecidableEq, Repr

/-! ### Sources and ingest (R86 to R112) -/

/-- A source status entry (R29). -/
structure StatusEntry where
  latestSeq : Nat := 0
  lastAdvance : Nat := 0
  flags : Nat := 0
  deriving DecidableEq, Repr

/-- A source buffer (R88, R132): its address, what a rebase added to its PITCH (R313), its lines in plane order without
padding, and which seal it holds; `tainted` is the TAINTED mark of a decoder output (R132). -/
structure FrameBuf where
  addr : Nat := 0
  pitchUp : Nat := 0
  lines : List (List Byte) := []
  width : Nat := 0
  height : Nat := 0
  format : Nat := 0
  sealSeq : Option Nat := none
  writing : Bool := false
  tainted : Bool := false
  deriving DecidableEq, Repr

/-- A frame whose last byte is in memory and whose seal is due (R105). `drawn` is the head frame and version of an
overlay surface (R226). -/
structure ReadyFrame where
  buf : Nat
  capture : Nat
  captSrc : Nat
  arrival : Nat
  concealedPixels : Nat := 0
  concealed : Bool := false
  fractionMin : Nat := 0
  host : Bool := false
  origin : Nat := 0
  cls : Nat := 2
  flow : Option Nat := none
  repeated : Bool := false
  drawn : Option (Nat × Nat × Nat) := none
  deriving DecidableEq, Repr

/-- One source's seal unit state: status entry, seal ring (newest first), buffers, frames ready to seal, the first of the free
values that place its buffers and are their numbers, what rebases added to its PITCH, and whether its pool moves at its context's
next IRAP picture (R313). `inReserve`: its buffers lie in the reserve window (R87, R297). -/
structure SourceRt where
  status : StatusEntry := {}
  seals : List Seal := []
  nextSeq : Option Nat := none
  bufs : Tab FrameBuf := []
  ready : List ReadyFrame := []
  allocAt : Nat := 0
  pitchUp : Nat := 0
  moveDue : Bool := false
  inReserve : Bool := false
  deriving DecidableEq, Repr

/-- A missing RTP sequence number (R94): when its hole opened, in wall ns. -/
structure Hole where
  seq : Nat
  openedAt : Nat
  deriving DecidableEq, Repr

/-- A frame or coded picture that a flow is receiving (R98). `spans` are the runs of pixels received, each with the packet
that brought it; `filled` the runs concealed when their hole closed (R99). Pixels are numbered in raster order. `openedAt` and `laterAt`
are TIME ticks: of the first packet, and of the first packet with a later timestamp. No number below `floor` belongs to the frame. -/
structure OpenFrame where
  ts : Nat
  buf : Option Nat := none
  dropped : Bool := false
  arrival : Nat := 0
  capture : Nat := 0
  captSrc : Nat := 1
  openedAt : Nat := 0
  laterAt : Option Nat := none
  floor : Nat := 0
  marker : Option Nat := none
  seqs : List Nat := []
  spans : List (Nat × Nat × Nat) := []
  filled : List (Nat × Nat) := []
  cls : Nat := 2
  parts : List (Nat × RtpPayload) := []
  deriving DecidableEq, Repr

/-- One flow's reception state (R93 to R98); a pair shares that of its lower flow ID. Sequence numbers are unwrapped.
`top` is the highest number that a path has delivered, `got` those it delivered, `arrival` its latest arrival. -/
structure FlowRt where
  started : Bool := false
  highest : Nat := 0
  ssrc : Nat := 0
  seen : List Nat := []
  lost : List Nat := []
  holes : List Hole := []
  frames : List OpenFrame := []
  closedTs : List Nat := []
  arrivalA : Option Nat := none
  arrivalB : Option Nat := none
  downA : Bool := false
  downB : Bool := false
  topA : Option Nat := none
  topB : Option Nat := none
  gotA : List Nat := []
  gotB : List Nat := []
  deriving DecidableEq, Repr

/-- A DPRX port (R100, R321). -/
structure DprxRt where
  up : Bool := false
  hpdLow : Bool := true
  frameBuf : Option Nat := none
  inFrame : Bool := false
  width : Nat := 0
  height : Nat := 0
  format : Nat := 0
  arrival : Nat := 0
  origCls : Nat := 2
  deriving DecidableEq, Repr

/-- A surface copy in progress (R101). -/
structure SurfaceCopy where
  hdr : CmdHdr
  source : Nat
  buf : Nat
  capture : Nat
  captSrc : Nat
  arrival : Nat
  cls : Nat := 2
  deriving DecidableEq, Repr

/-- Ingest as a whole. -/
structure Ingest where
  sources : Tab SourceRt := []
  flows : Tab FlowRt := []
  macUp : List Nat := []
  dprx : Tab DprxRt := []
  copies : List SurfaceCopy := []
  deriving DecidableEq, Repr

/-! ### Decoding (R113 to R141) -/

/-- A closed coded picture waiting for its context (R98, R117, R123). `units` are its NAL units in order, none for a lost one; `scan` the
parts of a JPEG picture, none for a lost packet. What the context makes of them on arrival: `desc` from the first slice, `seq` its
sequence, `slices` whether each slice can be decoded, `sliceLoss` how many others were lost, `breaks` the stretches of MCUs whose
data is missing, `scanOpen` that the end of a JPEG picture was lost, and `blank` a JPEG picture that has no quantisation tables. -/
structure CodedPic where
  id : Nat := 0
  desc : PicDesc := {}
  units : List (Option NalUnit) := []
  scan : List (Option JpegPart) := []
  seq : Option SeqParams := none
  slices : List Bool := []
  sliceLoss : Nat := 0
  scanOpen : Bool := false
  breaks : List (Nat × Nat) := []
  restart : Nat := 0
  blank : Bool := false
  capture : Nat := 0
  captSrc : Nat := 0
  arrival : Nat := 0
  lost : List Nat := []
  closedWall : Nat := 0
  closedPos : Nat := 0
  cls : Nat := 2
  deriving DecidableEq, Repr

/-- A picture of the pool: its mark word (R132; HELD is read from the seals and the Braid), taint map (R136), and
sample planes. `grey` marks a grey substitute, which is no picture (R137). `sent` says that the seal unit has it, and `outDepth` and
`outScale` are the output form of the version it was decoded under (R141). -/
structure PoolPic where
  buf : Nat := 0
  poc : Int := 0
  shortRef : Bool := false
  longRef : Bool := false
  outputPending : Bool := false
  tainted : Bool := false
  taintMap : List Nat := []
  allTainted : Bool := false
  grey : Bool := false
  concealedPixels : Nat := 0
  capture : Nat := 0
  captSrc : Nat := 0
  arrival : Nat := 0
  standsFor : List Int := []
  sent : Bool := false
  outDepth : Nat := 10
  outScale : Nat := 0
  pitchUp : Nat := 0
  planes : List (List (List Nat)) := []
  depth : Nat := 8
  jpeg : Nat := 1
  ctuSize : Nat := 64
  cls : Nat := 2
  deriving DecidableEq, Repr

/-- Decode context states (R120). -/
inductive CtxState where
  | idle | waitIrap | running
  deriving DecidableEq, Repr

/-- A save record (R121): the DPB's buffers, the parameter sets, the latest POC, the picture count, and the record's address. -/
structure SaveRecord where
  addr : Nat := 0
  dpb : List Nat := []
  params : List ParamSet := []
  poc : Int := 0
  count : Nat := 0
  deriving DecidableEq, Repr

/-- One decode context. `resync`: a discontinuity came while a picture decodes, and WAIT_IRAP follows that picture (R141). `params` are
the parameter sets received, `tables` the JPEG quantisation tables kept (R118), `pictures` Reeve's count of its pictures (R122),
`prevOut` the previous output picture of a JPEG context (R135), and `chroma` the sampling of its latest one (R126). -/
structure CtxRt where
  resync : Bool := false
  state : CtxState := .idle
  queue : List CodedPic := []
  dpb : List PoolPic := []
  writing : Option Nat := none
  guard : Bool := false
  recovery : Option Int := none
  raslDiscard : Bool := false
  discarded : List Int := []
  params : List ParamSet := []
  tables : List Byte := []
  picCount : Nat := 0
  pictures : Nat := 0
  save : Option SaveRecord := none
  prevOut : List (List (List Nat)) := []
  chroma : Nat := 3
  reorder : Nat := 0
  lastClose : Option Nat := none
  waiting : Bool := false
  cfg : ContextCfg := {}
  deriving DecidableEq, Repr

/-- One decode engine: what it decodes and the context whose state it holds; `switched` says that it restored that state for the picture
(R121). -/
structure EngineRt where
  pic : Option (Nat × CodedPic) := none
  last : Option Nat := none
  switched : Bool := false
  fencedLate : Bool := false
  deriving DecidableEq, Repr

/-- The decoders and Reeve's view of them (R124 to R129). Frames are wall frames. -/
structure Decode where
  ctxs : Tab CtxRt := []
  engines : Tab EngineRt := []
  alarm : Option Nat := none
  alarmSince : Nat := 0
  alarmFresh : Bool := false
  lastSpacing : Option Nat := none
  lastStall : Option Nat := none
  lastRestore : Option Nat := none
  nextPic : Nat := 0
  deriving DecidableEq, Repr

/-! ### Braid (R142 to R170) -/

/-- A contributor entry of a tile provenance record (R161). -/
structure Contrib where
  source : Nat := 0xFFFF
  window : Nat := 0xFFFF
  seq : Nat := 0
  capture : Nat := 0
  concealed : Bool := false
  frozen : Bool := false
  repeated : Bool := false
  noSeal : Bool := false
  background : Bool := false
  fraction : Nat := 0
  under : List Nat := []
  cls : Nat := 0
  deriving DecidableEq, Repr

/-- A tile provenance record (R161). -/
structure Tpr where
  bandCrc : List Word := []
  contribs : List Contrib := []
  wallFrame : Nat := 0
  head : Nat := 0
  half : Nat := 0
  col : Nat := 0
  row : Nat := 0
  unchecked : Bool := false
  reworked : Bool := false
  holder : Nat := 0
  deriving DecidableEq, Repr

/-- One tile's result in a slot: 64 lines of 64 pixel words (R153, R155), its TPR, its version tag and pass order. -/
structure TileResult where
  pixels : List (List Word) := []
  tpr : Tpr := {}
  tag : Nat := 0
  order : Nat := 0
  passDone : Bool := false
  deriving DecidableEq, Repr

/-- A running pass (R156): the tiles still to compute in order, its version tag, its order among all passes, the seals
and buffers it selected when it started (R31) by source, the overlay surface it uses (R228), and the slot places it
has written. -/
structure Pass where
  todo : List Nat := []
  tag : Nat := 0
  first : Bool := false
  order : Nat := 0
  inputs : List (Nat × Option (Seal × Nat)) := []
  ovl : Option (Seal × Nat) := none
  wrote : List (Nat × Nat) := []
  deriving DecidableEq, Repr

/-- One tile row of a head (R156 to R160). `due`: its first pass has reached its L_BEGIN point and has not started.
`pending`: the tiles of the pending recomposition, and whether a class-0 seal is among its causes. `commit` names slot 0
as 1 and slot 1 as 2; `missed` lists the tiles without a result for the bound head frame; `holds` keeps, by tile, the
source frames that the committed result reads (R160). -/
structure RowRt where
  frame : Nat := 0
  half : Nat := 0
  due : Bool := false
  bound : Bool := false
  running : Option Pass := none
  pending : Option (List Nat × Bool) := none
  slot0 : Tab TileResult := []
  slot1 : Tab TileResult := []
  commit : Tab Nat := []
  missed : List Nat := []
  holds : Tab (List (Nat × Nat)) := []
  deriving DecidableEq, Repr

/-- What a strand is doing (R164 to R168). -/
inductive StrandState where
  | comparing
  | probation (agreeing : Nat)
  | selfTest
  | passed
  | fenced
  deriving DecidableEq, Repr

/-- The Braid: its rows, the row whose pass runs now, the holder, the strands, the moments at which each left the
comparison, whether a comparison disagreed since the latest wall line 0, the tile that both strands render again, the
strand that takes the hold when the move completes, the tile to render again after the move, whether the preferred strand takes the
hold back at the next tile boundary (R167), each strand's corrected errors (R163), and the pass order. -/
structure Braid where
  rows : Tab RowRt := []
  current : Option Nat := none
  hold : Nat := 0
  strandA : StrandState := .comparing
  strandB : StrandState := .comparing
  leavesA : List Nat := []
  leavesB : List Nat := []
  disagreed : Bool := false
  retry : Option (Nat × Nat) := none
  switching : Option Nat := none
  rework : Option (Nat × Nat) := none
  takeBack : Bool := false
  corrA : Nat := 0
  corrB : Nat := 0
  order : Nat := 0
  deriving DecidableEq, Repr

/-! ### Stopper, signatures, Whipping (R171 to R197) -/

/-- The markers of R181. -/
inductive Marker where
  | unverified | dead | concealed | frozen | stale
  deriving DecidableEq, Repr

/-- One window's line of a Stopper policy table (R173): the limits in force, the clipped rectangle and the caption. -/
structure PolicyEntry where
  window : Nat
  source : Nat
  rect : Rect
  staleMs : Nat
  deadMs : Nat
  freezeMs : Nat
  caption : Nat
  corner : Nat
  scale : Nat
  deriving DecidableEq, Repr

/-- An age caption that is drawn in the present head frame (R184): the box's corner, its scale, and the characters. -/
structure Caption where
  x : Int := 0
  y : Nat := 0
  scale : Nat := 1
  text : List Nat := []
  deriving DecidableEq, Repr

/-- A Stopper unit (R187 to R190). `storeP` and `storeQ` are its checkers' verdict stores for the latest band row judged: by tile column,
the marker bits of each entry, and its one-hot marker codes. -/
structure StopUnit where
  passing : Nat := 0
  disagreeFrames : Nat := 0
  disagreed : Bool := false
  testFail : Bool := false
  storeP : List (Nat × List Nat) := []
  storeQ : List (Nat × List (List Nat)) := []
  deriving DecidableEq, Repr

/-- The settings of a signature probe (R192, R379): mode 0 off, 1 EXPECT, 2 CHANGE. -/
structure ProbeCfg where
  mode : Nat := 0
  n : Nat := 0
  head : Nat := 0
  rect : Rect := {}
  expect : Word := 0
  deriving DecidableEq, Repr

/-- A signature probe: its settings, those that its head's next frame start takes, the running signature of the frame in
progress, the latest signature, the run of equal samples, and the failures. -/
structure Probe where
  cfg : ProbeCfg := {}
  next : Option ProbeCfg := none
  acc : Option Word := none
  latest : Word := 0
  equalRun : Nat := 0
  failures : Nat := 0
  deriving DecidableEq, Repr

/-- A signature unit (R192): the next head of its rotation, the head armed at the latest wall line 0, the running signature
of each head whose frame is being signed, and the latest whole-frame signature of each head. -/
structure SigUnit where
  rotation : Nat := 0
  armed : Option Nat := none
  signing : Tab Word := []
  last : Tab Word := []
  probes : Tab Probe := []
  deriving DecidableEq, Repr

/-- The settings of a Whipping compare unit (R191). -/
structure WhipCfg where
  mode : Nat := 0
  stop : Bool := false
  source : Nat := 0
  addr : Nat := 0
  len : Nat := 0
  seq : Nat := 0
  owner : Nat := 0
  expect : Nat := 0
  period : Nat := 0
  deriving DecidableEq, Repr

/-- A Whipping compare unit (R191, R378): `checking` lists the check that runs and those that wait, each with the seal it
recomputes in mode 2. -/
structure Whip where
  cfg : WhipCfg := {}
  next : Option WhipCfg := none
  checking : List (Option Seal) := []
  waited : Nat := 0
  stopped : Bool := false
  value : Nat := 0
  checks : Nat := 0
  mismatches : Nat := 0
  abandoned : Nat := 0
  deriving DecidableEq, Repr

/-- BOUND_VOID bookkeeping (R11, R196): sources void now, conditions of R9 failing now, and conditions that failed
at or after the latest wall line 0. -/
structure Bound where
  void : List Nat := []
  failing : List Nat := []
  recent : List Nat := []
  deriving DecidableEq, Repr

/-- The Stopper and the check-value units. -/
structure Stop where
  policy : Tab (List PolicyEntry) := []
  marksNow : Tab (List Marker) := []
  marksLast : Tab (List Marker) := []
  tileFail : List (Nat × Nat) := []
  crcFail : List (Nat × Nat) := []
  captions : Tab Caption := []
  units : Tab StopUnit := []
  sigs : Tab SigUnit := []
  whips : Tab Whip := []
  bound : Bound := {}
  deriving DecidableEq, Repr

/-! ### Heads (R198 to R214) -/

/-- What a head's transmitter sends (R53, R190, R207). -/
inductive Emission where
  | off | training | idle | starting | dead | live | abort
  deriving DecidableEq, Repr

/-- An AUX job of a head (R209 to R211): reading link status after IRQ_HPD, reading capabilities, or training. -/
inductive AuxJob where
  | linkStatus | capabilities | train
  deriving DecidableEq, Repr

/-- The main stream attributes that a head frame carries (R198, R199, R203, R208): polarities, totals, starts, widths, the depth,
whether a VSC SDP signals BT.2020 and MISC1 points to it, and Mvid and Nvid or the stream frequency in Hz. -/
structure Msa where
  hPol : Nat := 0
  vPol : Nat := 0
  hTotal : Nat := 0
  vTotal : Nat := 0
  hStart : Nat := 0
  vStart : Nat := 0
  hSync : Nat := 0
  vSync : Nat := 0
  hActive : Nat := 0
  vActive : Nat := 0
  bpc : Nat := 10
  vscSdp : Bool := false
  misc1Vsc : Bool := false
  mvid : Nat := 0
  nvid : Nat := 0
  streamHz : Nat := 0
  deriving DecidableEq, Repr

/-- The phases of link training (R208): 8b/10b clock recovery and channel equalisation, 128b/132b LANE EQ and CDS. -/
inductive TrainPhase where
  | clockRecovery | channelEq | laneEq | cds
  deriving DecidableEq, Repr

/-- How a link was trained (R208, R331): whether with 128b/132b coding, whose FEC is always on, its repeaters, the phases on each of
them (numbered from 1) and then on the sink (0), the TX FFE preset of each lane, and whether the link is down-spread. -/
structure Trained where
  coding128 : Bool := false
  fec : Bool := false
  repeaters : Nat := 0
  phases : List (Nat × TrainPhase) := []
  presets : List Nat := []
  spread : Bool := false
  deriving DecidableEq, Repr

/-- One head. `startPos` is the wall position at which its latest head frame began; `idle` says that it sends the
DisplayPort idle pattern until its next head frame start (R207). `fetched` and `urgent` list band rows by the key of
`bandKey`; `boundRows` the tile rows that bound without a miss, by the key of `boundKey`; `emitted` counts the band rows of
the head frame that have left. `lit` holds the 30-bit lines of the latest band row, `litAt` the TIME tick at which the first of them left,
and `litAbort` says that they carry the abort colour and are not yet counted. `aux` lists the AUX jobs, the one under way first, with
their retries; `strobe`, `phase` and `phaseAt` are the pixel strobe's increment and its phase at a tick (R201). -/
structure HeadRt where
  state : HeadState := .down
  idle : Bool := false
  n : Nat := 0
  frame : Nat := 0
  half : Nat := 0
  startPos : Option Nat := none
  begunLive : Bool := false
  begunDead : Bool := false
  hpd : Bool := false
  hpdWasLow : Bool := true
  attempts : Nat := 0
  attempting : Bool := false
  rate : Nat := 0xFF
  lanes : Nat := 0
  fetched : List Nat := []
  urgent : List Nat := []
  emitted : Nat := 0
  allInTime : Bool := false
  boundRows : List Nat := []
  abortedNow : Bool := false
  aux : List (AuxJob × Nat) := []
  dpcdStatus : List Byte := []
  dpcdCaps : List Byte := []
  lttpr : List Byte := []
  edid : List Byte := []
  cfg : HeadCfg := {}
  glassBand : Nat := 0
  lit : List (List (Nat × Nat × Nat)) := []
  litAt : Nat := 0
  litAbort : Bool := false
  msa : Option Msa := none
  trained : Option Trained := none
  strobe : Nat := 0
  phase : Nat := 0
  phaseAt : Nat := 0
  deriving DecidableEq, Repr

/-! ### Points and overlay (R215 to R231) -/

/-- A point flow's datagram sequence state (R219). -/
structure PointFlowRt where
  started : Bool := false
  highest : Nat := 0
  accepted : List Nat := []
  deriving DecidableEq, Repr

/-- An overlay seal's head frame and version (R228). -/
structure OvlSeal where
  seq : Nat
  frame : Nat
  half : Nat
  tag : Nat
  deriving DecidableEq, Repr

/-- A surface that the overlay engine draws (R226, R227): its head frame, the version in force, T_DRAW, its buffer, and
whether its window has ended. -/
structure OvlDraw where
  frame : Nat
  half : Nat
  tag : Nat
  at_ : Nat
  buf : Nat
  late : Bool := false
  deriving DecidableEq, Repr

/-- One head's overlay: the surfaces under way, oldest first, and the latest seals (R226 to R228). -/
structure OverlayRt where
  drawing : List OvlDraw := []
  seals : List OvlSeal := []
  deriving DecidableEq, Repr

/-- Point table, point flows and overlays. -/
structure Points where
  table : Tab PointEntry := []
  flows : Tab PointFlowRt := []
  overlays : Tab OverlayRt := []
  deriving DecidableEq, Repr

/-! ### Encoding and launch (R232 to R252) -/

/-- Encode context states (R234). -/
inductive EncState where
  | idle | starting | running | suspended
  deriving DecidableEq, Repr

/-- The code of an encode context state (R372). -/
def EncState.code : EncState → Nat
  | .idle => 0 | .starting => 1 | .running => 2 | .suspended => 3

/-- A part of a picture that the encoder has read and judged (R236, R237): its place, and its pixels with whether each took a
marker. -/
structure EncPart where
  x : Nat := 0
  y : Nat := 0
  lines : List (List ((Nat × Nat × Nat) × Bool)) := []
  deriving DecidableEq, Repr

/-- How the CTUs of a coded row are coded (R239, R243, R245): the columns that are intra, those that are skip, how many columns from the
left are clean, whose blocks are predicted from clean columns only, and the QP. -/
structure RowModes where
  row : Nat := 0
  intra : List Nat := []
  skip : List Nat := []
  clean : Nat := 0
  qp : Int := 0
  deriving DecidableEq, Repr

/-- A picture being encoded (R236 to R246). `start` is the wall position of its start and `rate` the wall rate then; `intra`
lists the (row, column) pairs of refresh carried into it (R245), `skipped` its skip-only rows; `luma`, `cb` and `cr` are the
sample lines that its rows have coded. -/
structure EncPic where
  start : Nat := 0
  rate : Nat := 9
  row : Nat := 0
  spent : Nat := 0
  budget : Nat := 0
  floor : Bool := false
  skipAll : Bool := false
  skipped : List Nat := []
  intra : List (Nat × Nat) := []
  tilesRead : List (Nat × Nat) := []
  parts : List EncPart := []
  minCapture : Option Nat := none
  idr : Bool := false
  sizes : List (Nat × Int) := []
  bytes : List Byte := []
  luma : List (List Nat) := []
  cb : List (List Nat) := []
  cr : List (List Nat) := []
  modes : List RowModes := []
  deriving DecidableEq, Repr

/-- Where a packet goes, as its Ethernet, IP and UDP headers say (R232, R248). -/
structure Addressing where
  dst : Nat := 0
  dstPort : Nat := 0
  srcPort : Nat := 0
  vlan : Nat := 0xFFFF
  dscp : Nat := 0
  ttl : Nat := 0
  deriving DecidableEq, Repr

/-- A packet waiting for its launch (R247 to R249): context, path, launch time in wall ns, RTP payload, bytes on the wire, RTP header
fields, and when it was queued. -/
structure LaunchEntry where
  ctx : Nat
  second : Bool := false
  at_ : Nat
  payload : List Byte
  len : Nat
  rtpSeq : Nat
  rtpTs : Nat
  marker : Bool
  pt : Nat := 96
  ssrc : Nat := 0
  addr : Addressing := {}
  queuedAt : Nat
  deriving DecidableEq, Repr

/-- What the parameter sets of a stream signal (R232, R238, R241): profile, level, size, matrix, cbr_flag, bit rate and buffer size. -/
structure StreamParams where
  codec : Nat := 0
  level : Nat := 0
  width : Nat := 0
  height : Nat := 0
  matrix : Nat := 0
  cbr : Bool := true
  bitRate : Nat := 0
  cpbBits : Nat := 0
  deriving DecidableEq, Repr

/-- One encode context. `k` is the refresh position of its next picture, ENC_REFRESH_N while the cycle's end is put off, `delay` by how
many pictures it is; `streamPics` counts the pictures of the stream, and `signalled` is what its latest parameter sets say; `bucket` is
E of R241 in 1/600,000 bit; `carried` lists the refresh due as (row, column). -/
structure EncRt where
  state : EncState := .idle
  engine : Option Nat := none
  pic : Option EncPic := none
  k : Nat := 0
  delay : Nat := 0
  picCount : Nat := 0
  streamPics : Nat := 0
  bucket : Nat := 0
  prevRows : List (Nat × Int) := []
  carried : List (Nat × Nat) := []
  restart : Bool := false
  nextSeq : Option Nat := none
  seals : List Seal := []
  rtpSeq : Nat := 0
  signalled : Option StreamParams := none
  tag : Nat := 0
  cfg : EncoderCfg := {}
  deriving DecidableEq, Repr

/-- The encoders and the MACs' launch queues. `coding` gives the context whose row each engine is coding, plus 1 (R233). -/
structure Encode where
  ctxs : Tab EncRt := []
  coding : Tab Nat := []
  queues : Tab (List LaunchEntry) := []
  wireUntil : Tab Nat := []
  deriving DecidableEq, Repr

/-! ### Touch (R268 to R289) -/

/-- Desk states (R287). -/
inductive DeskState where
  | off | linkDown | starting | active | fault
  deriving DecidableEq, Repr

/-- The code of a desk state (R287). -/
def DeskState.code : DeskState → Nat
  | .off => 0 | .linkDown => 1 | .starting => 2 | .active => 3 | .fault => 4

/-- One node (R273, R282, R284): its last five values (newest first), the filtered value, the tracked and the stored baseline,
and the frames it still has to stay below the release threshold before a freeze of start ends. -/
structure Node where
  ms : List Int := []
  y : Int := 0
  b : Int := 0
  b0 : Int := 0
  frozen : Nat := 0
  deriving DecidableEq, Repr

/-- A held-object mask (R285): the nodes that held the object, the masked nodes, and the frames for which the former have
all been below the release threshold. -/
structure Mask where
  core : List Nat := []
  nodes : List Nat := []
  clear : Nat := 0
  deriving DecidableEq, Repr

/-- A contact or hover (R277, R278). Positions and the last movement in 1/256 pitch; `node` is its peak, `downAt` the start
of the frame of its DOWN. -/
structure Contact where
  id : Nat
  x : Int
  y : Int
  dx : Int := 0
  dy : Int := 0
  hover : Bool := false
  downAt : Nat := 0
  node : Nat := 0
  z : Nat := 0
  deriving DecidableEq, Repr

/-- A touch report (R279). -/
structure TouchReport where
  type : Nat
  desk : Nat
  id : Nat := 0
  targetStale : Bool := false
  atStart : Bool := false
  glove : Bool := false
  frame : Nat := 0
  time : Nat := 0
  sx : Nat := 0
  sy : Nat := 0
  hx : Nat := 0xFFFF
  hy : Nat := 0xFFFF
  head : Nat := 0
  marks : List Marker := []
  notLive : Bool := false
  window : Nat := 0xFFFF
  wx : Nat := 0xFFFF
  wy : Nat := 0xFFFF
  area : Nat := 0
  strength : Int := 0
  z : Nat := 0
  status : Nat := 0
  duration : Nat := 0
  seq : Nat := 0
  stamp : Nat := 0
  deriving DecidableEq, Repr

/-- One console desk. `noise` holds the noise measured on other plans in the last 16 frames, newest first, `scan` the plan
measured beside the current one last. `baseOp` is a save under way: its command, the frames left, and the values so far;
`baseWrite` a flash write under way: its command, the offsets and the clamps. -/
structure DeskRt where
  state : DeskState := .off
  locked : Bool := false
  restarts : Nat := 0
  frame : Nat := 0
  frameStart : Nat := 0
  inFrame : Bool := false
  slotParity : Bool := false
  bad : Bool := false
  discardRun : Nat := 0
  info : HeadInfo := {}
  plan : Nat := 0
  noise : List (Nat × Nat) := []
  scan : Nat := 0
  noisyRun : Nat := 0
  hopTo : Option Nat := none
  nodes : List Node := []
  contacts : List Contact := []
  lastId : Nat := 0
  masks : List Mask := []
  held : List TouchReport := []
  reportSeq : Nat := 0
  sampleCount : Nat := 0
  baseOp : Option (CmdHdr × Nat × List (List Int)) := none
  baseWrite : Option (CmdHdr × List Int × Nat) := none
  messages : List Nat := []
  cfg : DeskCfg := {}
  deriving DecidableEq, Repr

/-! ### Memory (R290 to R315) -/

/-- One memory channel (R306 to R312). -/
structure MemChannel where
  refreshes : Nat := 0
  occ : Nat := 0
  hotRun : Nat := 0
  coolRun : Nat := 64
  judged : Bool := true
  promoted : Nat := 0
  scrubNext : Nat := 0
  deriving DecidableEq, Repr

/-- A regulator bucket and the requests it holds back (R304): tokens in 1/500 byte, the sizes of requests held, oldest first,
and the tick of the latest refill. -/
structure Bucket where
  tokens : Nat := 131072000
  held : List Nat := []
  stamp : Nat := 0
  deriving DecidableEq, Repr

/-- Sheave. `high` is the temperature state that MR4 gives, `fast` the refresh interval in force, and `baseSince` the tick
since which every device has asked for the base rate (R308). `bytes` is memory in the canonical form of a sparse table whose unlisted bytes read 0. -/
structure Mem where
  grain : Nat := 3
  hash : Bool := true
  checkInit : Bool := true
  bytes : Tab Byte := []
  high : Bool := false
  fast : Bool := false
  baseSince : Option Nat := none
  chans : Tab MemChannel := []
  buckets : Tab Bucket := []
  retrain : List Nat := []
  retrainFrame : Option Nat := none
  trained : Bool := false
  deriving DecidableEq, Repr

/-! ### Lanes (R316 to R335) -/

/-- A quad's PLL (R318, R333). -/
inductive PllState where
  | off | locking | locked | lost
  deriving DecidableEq, Repr

/-- What a lane's receiver takes its data from (R330): its pins, its own transmit PCS, or its own serial transmit data. -/
inductive LaneFeed where
  | pins | ownPcs | ownSerial
  deriving DecidableEq, Repr

/-- What a lane's transmitter drives its pins with (R326, R330): nothing, its user's data, a test pattern, or the received data. -/
inductive LaneDrive where
  | off | user | pattern (sel : Nat) (inverted : Bool) | received
  deriving DecidableEq, Repr

/-- One lane: Rest and its test registers (R323 to R330). `feed` and `drive` are the paths that LOOPBACK and GEN_EN give it. -/
structure LaneRt where
  rest : Bool := false
  restSince : Nat := 0
  longNext : Bool := false
  ctrl : BitVec 32 := 0
  chkLocked : Bool := false
  cdrLocked : Bool := false
  burstUi : Nat := 0
  injected : Nat := 0
  feed : LaneFeed := .pins
  drive : LaneDrive := .user
  deriving DecidableEq, Repr

/-- The lanes. -/
structure Lanes where
  pll : Tab PllState := []
  lanes : Tab LaneRt := []
  deriving DecidableEq, Repr

/-! ### Access control, debug, faults (R386 to R416) -/

/-- TAP instructions (R396). -/
inductive TapInstr where
  | extest | samplePreload | idcode | clamp | highz | dbgAccess | dbgTrace | dbgHalt | bypass
  deriving DecidableEq, Repr

/-- The debug port (R396 to R398). -/
structure Debug where
  ir : TapInstr := .idcode
  pinDrive : Option TapInstr := none
  scan : List Bool := []
  sticky : Bool := false
  data : List Byte := []
  trace : Option (Nat × Nat) := none
  halted : List Nat := []
  deriving DecidableEq, Repr

/-- One fault source (R402, R408): its count, its mask in force and the next one, the wall frame of its latest FAULT event, and whether a
firing of that frame waits to be told. -/
structure FaultSrc where
  count : Nat := 0
  mask : Option Nat := none
  next : Option Nat := none
  evtFrame : Option Nat := none
  evtDue : Bool := false
  deriving DecidableEq, Repr

/-- The fault collector and Bowline's watchdogs (R400 to R416): counts and masks, first-error records, classes that hold FAULT_N,
recent firings of escalating sources, fenced units with their strikes, tests that run (and whether the unit's source has been
quiet since), tests passed, processors whose block restarts, their WDOG firings, and the tick of each one's latest watchdog
write. -/
structure Faults where
  srcs : Tab FaultSrc := []
  first : Tab FirstErr := []
  latchClasses : List Nat := []
  recent : List (Nat × Nat) := []
  fenced : List Nat := []
  strikes : List (Nat × Nat) := []
  untilReset : List Nat := []
  tests : List (Nat × Bool) := []
  passedTests : List Nat := []
  restarting : List Nat := []
  wdogs : List (Nat × Nat) := []
  kicks : Tab Nat := []
  deriving DecidableEq, Repr

/-- A downstream message of a Thimble link (R270): the sample count to load; a slot's first sample count, drive electrodes, plan, gain,
level and integration length in µs; a read of the info memory. -/
inductive ThimbleMsg where
  | align (count : Nat)
  | slot (first : Nat) (drives : List Nat) (plan gain level window : Nat)
  | read (addr len : Nat)
  deriving DecidableEq, Repr

/-- What has left the device, newest first: replies, MSI-X messages, network frames, AUX requests, touch reports,
UART discards. The statements about a command's reply read it here. -/
structure Out where
  replies : List Reply := []
  events : List Event := []
  hostWrites : List (Nat × List Byte) := []
  uartSent : List (List Byte) := []
  flash : List (Nat × List Byte) := []
  msix : List Nat := []
  net : List (Nat × Nat × List Nat) := []
  touch : List TouchReport := []
  touchMade : Nat := 0
  aux : List (Nat × Nat) := []
  auxWrites : List (Nat × Nat × Nat) := []
  dprxAux : List (Nat × List Byte) := []
  bursts : List (Nat × Nat) := []
  thimble : List (Nat × ThimbleMsg) := []
  pulses : List (Nat × Bool) := []
  launches : List (Nat × LaunchEntry) := []
  deriving DecidableEq, Repr

end Sys2Proof.Machine
end

