-- ==== Sys2Proof/Machine/Replies.lean ====
section
/-! DEFINITION. The byte layouts of what the device writes: events, first-error records, the summary snapshot, seals, tile
provenance records, point records, touch reports, objects as OBJECT_READ returns them, replies, and the framing of ring slots and
of the service UART. -/

namespace Sys2Proof.Machine

open Sys2Proof

/-! ### Fields -/

/-- 1 for true. -/
def bitOf (b : Bool) : Nat := if b then 1 else 0

/-- A number with the bits of a list set. -/
def bitsOf (l : List Nat) : Nat := l.foldl (fun a b => a ||| 2 ^ b) 0

/-- A signed number in the two's complement form of a 64-bit field (R339). -/
def u64 (i : Int) : Nat := (i % 18446744073709551616).toNat

/-- The two's complement of a signed field of `n` bytes (R339). -/
def leInt (n : Nat) (i : Int) : List Byte := leBytes n (i % (2 ^ (8 * n) : Nat)).toNat

/-- A byte string of `n` bytes kept in wire order (R339). -/
def wire (n v : Nat) : List Byte := (leBytes n v).reverse

/-- A byte string cut or filled with zeros to `n` bytes. -/
def padTo (n : Nat) (bs : List Byte) : List Byte := (bs ++ List.replicate n 0#8).take n

/-- Reserved bytes (R20). -/
def zeroBytes (n : Nat) : List Byte := List.replicate n 0#8

/-! ### Records -/

/-- An event record's 32 bytes (R59). -/
def eventBytes (e : Event) : List Byte :=
  leBytes 8 e.seq ++ leBytes 8 e.frame ++ leBytes 2 e.line ++ leBytes 2 e.code ++ leBytes 4 e.subject ++ leBytes 8 e.data

/-- A first-error record's 32 bytes (R407). -/
def firstErrBytes (r : FirstErr) : List Byte :=
  leBytes 2 r.source ++ leBytes 1 r.master ++ leBytes 1 r.type ++ leBytes 2 r.length ++ leBytes 2 r.unit ++ leBytes 8 r.addr ++
    leBytes 8 r.sec ++ leBytes 4 r.ns ++ leBytes 2 r.subject ++ leBytes 1 (bitOf r.valid + 2 * bitOf r.overflow) ++ leBytes 1 0

/-- SEAL_FLAGS as a word (R108): bit 0 CONCEALED, 1 FROZEN_CONTENT, 2 REPEATED, 3 PARTIAL, 4 HOST, [7:5] CAPT_SRC. -/
def sealFlags (x : Seal) : Nat :=
  (if x.concealed then 1 else 0) + (if x.frozen then 2 else 0) + (if x.repeated then 4 else 0) + (if x.part then 8 else 0) +
    (if x.host then 16 else 0) + 32 * x.captSrc

/-- A seal's 64 bytes (R108). -/
def sealBytes (x : Seal) : List Byte :=
  leBytes 2 x.source ++ leBytes 2 (sealFlags x) ++ leBytes 4 x.seq ++ leBytes 8 x.capture ++ leBytes 8 x.arrival ++ leBytes 8 x.sealTime ++
    leBytes 8 x.bufAddr ++ leBytes 4 x.payloadCrc.toNat ++ leBytes 4 x.contentCrc.toNat ++ leBytes 2 x.width ++ leBytes 2 x.height ++
    leBytes 2 x.pitch ++ leBytes 1 x.format ++ leBytes 1 x.fraction ++ leBytes 2 x.origin ++ leBytes 2 x.frozenRun ++ leBytes 1 x.cls ++
    zeroBytes 3

/-- C_FLAGS of a contributor entry (R161). -/
def contribFlags (c : Contrib) : Nat :=
  bitOf c.concealed + 2 * bitOf c.frozen + 4 * bitOf c.repeated + 8 * bitOf c.noSeal + 16 * bitOf c.background

/-- A contributor entry's 20 bytes (R161). -/
def contribBytes (c : Contrib) : List Byte :=
  leBytes 2 c.source ++ leBytes 2 c.window ++ leBytes 4 c.seq ++ leBytes 8 c.capture ++ leBytes 1 (contribFlags c) ++ leBytes 1 c.fraction ++
    leBytes 1 (bitsOf c.under) ++ leBytes 1 c.cls

/-- A tile provenance record's 128 bytes (R161). Entries that the record does not use have C_SOURCE and C_WINDOW 0xFFFF. -/
def tprBytes (t : Tpr) : List Byte :=
  (List.range 8).flatMap (fun b => leBytes 4 (t.bandCrc.getD b 0).toNat) ++ (List.range 4).flatMap (fun k => contribBytes (t.contribs.getD k {})) ++
    leBytes 8 t.wallFrame ++ leBytes 1 t.head ++ leBytes 1 t.half ++ leBytes 1 t.col ++ leBytes 1 t.row ++
    leBytes 1 (bitOf t.unchecked + 2 * bitOf t.reworked + 4 * t.holder) ++ zeroBytes 3

/-- A point record's 16 bytes (R215). -/
def pointBytes (p : PointEntry) : List Byte := leBytes 4 p.value ++ leBytes 2 p.flags ++ leBytes 2 p.seq ++ leBytes 8 p.time

/-- An offset sample's 40 bytes (R377). -/
def sampleBytes (x : Sample) : List Byte :=
  leBytes 4 x.seq ++ leBytes 2 x.syncId ++ zeroBytes 2 ++ wire 8 x.gm ++ leInt 8 x.t2 ++ leInt 8 x.offset ++ leInt 8 x.delay

/-- A pulse input's record of 32 bytes (R377). -/
def tpiBytes (r : TpiRec) : List Byte :=
  leBytes 1 (bitOf r.falling) ++ zeroBytes 7 ++ leBytes 8 r.td0 ++ leBytes 8 r.td1 ++ leBytes 8 r.wall

/-- The bit of TR_MARKS that reports a marker (R279). -/
def Marker.reportBit : Marker → Nat
  | .stale => 0
  | .dead => 1
  | .concealed => 2
  | .frozen => 3
  | .unverified => 4

/-- A touch report's 64 bytes (R279). -/
def touchBytes (r : TouchReport) : List Byte :=
  leBytes 1 r.type ++ leBytes 1 r.desk ++ leBytes 1 r.id ++
    leBytes 1 (bitOf r.targetStale + 2 * bitOf r.atStart + 4 * bitOf r.glove) ++ leBytes 4 r.frame ++ leBytes 8 r.time ++ leBytes 2 r.sx ++
    leBytes 2 r.sy ++ leBytes 2 r.hx ++ leBytes 2 r.hy ++ leBytes 1 r.head ++
    leBytes 1 (bitsOf (r.marks.map Marker.reportBit) + 128 * bitOf r.notLive) ++ leBytes 2 r.window ++ leBytes 2 r.wx ++
    leBytes 2 r.wy ++ leBytes 2 r.area ++ leInt 2 r.strength ++ leBytes 2 r.z ++ leBytes 2 r.status ++ leBytes 4 r.duration ++
    leBytes 4 r.seq ++ zeroBytes 16

/-! ### The summary snapshot (R63) -/

/-- SUM_HEAD of one head, with its three counts (R63). -/
def snapHeadBytes (h : SnapHead) (n : Nat × Nat × Nat) : List Byte :=
  leBytes 1 h.state ++ leBytes 1 (bitOf h.hpd + 2 * bitOf h.fenced + 4 * bitOf h.ribbon) ++ leBytes 1 h.lanes ++ leBytes 1 0 ++
    leBytes 4 n.1 ++ leBytes 4 n.2.1 ++ leBytes 4 n.2.2

/-- SUM_TXN of one transaction (R63). -/
def snapTxnBytes (t : SnapTxn) : List Byte := leBytes 4 t.id ++ leBytes 2 t.staged ++ leBytes 2 t.channel ++ leBytes 8 t.lastFrame

/-- SUM_TD of one domain (R63). The grandmaster identity stands in wire order (R339). -/
def snapTdBytes (t : SnapTd) : List Byte :=
  leBytes 1 t.status ++ leBytes 1 (bitOf t.active) ++ leBytes 6 0 ++ wire 8 t.gm ++ leInt 8 t.offset ++ leBytes 8 t.syncAgeUs

/-- A snapshot's 2,560 bytes (R63). -/
def snapBytes (x : Snapshot) : List Byte :=
  let k := x.core
  leBytes 8 x.generation ++ leBytes 8 x.wallFrame ++ leBytes 2 x.wallLine ++ leBytes 1 k.devState ++
  leBytes 1 (bitOf k.boundVoidAny + 2 * bitOf k.singleStrand + 4 * bitOf k.reserveOn + 8 * bitOf k.fieldLocked) ++
  leBytes 4 k.bootId ++ leBytes 4 k.startCount ++ leBytes 4 k.committedTxn ++ leBytes 8 k.committedFrame ++ leBytes 4 k.scheduledTxn ++
  leBytes 4 0 ++ leBytes 8 k.scheduledFrame ++ leBytes 8 0 ++
  (List.range 32).flatMap (fun h => snapHeadBytes (k.heads.getD h {}) (x.headCounts.getD h (0, 0, 0))) ++
  (List.range 8).flatMap (fun i => snapTxnBytes (k.txns.getD i {})) ++
  leBytes 16 (bitsOf k.fenced) ++ leBytes 4 k.boundCond ++ leBytes 4 k.boundVoid.length ++ leBytes 128 (bitsOf k.boundVoid) ++
  (List.range 2).flatMap (fun d => snapTdBytes (k.tds.getD d {})) ++
  (List.range 3).flatMap (fun c => firstErrBytes (k.firstErr.getD c {})) ++ leBytes 8 0 ++
  (List.range 256).flatMap (fun i => leBytes 4 (x.faultCounts.get 0 i)) ++
  (List.range 64).flatMap (fun j => leBytes 8 (x.evtSeqs.getD j 0))

/-! ### Objects, as their staging commands carry them (R350 to R368, R369) -/

/-- The body of STAGE_DEVICE (R352). -/
def deviceBytes (c : DeviceCfg) : List Byte :=
  leBytes 1 c.wallRate ++ leBytes 1 c.alarmEngine ++ leBytes 1 c.strandPref ++ leBytes 1 c.tdFailover ++ leBytes 4 c.tdSwitchMaxNs ++
    leBytes 1 c.tdSlewPpm ++ leBytes 1 c.memReserve ++ leBytes 1 c.memRebase ++ zeroBytes 1 ++ leBytes 2 c.txnIdleS ++ zeroBytes 2

/-- The body of STAGE_SOURCE (R353). -/
def sourceBody (c : SourceCfg) : List Byte :=
  leBytes 1 c.kind ++ leBytes 1 c.cls ++ leBytes 1 c.buffers ++ zeroBytes 1 ++ leBytes 2 c.origin ++ leBytes 2 c.frozenN ++
    leBytes 2 c.surfWidth ++ leBytes 2 c.surfHeight ++ leBytes 1 c.surfFormat ++ zeroBytes 3

/-- The body of STAGE_FLOW (R354). -/
def flowBytes (c : FlowCfg) : List Byte :=
  leBytes 1 (bitOf c.enable) ++ leBytes 1 c.type ++ leBytes 1 c.mac ++ leBytes 1 c.tsMode ++ leBytes 2 c.vlan ++ leBytes 2 c.dstPort ++
    leBytes 2 c.pair ++ leBytes 1 (bitOf c.srcAny + 2 * bitOf c.ssrcAny) ++ zeroBytes 1 ++ wire 16 c.dstAddr ++ wire 16 c.srcAddr ++
    leBytes 4 c.ssrc ++ leBytes 4 c.pdMaxUs ++ leInt 4 c.captOffset ++ leBytes 2 c.target ++ zeroBytes 2 ++ leBytes 4 c.pfIndexBase ++
    leBytes 4 c.pfIndexCount ++ leBytes 1 c.pfTimeMode ++ leBytes 1 c.sampling ++ leBytes 1 c.packing ++ leBytes 1 c.sender ++
    leBytes 2 c.width ++ leBytes 2 c.height ++ leBytes 4 c.rateNum ++ leBytes 4 c.rateDen

/-- The body of STAGE_MAC (R355). -/
def macBytes (c : MacCfg) : List Byte :=
  leBytes 1 c.lane ++ leBytes 1 (bitOf c.enable) ++ wire 6 c.addr ++ wire 4 c.ipv4 ++ leBytes 1 c.ipv4Prefix ++ leBytes 1 c.ipv6Prefix ++
    zeroBytes 2 ++ wire 16 c.ipv6

/-- The body of STAGE_DPRX (R356). -/
def dprxBytes (c : DprxCfg) : List Byte :=
  leBytes 1 (bitOf c.enable) ++ leBytes 1 c.lane0 ++ leBytes 1 c.lanes ++ zeroBytes 1 ++ leBytes 2 c.edidLen ++ zeroBytes 2 ++ padTo 512 c.edid

/-- The body of STAGE_CONTEXT (R357). -/
def contextBytes (c : ContextCfg) : List Byte :=
  leBytes 1 (bitOf c.enable) ++ leBytes 1 c.codec ++ leBytes 1 c.maxLevel ++ leBytes 1 c.extraBufs ++ leBytes 2 c.source ++
    leBytes 2 c.maxWidth ++ leBytes 2 c.maxHeight ++ leBytes 1 c.outDepth ++ leBytes 1 c.outScale ++ leBytes 1 c.backlogMax ++ zeroBytes 1 ++
    leBytes 2 c.paramSets.length ++ padTo 1024 c.paramSets

/-- The body of STAGE_HEAD (R358). -/
def headBytes (c : HeadCfg) : List Byte :=
  leBytes 1 (bitOf c.enable) ++ leBytes 1 c.mult ++ leBytes 2 c.phase ++ leBytes 2 c.hActive ++ leBytes 2 c.hFp ++ leBytes 2 c.hSync ++
    leBytes 2 c.hBp ++ leBytes 2 c.vActive ++ leBytes 2 c.vFp ++ leBytes 1 c.vSync ++ leBytes 1 (c.hPol + 2 * c.vPol) ++ leBytes 2 c.vBp ++
    leBytes 1 c.bpc ++ leBytes 1 c.cspace ++ leBytes 1 c.linkRate ++ leBytes 1 c.lanes ++ leBytes 1 c.lane0 ++ leBytes 1 c.urgentLines ++
    leBytes 1 c.lBegin ++ leBytes 1 c.lBind ++ leBytes 4 c.bg ++ leBytes 1 c.overlay ++ leBytes 1 c.ribbon ++ zeroBytes 2

/-- The body of STAGE_WINDOW (R359). -/
def windowBytes (c : WindowCfg) : List Byte :=
  leBytes 1 (bitOf c.enable) ++ leBytes 1 c.head ++ leBytes 1 c.layer ++ leBytes 1 c.blend ++ leBytes 2 c.source ++ leBytes 2 c.alpha ++
    leInt 2 c.dstX ++ leInt 2 c.dstY ++ leBytes 2 c.dstW ++ leBytes 2 c.dstH ++ leBytes 2 c.srcX ++ leBytes 2 c.srcY ++ leBytes 2 c.srcW ++
    leBytes 2 c.srcH ++ leBytes 4 c.key ++ leBytes 4 c.fill ++ leBytes 1 c.matrix ++ leBytes 1 c.range ++ leBytes 1 c.siting ++
    leBytes 1 c.filter ++ leBytes 4 c.staleMs ++ leBytes 4 c.deadMs ++ leBytes 4 c.freezeMs ++ leBytes 1 c.caption ++
    leBytes 1 c.captionCorner ++ leBytes 1 c.captionScale ++ zeroBytes 1

/-- One region of an encode context (R360). -/
def regionBytes (c : RegionCfg) : List Byte :=
  leBytes 1 (bitOf c.enable) ++ leBytes 1 c.head ++ leBytes 1 c.scale ++ zeroBytes 1 ++ leBytes 2 c.x ++ leBytes 2 c.y ++ leBytes 2 c.w ++
    leBytes 2 c.h ++ leBytes 2 c.px ++ leBytes 2 c.py

/-- The body of STAGE_ENCODER (R360). -/
def encoderBytes (c : EncoderCfg) : List Byte :=
  leBytes 1 (bitOf c.enable) ++ leBytes 1 c.codec ++ leBytes 1 c.level ++ leBytes 1 c.rc ++ leBytes 2 c.width ++ leBytes 2 c.height ++
    leBytes 4 c.fill ++ leBytes 1 c.matrix ++ leBytes 1 c.div ++ leBytes 2 c.startLine ++ leBytes 1 c.refreshN ++ leInt 1 c.qpMin ++
    leInt 1 c.qpMax ++ leBytes 1 c.cls ++ leBytes 4 c.rate ++ leBytes 4 c.maxRate ++ leBytes 4 c.hrdBits ++ leBytes 2 c.mtu ++ leBytes 1 c.mac ++
    leBytes 1 c.mac2 ++ wire 16 c.dstAddr ++ wire 16 c.dstAddr2 ++ leBytes 2 c.dstPort ++ leBytes 2 c.srcPort ++ leBytes 2 c.vlan ++
    leBytes 1 c.dscp ++ leBytes 1 c.ttl ++ leBytes 1 c.pt ++ zeroBytes 3 ++ leBytes 4 c.ssrc ++
    (List.range 16).flatMap (fun k => regionBytes (c.regions.getD k {}))

/-- One glyph instance (R222). -/
def glyphBytes (c : GlyphCfg) : List Byte :=
  leBytes 4 (c.point + 8388608 * bitOf c.enable + 16777216 * c.nth) ++ leBytes 2 c.x ++ leBytes 2 c.y ++ leBytes 1 c.head ++ leBytes 1 c.set ++
    leBytes 1 (c.kind + 4 * c.decimals) ++ leBytes 1 c.digits ++ padTo 16 (c.thresh.flatMap (leBytes 4)) ++ leBytes 2 c.staleMs ++ zeroBytes 2

/-- The body of STAGE_GLYPH_SET (R362). -/
def glyphSetBytes (c : GlyphSetCfg) : List Byte :=
  leBytes 1 c.cellW ++ leBytes 1 c.cellH ++ leBytes 2 c.digitBase ++ padTo 10 (c.bandGlyph.flatMap (leBytes 2)) ++
    padTo 5 (c.bandColour.flatMap (leBytes 1)) ++ zeroBytes 1

/-- The body of STAGE_SCALER (R362). -/
def scalerBytes (c : ScalerCfg) : List Byte :=
  padTo 1024 (c.horiz.flatMap (fun p => p.flatMap (leInt 2))) ++ padTo 768 (c.vert.flatMap (fun p => p.flatMap (leInt 2)))

/-- The body of STAGE_DESK (R363). -/
def deskBytes (c : DeskCfg) : List Byte :=
  leBytes 1 (bitOf c.enable) ++ leBytes 1 c.lane ++ leBytes 1 c.driveN ++ leBytes 1 c.senseN ++ leBytes 1 c.mode ++ leBytes 1 c.driveLevel ++
    leBytes 2 c.plans ++ leBytes 1 c.head ++ leBytes 1 c.driftShift ++ leBytes 1 c.maxContacts ++ zeroBytes 1 ++ leBytes 2 c.filtK ++
    leBytes 2 c.matchRadius ++ leBytes 2 c.touchThresh ++ leBytes 2 c.hoverThresh ++ leBytes 2 c.presenceThresh ++ leBytes 2 c.antiThresh ++
    leBytes 2 c.driftMax ++ leBytes 2 c.holdLimitS ++ leInt 4 c.mapA ++ leInt 4 c.mapB ++ leInt 4 c.mapC ++ leInt 4 c.mapD ++ leInt 4 c.mapE ++
    leInt 4 c.mapF

/-- The body of STAGE_QUAD (R364). -/
def quadBytes (c : QuadCfg) : List Byte :=
  leBytes 1 c.mode ++ leBytes 1 c.ethRate ++ leBytes 1 c.ethFec ++ leBytes 1 c.ssc ++ leBytes 1 c.laneInv ++ zeroBytes 3 ++
    padTo 8 (c.swing.flatMap (leBytes 2)) ++ padTo 4 (c.ffePre.flatMap (leBytes 1)) ++ padTo 4 (c.ffePost.flatMap (leBytes 1))

/-- The body of STAGE_DOMAIN (R365). -/
def domainBytes (c : DomainCfg) : List Byte :=
  leBytes 1 (bitOf c.enable) ++ leBytes 1 c.mac ++ leBytes 1 c.transport ++ leBytes 1 c.domainNum ++ leBytes 2 c.vlan ++
    leBytes 1 c.delayUnicast ++ leBytes 1 c.dscp ++ leBytes 4 c.lockNs ++ leBytes 2 c.syncTimeoutMs ++ zeroBytes 2 ++ leBytes 4 c.holdoverS ++
    padTo 32 (c.gmAllow.flatMap (wire 8))

/-- The body of STAGE_PULSE (R366). -/
def pulseBytes (id : Nat) (c : PulseCfg) : List Byte :=
  if id < 2 then leBytes 1 c.tpiEdge ++ zeroBytes 27
  else leBytes 1 c.mode ++ leBytes 1 c.base ++ leBytes 1 c.pol ++ zeroBytes 1 ++ leBytes 8 c.start ++ leBytes 8 c.period ++ leBytes 8 c.width

/-- The body of STAGE_REGULATOR (R367). -/
def regulatorBytes (c : RegulatorCfg) : List Byte := leBytes 4 c.rate1 ++ leBytes 4 c.burst1 ++ leBytes 4 c.rate2 ++ leBytes 4 c.burst2

/-- The body of STAGE_ACCESS (R368). -/
def accessBytes (c : AccessCfg) : List Byte :=
  leBytes 1 (bitOf c.enable) ++ leBytes 1 (bitOf c.read + 2 * bitOf c.write) ++ leBytes 1 (bitOf c.priv) ++ leBytes 1 (bitOf c.lock) ++
    leBytes 8 c.base ++ leBytes 8 c.limit ++ leBytes 8 c.masters

/-- An object as its staging command carries it, from OBJ_ID on (R350, R369). -/
def objBytes : StagedObj → List Byte
  | .device c => leBytes 4 0 ++ deviceBytes c
  | .source i c => leBytes 4 i ++ sourceBody c
  | .flow i c => leBytes 4 i ++ flowBytes c
  | .mac i c => leBytes 4 i ++ macBytes c
  | .dprx i c => leBytes 4 i ++ dprxBytes c
  | .context i c => leBytes 4 i ++ contextBytes c
  | .head i c => leBytes 4 i ++ headBytes c
  | .window i c => leBytes 4 i ++ windowBytes c
  | .encoder i c => leBytes 4 i ++ encoderBytes c
  | .glyphs f cs => leBytes 4 f ++ leBytes 4 cs.length ++ cs.flatMap glyphBytes
  | .glyphSet i c => leBytes 4 i ++ glyphSetBytes c
  | .atlas f ms => leBytes 4 f ++ leBytes 4 ms.length ++ ms.flatMap (padTo 512)
  | .colours cs => leBytes 4 0 ++ padTo 256 (cs.flatMap (leBytes 4))
  | .scaler c => leBytes 4 0 ++ scalerBytes c
  | .desk i c => leBytes 4 i ++ deskBytes c
  | .quad i c => leBytes 4 i ++ quadBytes c
  | .domain i c => leBytes 4 i ++ domainBytes c
  | .pulse i c => leBytes 4 i ++ pulseBytes i c
  | .regulator i c => leBytes 4 i ++ regulatorBytes c
  | .access i c => leBytes 4 i ++ accessBytes c

/-! ### Reply data (R342 to R384) -/

/-- One field of a reply layout: a number of so many bytes, or so many reserved bytes. -/
inductive ReplyField where
  | num (n : Nat)
  | rsv (n : Nat)
  deriving DecidableEq, Repr

/-- Numbers laid out by a list of fields. -/
def layWords : List ReplyField → List Int → List Byte
  | [], _ => []
  | .rsv n :: fs, ws => zeroBytes n ++ layWords fs ws
  | .num n :: fs, w :: ws => leInt n w ++ layWords fs ws
  | .num n :: fs, [] => zeroBytes n ++ layWords fs []

/-- The fields of one domain in section 0 of TIME_STATUS (R377). -/
def domainFields : List ReplyField := [.num 1, .rsv 1, .num 2, .num 4, .num 8, .num 4, .num 4, .num 8, .num 8, .rsv 8]

/-- The reply layout of a command whose reply is `n` numbers (R342 to R384). -/
def replyFields (op n : Nat) : List ReplyField :=
  match op with
  | 0x0001 => [.num 4, .num 1, .num 1, .num 2, .num 4, .num 1, .num 1, .rsv 2, .num 8, .num 4, .rsv 4] ++ List.replicate 16 (.num 1) ++ [.rsv 16]
  | 0x0006 => [.num 1, .rsv 3]
  | 0x0008 => [.num 2, .num 2]
  | 0x0100 => [.num 4]
  | 0x0101 => [.num 8]
  | 0x0304 => [.num 1, .num 1, .num 1, .rsv 1, .num 2, .rsv 2, .num 8] ++ List.replicate 16 (.num 1)
  | 0x0305 => [.num 4, .rsv 4, .num 8] ++ List.replicate (n - 2) (.num 4)
  | 0x0402 => [.num 8, .num 8, .num 1, .num 1, .rsv 6] ++ domainFields ++ domainFields
  | 0x0604 => [.num 16, .num 8]
  | _ => List.replicate n (.num 4)

/-- Numbers whose clock identities stand in wire order: TS_GM of both domains (R339, R377). -/
def wireGm (op : Nat) (bs : List Byte) : List Byte :=
  if op = 0x0402 then
    bs.take 56 ++ ((bs.drop 56).take 8).reverse ++ ((bs.drop 64).take 40) ++ ((bs.drop 104).take 8).reverse ++ bs.drop 112
  else bs

/-- The bytes of reply data (R342 to R384). -/
def dataBytes (op : Nat) : ReplyData → List Byte
  | .empty => []
  | .words ws => wireGm op (layWords (replyFields op ws.length) ws)
  | .summary x => snapBytes x
  | .events first count recs => leBytes 8 first ++ leBytes 4 count ++ zeroBytes 4 ++ recs.flatMap eventBytes
  | .object gen o => leBytes 8 gen ++ objBytes o
  | .source latest flags kind cls advance seals =>
    leBytes 4 latest ++ leBytes 2 flags ++ leBytes 1 kind ++ leBytes 1 cls ++ leBytes 8 advance ++ leBytes 4 seals.length ++ zeroBytes 4 ++
      seals.flatMap sealBytes
  | .encoder state engine k seals => leBytes 1 state ++ leBytes 1 engine ++ leBytes 2 k ++ leBytes 4 seals.length ++ seals.flatMap sealBytes
  | .points recs => leBytes 4 recs.length ++ zeroBytes 4 ++ recs.flatMap pointBytes
  | .bytes total bs => leBytes 4 total ++ leBytes 4 bs.length ++ bs
  | .samples xs => leBytes 4 xs.length ++ zeroBytes 4 ++ xs.flatMap sampleBytes
  | .tpis rs => leBytes 4 rs.length ++ zeroBytes 4 ++ rs.flatMap tpiBytes
  | .faults first rows =>
    first.flatMap firstErrBytes ++ rows.flatMap (fun r => leBytes 4 r.1 ++ leBytes 1 r.2.1 ++ leBytes 1 r.2.2 ++ zeroBytes 2)

/-! ### Records that outlive a reset (R437, R438, R441) -/

/-- A 64-byte record of retained memory or of the start record's sectors (R437): type, argument, sequence, data, and REC_CRC folded with
the record's address. -/
def recordBytes (type arg seq : Nat) (data : List Byte) (addr : Nat) : List Byte :=
  let b := leBytes 2 type ++ leBytes 2 arg ++ leBytes 4 seq ++ padTo 52 data
  b ++ leBytes 4 (foldCrc addr seq 0x0BAC b).toNat

/-- The COMMIT record at an address (R437). -/
def commitRecBytes (addr : Nat) (r : CommitRec) : List Byte :=
  recordBytes 2 0 r.seq (leBytes 4 r.txnHigh ++ leBytes 4 r.lastTxn ++ leBytes 8 r.lastFrame ++ leBytes 4 r.bootId) addr

/-- The flash offset of the start record of a sequence: the two sectors in turn (R438). -/
def startRecAt (seq : Nat) : Nat := 0x1100000 + 4096 * (seq % 2)

/-- The start record (R438, R443). -/
def startRecBytes (r : StartRec) : List Byte :=
  recordBytes 3 0 r.seq (leBytes 1 r.count ++ zeroBytes 3 ++ leBytes 4 r.txnReserved) (startRecAt r.seq)

/-- The flash offset of the last-gasp record of a sequence: the two sectors in turn (R438). -/
def lastGaspAt (seq : Nat) : Nat := 0x1102000 + 4096 * (seq % 2)

/-- The last-gasp record without LG_CRC (R441). -/
def gaspBody (g : LastGasp) : List Byte :=
  leBytes 4 0x4C470001 ++ leBytes 4 g.seq ++ leBytes 4 g.bootId ++ leBytes 4 g.startCount ++ leBytes 8 g.wallFrame ++ leBytes 4 g.committedTxn ++
    leBytes 4 g.txnHigh ++ leBytes 8 g.committedFrame ++ leBytes 1 g.devState ++ leBytes 1 g.resetCause ++ zeroBytes 2 ++
    leBytes 4 g.events.length ++ leBytes 16 (bitsOf g.fenced) ++ padTo 3840 (g.events.flatMap eventBytes) ++ zeroBytes 188

/-- The last-gasp record's 4,096 bytes (R441). -/
def gaspBytes (g : LastGasp) : List Byte := gaspBody g ++ leBytes 4 (foldCrc (lastGaspAt g.seq) g.seq 0x0F1A (gaspBody g)).toNat

/-! ### Reply packets (R37, R38), ring slots (R42) and UART frames (R47) -/

/-- FOLD_OWNER of a channel's packets (R28, R42). -/
def packetOwner : Channel → Nat
  | .ring n => n
  | .uart => 0xFFFF

/-- The parameters of a reply: the 24-byte preamble and the data (R38). -/
def replyParams (r : Reply) : List Byte :=
  leBytes 2 r.status.code ++ leBytes 1 r.devState ++ leBytes 1 r.legalStates ++ zeroBytes 4 ++ leBytes 8 r.generation ++ leBytes 8 r.detail ++
    dataBytes r.opcode r.data

/-- A reply's header with PKT_CRC `crc`: REPLY set, QUIET clear, the command's OPCODE, TAG and TXN_ID (R37). -/
def replyHeader (r : Reply) (crc : Nat) : List Byte :=
  leBytes 2 r.opcode ++ leBytes 2 1 ++ leBytes 2 r.tag ++ leBytes 2 (replyParams r).length ++ leBytes 4 r.txn ++ leBytes 4 crc

/-- A reply packet with its folded PKT_CRC (R28, R37, R38). -/
def replyBytes (r : Reply) : List Byte :=
  replyHeader r (foldCrc 0 r.txn (packetOwner r.ch) (replyHeader r 0 ++ replyParams r)).toNat ++ replyParams r

/-- A packet or record as it fills `k` ring slots of 64 bytes (R42). -/
def inSlots (k : Nat) (bs : List Byte) : List Byte := padTo (64 * k) bs

/-- A byte as it is sent inside a UART frame (R47). -/
def escapeByte (b : Byte) : List Byte := if b = 0x7E#8 then [0x7D#8, 0x5E#8] else if b = 0x7D#8 then [0x7D#8, 0x5D#8] else [b]

/-- A packet as one frame of the service UART (R47). -/
def uartFraming (bs : List Byte) : List Byte := 0x7E#8 :: bs.flatMap escapeByte ++ [0x7E#8]

/-- The write-back block of a ring (R43). -/
def writeBackBytes (q : Ring) : List Byte := leBytes 4 q.wbConsumer ++ leBytes 4 q.wbProducer ++ leBytes 8 q.wbGeneration ++ zeroBytes 48

end Sys2Proof.Machine
end

