-- ==== Sys2Proof/Machine/State.lean ====
section
/-! DEFINITION. The whole state of the device, the reasons a step can stop, and the state held in power-on reset. -/

namespace Sys2Proof.Machine

open Sys2Proof

/-- Everything the spec gives the device, as plain data. `pending` is the model's queue of rows that wait, first
in first out; `free` numbers the next free value (log entry 5). -/
structure State where
  pending : List Instr
  dev : DevState
  bk : Backup
  ret : Retained
  flash : Flash
  fuses : Fuses
  boot : Boot
  clk : Clocks
  pins : Pins
  temp : Temp
  rings : Tab Ring
  uart : Uart
  mirror : Mirror
  log : EventLog
  generation : Nat
  snap : Snapshot
  auth : Auth
  fw : FwLoad
  bg : Background
  txns : Txns
  splice : Splice
  lay : Layout
  time : Time
  raster : Raster
  ing : Ingest
  dec : Decode
  braid : Braid
  stop : Stop
  heads : Tab HeadRt
  pts : Points
  enc : Encode
  desks : Tab DeskRt
  mem : Mem
  lanes : Lanes
  dbg : Debug
  flt : Faults
  counters : Tab Nat
  out : Out
  free : Nat
  deriving DecidableEq, Repr

/-- The reasons for which the model stops with a fault. No row of this device raises one: the device's own faults
are state (R402). The one constructor names what a later sitting would need it for. -/
inductive Fault where
  /-- Raised by no meaning. Safe: a stop allows no behaviour. -/
  | unused
  deriving DecidableEq, Repr

/-- The reasons for which the model refuses a row. -/
inductive Refusal where
  /-- Raised by the dispatcher for a row that has no meaning yet. Safe: it allows no behaviour. -/
  | notModelled (mnemonic : String)
  deriving DecidableEq, Repr

/-- The factory palette of R182 as 30-bit words, entries 0 to 10. -/
def factoryPalette : List Nat :=
  [1023 * 1048576 + 704 * 1024, 1023 * 1048576, 0, 1023 * 1024 + 1023, 1023 * 1048576 + 1023,
   384 * 1048576 + 768, 1073741823, 0, 1073741823, 0, 0]

/-- The factory pin map of R463 by the codes of R433: 1 pull-up, 2 pull-down, 3 drive 0, 4 drive 1. -/
def factoryPins : List Nat :=
  [1, 1, 1, 1, 3, 4, 2, 3] ++ List.replicate 8 2 ++ List.replicate 2 2 ++ List.replicate 4 3 ++ List.replicate 32 2 ++ List.replicate 16 3

/-- The device held in power-on reset (OFF, R49, R50): every field at the value R423 leaves, or at the value that
log entry 4 names. The row POR releases it. -/
def State.reset : State where
  pending := []
  dev := .off
  bk := {}
  ret := {}
  flash := {}
  fuses := { pinFactory := factoryPins, paletteFactory := factoryPalette }
  boot := {}
  clk := {}
  pins := {}
  temp := {}
  rings := []
  uart := {}
  mirror := {}
  log := {}
  generation := 0
  snap := {}
  auth := {}
  fw := {}
  bg := {}
  txns := {}
  splice := {}
  lay := {}
  time := {}
  raster := {}
  ing := {}
  dec := {}
  braid := {}
  stop := {}
  heads := []
  pts := {}
  enc := {}
  desks := []
  mem := {}
  lanes := {}
  dbg := {}
  flt := {}
  counters := []
  out := {}
  free := 0

end Sys2Proof.Machine
end

