-- ==== Sys2Proof/Machine/Ops.lean ====
section
/-! DEFINITION. The named operations over the state that every family of rows shares: time, counters, events,
interrupts, replies, device states, and the layout in force for a wall frame. -/

namespace Sys2Proof.Machine

open Sys2Proof

/-! ### Numbers -/

/-- One nanosecond in the counters' unit of 2^−32 ns (R253). -/
def nsUnit : Nat := 4294967296

/-- The wrapped difference of two 32-bit free-running indices (R42). -/
def idxDiff (a b : Nat) : Nat := (a + 4294967296 - b % 4294967296) % 4294967296

/-- Add `k` to a list without repeats, kept in rising order. -/
def insertSorted (k : Nat) : List Nat → List Nat
  | [] => [k]
  | j :: t => if j = k then j :: t else if k < j then k :: j :: t else j :: insertSorted k t

/-- Remove `k` from a list of numbers. -/
def removeNat (k : Nat) (l : List Nat) : List Nat := l.filter (fun j => decide (j ≠ k))

/-- Whether `k` stands in the list. -/
def hasNat (k : Nat) (l : List Nat) : Bool := l.any (fun j => decide (j = k))

/-! ### Time (R66 to R70, R253 to R262) -/

/-- The counter of time domain `d` (R253). -/
def Time.domain (t : Time) (d : Nat) : Domain := if d = 0 then t.td0 else t.td1

/-- Replace time domain `d`. -/
def Time.setDomain (t : Time) (d : Nat) (x : Domain) : Time := if d = 0 then { t with td0 := x } else { t with td1 := x }

/-- Apply `f` to time domain `d`. -/
def State.modDomain (d : Nat) (f : Domain → Domain) (s : State) : State :=
  { s with time := s.time.setDomain d (f (s.time.domain d)) }

/-- The time of a domain in ns: TD_SEC × 1,000,000,000 + TD_NS (R253). -/
def Domain.ns (d : Domain) : Nat := d.units / nsUnit

/-- Wall time in 2^−32 ns: the active domain minus WALL_RESID (R68). -/
def Time.wallUnits (t : Time) : Int := (t.domain t.active).units - t.resid

/-- Wall time in ns (R68). -/
def State.wallNs (s : State) : Nat := (s.time.wallUnits / nsUnit).toNat

/-- TD1 − TD0 in ns, measured at one tick (R261). -/
def Time.offset (t : Time) : Int := ((t.td1.units : Int) - t.td0.units) / nsUnit

/-- WALL_RESID moved towards zero by at most `d` (R261). -/
def slew (resid : Int) (d : Nat) : Int :=
  if resid < 0 then -(((-resid).toNat - d : Nat) : Int) else ((resid.toNat - d : Nat) : Int)

/-- Whether the TIME domain is clocked: it is released at step 7 of the start (R426). -/
def State.timeRuns (s : State) : Bool := decide (8 ≤ s.boot.step)

/-- A domain's counter after `dt` ticks (R253). -/
def Domain.tick (dt : Nat) (d : Domain) : Domain := { d with units := d.units + dt * d.incr }

/-- The Lay unit after `dt` ticks: both counters advance, and WALL_RESID slews towards zero at TD_SLEW_PPM of
the active domain's advance (R253, R261). -/
def Time.after (dt ppm : Nat) (runs : Bool) (t : Time) : Time :=
  if runs then
    { t with
      td0 := t.td0.tick dt
      td1 := t.td1.tick dt
      resid := slew t.resid (dt * (t.domain t.active).incr * ppm / 1000000)
      upTicks := t.upTicks + dt }
  else { t with upTicks := t.upTicks + dt }

/-- Time advances by `dt` TIME ticks; nothing else changes. -/
def State.advance (dt : Nat) (s : State) : State :=
  { s with time := s.time.after dt s.lay.dev.tdSlewPpm s.timeRuns }

/-- The numerator and denominator of the wall rate in Hz (R66). -/
def wallRateHz : Nat → Nat × Nat
  | 0 => (24000, 1001) | 1 => (24, 1) | 2 => (25000, 1001) | 3 => (25, 1) | 4 => (30000, 1001)
  | 5 => (30, 1) | 6 => (50000, 1001) | 7 => (50, 1) | 8 => (60000, 1001) | _ => (60, 1)

/-- The wall time in ns at which wall line `w` of wall frame `n` begins: ⌈N × D + w × D / 4,096⌉ (R67). -/
def lineStartNs (rate n w : Nat) : Nat :=
  let hz := wallRateHz rate
  ((4096 * n + w) * 1000000000 * hz.2 + (4096 * hz.1 - 1)) / (4096 * hz.1)

/-- The first wall frame that begins after wall time `t` (R69, R70). -/
def firstFrameAfter (rate t : Nat) : Nat :=
  let hz := wallRateHz rate
  t * hz.1 / (1000000000 * hz.2) + 1

/-- Touch frames per wall frame, k of R80. -/
def touchPerFrame : Nat → Nat
  | 0 => 10 | 1 => 10 | 2 => 10 | 3 => 10 | 4 => 8 | 5 => 8 | 6 => 5 | 7 => 5 | _ => 4

/-- A wall position as one number: frame × 4,096 + line (R67). -/
def Raster.pos (r : Raster) : Nat := r.frame * 4096 + r.line

/-! ### Free values (log entry 5) -/

/-- Take the next free value. -/
def State.takeFree (s : State) : Nat × State := (Config.freeNat s.free, { s with free := s.free + 1 })

/-! ### Counters (R375) -/

/-- The key of counter word `idx` of instance `inst` in block `block`. -/
def counterKey (block inst idx : Nat) : Nat := block * 16777216 + inst * 256 + idx

/-- Read a counter. -/
def State.counter (s : State) (block inst idx : Nat) : Nat := s.counters.get 0 (counterKey block inst idx)

/-- Add to a 32-bit counter that saturates. -/
def satAdd (a n : Nat) : Nat := min (a + n) 4294967295

/-- Add `n` to a counter (R96, R97, R140, R169, R194, R213, R230, R251, R266, R288, R314, R334). -/
def State.count (block inst idx n : Nat) (s : State) : State :=
  { s with counters := s.counters.modify 0 (counterKey block inst idx) (fun a => satAdd a n) }

/-- Set a counter that shows a latest value (OCC, REFRESHES, HOT_FRAMES of R314; GLYPHS_STALE, GLYPHS_VOID of R230). -/
def State.setCounter (block inst idx n : Nat) (s : State) : State :=
  { s with counters := s.counters.set 0 (counterKey block inst idx) (min n 4294967295) }

/-! ### Rings and interrupts (R42 to R46) -/

/-- A ring's registers. -/
def State.ring (s : State) (n : Nat) : Ring := s.rings.get {} n

/-- Replace a ring's registers. -/
def State.setRing (n : Nat) (r : Ring) (s : State) : State := { s with rings := s.rings.set {} n r }

/-- RUNNING: the ring is enabled and free of error (R43). -/
def Ring.runs (r : Ring) : Bool := r.enable && !r.ringErr

/-- Slots of the ring that SIZE gives (R43). -/
def Ring.slots (r : Ring) : Nat := 64 * 2 ^ r.size

/-- Slots of the completion ring (R43). -/
def Ring.cplSlots (r : Ring) : Nat := 64 * 2 ^ r.cplSize

/-- Slots the device has written and host software has not released (R44). -/
def Ring.unread (r : Ring) : Nat := idxDiff r.wbProducer r.released

/-- Send an MSI-X message. -/
def State.msix (vec : Nat) (s : State) : State := { s with out := { s.out with msix := vec :: s.out.msix } }

/-- The ring's interrupt when WB_PRODUCER advances, no earlier than MOD_US after the one before (R46). -/
def State.ringInterrupt (n : Nat) (s : State) : State :=
  let r := s.ring n
  if r.modRunning then s.setRing n { r with modHeld := true }
  else if r.modUs = 0 then s.msix r.msixVec
  else (s.setRing n { r with modRunning := true }).msix r.msixVec

/-- CPL_FULL of ring 16 or 17: the ring itself is full (R43). -/
def Ring.markFull (r : Ring) : Ring := { r with cplFull := decide (r.slots ≤ r.unread) }

/-- Host memory takes bytes at an address. -/
def State.hostWrite (a : Nat) (bs : List Byte) (s : State) : State :=
  { s with out := { s.out with hostWrites := (a, bs) :: s.out.hostWrites } }

/-- The host address of slot `i` of what the device writes for ring `n`: the completion ring of a command ring, or ring 16 or 17
itself (R42, R43). -/
def Ring.slotAddr (r : Ring) (n i : Nat) : Nat := if n < 16 then r.cplBase + 64 * (i % r.cplSlots) else r.base + 64 * (i % r.slots)

/-- The device writes `bs` in `k` slots of ring `n`, then the write-back block, then the interrupt (R42 to R44). -/
def State.wroteSlots (n k : Nat) (bs : List Byte) (s : State) : State :=
  let r := s.ring n
  let w : Ring := { r with wbProducer := (r.wbProducer + k) % 4294967296, wbGeneration := s.snap.generation }
  let s := (List.range k).foldl (fun s i => s.hostWrite (r.slotAddr n (r.wbProducer + i)) (inSlots 1 (bs.drop (64 * i)))) s
  ((s.setRing n (if n = 16 || n = 17 then w.markFull else w)).hostWrite r.wbAddr (writeBackBytes w)).ringInterrupt n

/-- Stop a ring on an error (R45): RING_ERR, ERR_CAUSE and a RING_FAULT event follow. -/
def Ring.stop (cause : Nat) (r : Ring) : Ring := { r with ringErr := true, errCause := cause, waiting := [], held := [] }

/-! ### Events (R59, R60) -/

/-- Write one event record to ring 16, or count it as lost (R60). -/
def State.deliverEvent (e : Event) (s : State) : State :=
  let r := s.ring 16
  if r.runs && decide (r.unread < r.slots) then
    ({ s with out := { s.out with events := e :: s.out.events } }).wroteSlots 16 1 (eventBytes e)
  else
    { s with log := { s.log with lost := s.log.lost + 1, firstLost := if s.log.lost = 0 then e.seq else s.log.firstLost } }

/-- The current wall frame: while the raster waits to start, the one that wall time lies in (R67). -/
def State.currentFrame (s : State) : Nat := if s.raster.run then s.raster.frame else s.raster.first - 1

/-- The event record that is generated next (R59). -/
def State.nextEvent (code subject data : Nat) (s : State) : Event :=
  { seq := s.log.next, frame := s.raster.frame, line := s.raster.line, code := code, subject := subject, data := data }

/-- Generate an event: it takes the next EVT_SEQ, enters the log of 4,096 events, and goes to ring 16 (R59, R60, R343). -/
def State.event (code subject data : Nat) (s : State) : State :=
  let e := s.nextEvent code subject data
  ({ s with log := { s.log with next := s.log.next + 1, recs := (e :: s.log.recs).take 4096 } }).deliverEvent e

/-- Once ring 16 has space again, the first event written is EVENTS_LOST (R60). -/
def State.eventsLost (s : State) : State :=
  let r := s.ring 16
  if r.runs && decide (r.unread < r.slots) && decide (0 < s.log.lost) then
    let d := s.log.lost % 4294967296 + (s.log.firstLost % 4294967296) * 4294967296
    ({ s with log := { s.log with lost := 0, firstLost := 0 } }).event 0x000F 0 d
  else s

/-! ### Device states (R49, R50, R64) -/

/-- Change the device state: the mirror, the STATE_CHANGE event (none out of OFF or into STARTING, where the log
starts afresh: log entry 9), and MSI-X vector 63 (R46, R50, R59, R64). `src` is the fault source or 0xFFFF. -/
def State.setDev (new : DevState) (src : Nat) (s : State) : State :=
  if s.dev = new then s
  else
    let old := s.dev
    let s := { s with dev := new, mirror := { s.mirror with devState := new.code } }
    let s := if old = .off || new = .off || new = .starting then s
      else s.event 0x0001 0 (old.code + new.code * 256 + src * 65536)
    s.msix 63

/-- FAULT_N is asserted: before step 5 of a start and in RECOVERY (R445), in SAFE, and while a class holds a firing
with bit 5 that FAULT_REARM has not rearmed (R414). -/
def State.faultN (s : State) : Bool :=
  decide (s.boot.step < 5) || decide (s.dev = .recovery) || decide (s.dev = .safe) || !s.flt.latchClasses.isEmpty

/-! ### Replies (R38, R44) -/

/-- Ring slots that a packet with `len` parameter bytes occupies (R42). -/
def packetSlots (len : Nat) : Nat := (16 + len + 63) / 64

/-- Write a reply on its channel, in order. A completion ring that cannot take it holds it and sets CPL_FULL (R44).
A ring that no longer runs takes nothing. -/
def State.sendReply (r : Reply) (s : State) : State :=
  match r.ch with
  | .uart => { s with out := { s.out with replies := r :: s.out.replies, uartSent := uartFraming (replyBytes r) :: s.out.uartSent } }
  | .ring n =>
    let q := s.ring n
    if !q.runs then s
    else if q.held.isEmpty && decide (q.unread + packetSlots (24 + r.len) ≤ q.cplSlots) then
      ({ s with out := { s.out with replies := r :: s.out.replies } }).wroteSlots n (packetSlots (24 + r.len)) (replyBytes r)
    else s.setRing n { q with held := q.held ++ [r], cplFull := true }

/-- The reply to a command with header `c` (R37, R38). -/
def State.mkReply (s : State) (opcode : Nat) (c : CmdHdr) (st : Status) (legal detail : Nat) (data : ReplyData) (len : Nat) : Reply :=
  { ch := c.ch, opcode := opcode, tag := c.tag, txn := c.txn, status := st, devState := s.dev.code,
    legalStates := legal, generation := s.snap.generation, detail := detail, data := data, len := len }

/-- Reply to a command; QUIET asks for none with status OK (R37). -/
def State.reply (opcode : Nat) (c : CmdHdr) (st : Status) (legal detail : Nat) (data : ReplyData) (len : Nat) (s : State) : State :=
  if c.flags.testBit 1 && decide (st = .ok) then s else s.sendReply (s.mkReply opcode c st legal detail data len)

/-! ### Objects and layouts (R81 to R84, R350, R351) -/

/-- The staging opcode and OBJ_ID of a staged object (R351). -/
def stagedKey : StagedObj → Nat × Nat
  | .device _ => (0x200, 0)
  | .source i _ => (0x201, i)
  | .flow i _ => (0x202, i)
  | .mac i _ => (0x203, i)
  | .dprx i _ => (0x204, i)
  | .context i _ => (0x205, i)
  | .head i _ => (0x206, i)
  | .window i _ => (0x207, i)
  | .encoder i _ => (0x208, i)
  | .glyphs i _ => (0x209, i)
  | .glyphSet i _ => (0x20A, i)
  | .atlas i _ => (0x20B, i)
  | .colours _ => (0x20C, 0)
  | .scaler _ => (0x20D, 0)
  | .desk i _ => (0x20E, i)
  | .quad i _ => (0x20F, i)
  | .domain i _ => (0x210, i)
  | .pulse i _ => (0x211, i)
  | .regulator i _ => (0x212, i)
  | .access i _ => (0x213, i)

/-- One number for a staging opcode and OBJ_ID. -/
def objKey (k : Nat × Nat) : Nat := k.1 * 4294967296 + k.2

/-- The instances or glyphs that one staged object covers, as keys of single objects. -/
def stagedKeys : StagedObj → List Nat
  | .glyphs f cs => (List.range cs.length).map (fun i => objKey (0x209, f + i))
  | .atlas f ms => (List.range ms.length).map (fun i => objKey (0x20B, f + i))
  | o => [objKey (stagedKey o)]

/-- Write the entries of a run into a table, from index `i`. -/
def setRun {α : Type} [DecidableEq α] (d : α) : Nat → List α → Tab α → Tab α
  | _, [], t => t
  | i, c :: cs, t => setRun d (i + 1) cs (t.set d i c)

end Sys2Proof.Machine

namespace Sys2Proof

open Sys2Proof.Machine

/-- A set with one object replaced whole (R350). Of sources 984 to 1023 only the class may be set: their other fields keep their
values (R86, R110, R226), but for a SRC_KIND that the commit refuses. -/
def Layout.apply (l : Layout) : StagedObj → Layout
  | .device c => { l with dev := c }
  | .source i c => { l with sources := l.sources.set {} i (if 984 ≤ i then { kind := c.kind, cls := c.cls } else c) }
  | .flow i c => { l with flows := l.flows.set {} i c }
  | .mac i c => { l with macs := l.macs.set {} i c }
  | .dprx i c => { l with dprxs := l.dprxs.set {} i c }
  | .context i c => { l with contexts := l.contexts.set {} i c }
  | .head i c => { l with heads := l.heads.set {} i c }
  | .window i c => { l with windows := l.windows.set {} i c }
  | .encoder i c => { l with encoders := l.encoders.set {} i c }
  | .glyphs f cs => { l with glyphs := setRun {} f cs l.glyphs }
  | .glyphSet i c => { l with glyphSets := l.glyphSets.set {} i c }
  | .atlas f ms => { l with atlas := setRun [] f ms l.atlas }
  | .colours cs => { l with colours := cs }
  | .scaler c => { l with scaler := c }
  | .desk i c => { l with desks := l.desks.set {} i c }
  | .quad i c => { l with quads := l.quads.set {} i c }
  | .domain i c => { l with domains := l.domains.set {} i c }
  | .pulse i c => { l with pulses := l.pulses.set {} i c }
  | .regulator i c => { l with regulators := l.regulators.set {} i c }
  | .access i c => { l with access := l.access.set {} i c }

/-- A set with objects applied in order. -/
def Layout.applyAll (l : Layout) (os : List StagedObj) : Layout := os.foldl Layout.apply l

/-- Heads that a set enables. -/
def Layout.enabledHeads (l : Layout) : List Nat := (l.heads.filter (fun e => e.2.enable)).map (fun e => e.1)

/-- A window's settings in a set. -/
def Layout.window (l : Layout) (w : Nat) : WindowCfg := l.windows.get {} w

/-- A source's definition in a set. -/
def Layout.source (l : Layout) (i : Nat) : SourceCfg := l.sources.get {} i

/-- A head's settings in a set. -/
def Layout.head (l : Layout) (h : Nat) : HeadCfg := l.heads.get {} h

end Sys2Proof

namespace Sys2Proof.Machine

open Sys2Proof

/-- The set as it will stand once the versions for frames up to `f` have applied (R57, R82). -/
def State.layoutAhead (s : State) (f : Nat) : Layout :=
  s.splice.versions.foldl (fun l v => if v.frame ≤ f then l.applyAll v.objs else l) s.lay

/-- The newest entry of the retired versions whose frame is not later than `f` (R81, R82). -/
def pastLayout (f : Nat) (d : Layout) : List (Nat × Layout) → Layout
  | [] => d
  | (g, l) :: t => if g ≤ f then l else pastLayout f d t

/-- The set that a unit uses for work of wall frame `f`: the latest version whose tag is not later (R82). The
history lists applied versions newest first, the one in force at its head. -/
def State.layoutFor (s : State) (f : Nat) : Layout :=
  match s.splice.history with
  | [] => s.layoutAhead f
  | (g, _) :: t => if g ≤ f then s.layoutAhead f else pastLayout f s.lay t

/-- The tag of the version in force for work of wall frame `f` (R82, R84). -/
def State.tagFor (s : State) (f : Nat) : Nat :=
  let ahead := s.splice.versions.foldl (fun g v => if v.frame ≤ f then v.frame else g) s.splice.tag
  match s.splice.history with
  | [] => ahead
  | (g, _) :: t => if g ≤ f then ahead else ((t.find? (fun e => decide (e.1 ≤ f))).map (fun e => e.1)).getD 0

/-- Runtime state of head `h`. -/
def State.headRt (s : State) (h : Nat) : HeadRt := s.heads.get {} h

/-- Apply `f` to the runtime state of head `h`. -/
def State.modHead (h : Nat) (f : HeadRt → HeadRt) (s : State) : State := { s with heads := s.heads.modify {} h f }

/-- Runtime state of a source. -/
def State.srcRt (s : State) (i : Nat) : SourceRt := s.ing.sources.get {} i

/-- Apply `f` to the runtime state of a source. -/
def State.modSrc (i : Nat) (f : SourceRt → SourceRt) (s : State) : State :=
  { s with ing := { s.ing with sources := s.ing.sources.modify {} i f } }

/-- Whether a firmware processor does not run: it restarts (R412) or is halted (R398). They are numbered from 0 as their
watchdogs of R402 are. -/
def State.procDown (s : State) (p : Nat) : Bool := hasNat p s.flt.restarting || hasNat p s.dbg.halted

/-- Whether unit `u` of R400 is fenced. -/
def State.isFenced (s : State) (u : Nat) : Bool := hasNat u s.flt.fenced

end Sys2Proof.Machine
end

