-- ==== Sys2Proof/Machine/Operands.lean ====
section
/-! DEFINITION. The ranges that each field of a staged object has by itself, checked when it is staged (R350), with
the parameter offset that E_PARAM reports (R40). Rules that join fields are checked at commit. -/

namespace Sys2Proof.Machine

open Sys2Proof

/-- A field's parameter offset and whether its value lies in its range. -/
abbrev FieldCheck := Nat × Bool

/-- The offset of the first field out of range, in the order listed. -/
def firstBad : List FieldCheck → Option Nat
  | [] => none
  | (o, ok) :: t => if ok then firstBad t else some o

/-- `lo ≤ n ≤ hi`. -/
def inRange (lo hi n : Nat) : Bool := decide (lo ≤ n) && decide (n ≤ hi)

/-- `lo ≤ i ≤ hi`. -/
def inRangeI (lo hi i : Int) : Bool := decide (lo ≤ i) && decide (i ≤ hi)

/-- A 30-bit colour word: bits [31:30] reserved (R339). -/
def colourOk (n : Nat) : Bool := decide (n < 1073741824)

/-- A VLAN ID 0 to 4,094, or none (R90). -/
def vlanOk (n : Nat) : Bool := inRange 0 4094 n || decide (n = 0xFFFF)

/-- The level codes that exist (R339). -/
def levelCodes : List Nat := [30, 33, 36, 39, 60, 63, 66, 90, 93, 96, 120, 123, 126, 150, 153]

/-- A level code that exists (R339). -/
def levelOk (n : Nat) : Bool := levelCodes.contains n

/-- A lane LN8 to LN95. -/
def laneOk (n : Nat) : Bool := inRange 8 95 n

/-- 1, 2 or 4 lanes. -/
def laneCountOk (n : Nat) : Bool := decide (n = 1) || decide (n = 2) || decide (n = 4)

/-- Checks of a list of fields at rising offsets. -/
def eachField {α : Type} (off step : Nat) (ok : α → Bool) : List α → List FieldCheck
  | [] => []
  | a :: t => (off, ok a) :: eachField (off + step) step ok t

/-- STAGE_DEVICE (R352, R66, R55, R257, R297, R313). -/
def checkDevice (id : Nat) (o : DeviceCfg) : Option Nat := firstBad
  [(0, decide (id = 0)), (4, inRange 0 9 o.wallRate), (5, inRange 0 7 o.alarmEngine), (6, inRange 0 1 o.strandPref),
   (7, inRange 0 1 o.tdFailover), (8, inRange 1000 1000000000 o.tdSwitchMaxNs), (12, inRange 1 50 o.tdSlewPpm),
   (13, inRange 0 1 o.memReserve), (14, inRange 0 1 o.memRebase), (16, inRange 1 600 o.txnIdleS)]

/-- STAGE_SOURCE (R353). Fields that the kind does not use are not checked; a commit refuses sources 984–1023 (R86). -/
def checkSource (id : Nat) (o : SourceCfg) : Option Nat :=
  if 984 ≤ id then firstBad [(0, inRange 0 1023 id), (4, inRange 0 4 o.kind), (5, inRange 0 2 o.cls)]
  else if o.kind = 0 then none
  else
    let surf := decide (o.kind = 4)
    firstBad
      [(4, inRange 0 4 o.kind), (5, inRange 0 2 o.cls), (6, decide (o.kind = 2) || inRange 2 8 o.buffers),
       (8, if o.kind = 1 then inRange 0 1023 o.origin else if o.kind = 2 then inRange 0 255 o.origin
           else if o.kind = 3 then inRange 0 15 o.origin else decide (o.origin = 0)),
       (10, decide (o.frozenN = 0) || inRange 2 65535 o.frozenN),
       (12, !surf || inRange 1 7680 o.surfWidth), (14, !surf || inRange 1 4320 o.surfHeight),
       (16, !surf || decide (o.surfFormat = 6) || decide (o.surfFormat = 7))]

/-- STAGE_FLOW (R354). Fields that do not serve the flow's type are zero. -/
def checkFlow (id : Nat) (o : FlowCfg) : Option Nat :=
  let t3 := decide (o.type = 3)
  let t4 := decide (o.type = 4)
  firstBad
    [(0, inRange 0 1023 id), (5, inRange 0 4 o.type), (6, inRange 0 7 o.mac), (7, inRange 0 2 o.tsMode), (8, vlanOk o.vlan),
     (10, inRange 1 65535 o.dstPort), (12, inRange 0 1023 o.pair || decide (o.pair = 0xFFFF)),
     (32, !o.srcAny || decide (o.srcAddr = 0)), (48, t4 || !o.ssrcAny || decide (o.ssrc = 0)),
     (52, inRange 100 50000 o.pdMaxUs), (56, inRangeI (-1000000000) 0 o.captOffset),
     (60, if t4 then decide (o.target = 0) else if t3 then inRange 0 1023 o.target else inRange 0 255 o.target),
     (64, if t4 then inRange 0 8388607 o.pfIndexBase else decide (o.pfIndexBase = 0)),
     (68, if t4 then inRange 1 8388608 o.pfIndexCount else decide (o.pfIndexCount = 0)),
     (72, if t4 then inRange 0 1 o.pfTimeMode else decide (o.pfTimeMode = 0)),
     (73, if t3 then inRange 0 2 o.sampling else decide (o.sampling = 0)),
     (74, if t3 then inRange 0 1 o.packing else decide (o.packing = 0)),
     (75, if t3 then inRange 0 2 o.sender else decide (o.sender = 0)),
     (76, if t3 then inRange 1 4096 o.width else decide (o.width = 0)),
     (78, if t3 then inRange 1 2160 o.height else decide (o.height = 0)),
     (80, if t3 then decide (0 < o.rateNum) else decide (o.rateNum = 0)),
     (84, if t3 then decide (0 < o.rateDen) else decide (o.rateDen = 0))]

/-- STAGE_MAC (R355): a multicast or all-zero Ethernet address is refused. -/
def checkMac (id : Nat) (o : MacCfg) : Option Nat := firstBad
  [(0, inRange 0 7 id), (4, laneOk o.lane), (6, decide (o.addr ≠ 0) && decide (o.addr / 1099511627776 % 2 = 0)),
   (16, inRange 0 32 o.ipv4Prefix), (17, inRange 0 128 o.ipv6Prefix)]

/-- STAGE_DPRX (R356): EDID bytes from EDID_LEN on are zero (R350). -/
def checkDprx (id : Nat) (o : DprxCfg) : Option Nat := firstBad
  ([(0, inRange 0 15 id), (5, laneOk o.lane0), (6, laneCountOk o.lanes),
   (8, [128, 256, 384, 512].contains o.edidLen)] ++
   eachField (12 + o.edidLen) 1 (fun b => decide (b = 0#8)) (o.edid.drop o.edidLen))

/-- STAGE_CONTEXT (R357). -/
def checkContext (id : Nat) (o : ContextCfg) : Option Nat := firstBad
  [(0, inRange 0 255 id), (5, inRange 0 2 o.codec), (6, levelOk o.maxLevel), (7, inRange 2 8 o.extraBufs),
   (8, inRange 0 983 o.source), (10, inRange 64 4096 o.maxWidth), (12, inRange 64 2304 o.maxHeight),
   (14, decide (o.outDepth = 8) || decide (o.outDepth = 10)), (15, inRange 0 2 o.outScale),
   (16, inRange 2 16 o.backlogMax), (18, decide (o.paramSets.length ≤ 1024))]

/-- STAGE_HEAD (R358, R71, R143, R198). -/
def checkHead (id : Nat) (o : HeadCfg) : Option Nat := firstBad
  [(0, inRange 0 31 id), (5, inRange 0 1 o.mult), (6, inRange 0 4095 o.phase),
   (8, inRange 640 7680 o.hActive && decide (o.hActive % 2 = 0)), (10, inRange 1 2048 o.hFp), (12, inRange 1 512 o.hSync),
   (14, inRange 1 2048 o.hBp), (16, inRange 240 4320 o.vActive), (18, inRange 0 1023 o.vFp), (20, inRange 1 63 o.vSync),
   (22, inRange 1 1023 o.vBp), (24, decide (o.bpc = 8) || decide (o.bpc = 10)), (25, inRange 0 1 o.cspace),
   (26, inRange 0 5 o.linkRate), (27, laneCountOk o.lanes), (28, laneOk o.lane0), (29, inRange 1 7 o.urgentLines),
   (30, inRange 2 6 o.lBegin), (31, inRange 1 2 o.lBind), (32, colourOk o.bg), (36, inRange 0 1 o.overlay),
   (37, inRange 0 2 o.ribbon)]

/-- STAGE_WINDOW (R359, R142, R171). -/
def checkWindow (id : Nat) (o : WindowCfg) : Option Nat := firstBad
  [(0, inRange 0 2047 id), (5, inRange 0 31 o.head), (6, inRange 0 254 o.layer), (7, inRange 0 2 o.blend),
   (8, inRange 0 1023 o.source), (10, inRange 1 1023 o.alpha), (12, inRangeI (-8192) 8191 o.dstX),
   (14, inRangeI (-8192) 8191 o.dstY), (16, inRange 1 8192 o.dstW), (18, inRange 1 8192 o.dstH),
   (20, inRange 0 8191 o.srcX), (22, inRange 0 8191 o.srcY), (24, inRange 1 8192 o.srcW), (26, inRange 1 8192 o.srcH),
   (28, colourOk o.key), (32, colourOk o.fill), (36, inRange 0 1 o.matrix), (37, inRange 0 1 o.range),
   (38, inRange 0 1 o.siting), (39, inRange 0 3 o.filter), (40, inRange 1 60000 o.staleMs), (44, inRange 1 600000 o.deadMs),
   (48, inRange 1 60000 o.freezeMs), (52, inRange 0 2 o.caption), (53, inRange 0 3 o.captionCorner),
   (54, inRange 1 2 o.captionScale)]

/-- The field checks of one region at offset `o` (R235, R360). -/
def checkRegion (o : Nat) (r : RegionCfg) : List FieldCheck :=
  [(o + 1, inRange 0 31 r.head), (o + 2, inRange 0 2 r.scale), (o + 4, decide (r.x % 8 = 0)), (o + 6, decide (r.y % 8 = 0)),
   (o + 8, decide (r.w % 8 = 0)), (o + 10, decide (r.h % 8 = 0)), (o + 12, decide (r.px % 2 = 0)), (o + 14, decide (r.py % 2 = 0))]

/-- The field checks of a list of regions. -/
def checkRegions : Nat → List RegionCfg → List FieldCheck
  | _, [] => []
  | o, r :: t => checkRegion o r ++ checkRegions (o + 16) t

/-- STAGE_ENCODER (R360, R232). -/
def checkEncoder (id : Nat) (o : EncoderCfg) : Option Nat := firstBad
  ([(0, inRange 0 31 id), (5, inRange 0 2 o.codec), (6, levelOk o.level), (7, inRange 0 1 o.rc),
   (8, inRange 64 4096 o.width && decide (o.width % 8 = 0)), (10, inRange 64 2304 o.height && decide (o.height % 8 = 0)),
   (12, colourOk o.fill), (16, inRange 0 1 o.matrix), (17, inRange 1 60 o.div),
   (18, inRange 0 4095 o.startLine || decide (o.startLine = 0xFFFF)), (20, inRange 8 128 o.refreshN),
   (21, inRangeI (-12) 51 o.qpMin), (22, inRangeI (-12) 51 o.qpMax), (23, inRange 0 2 o.cls),
   (24, decide (256000 ≤ o.rate)), (32, decide (1 ≤ o.hrdBits)), (36, inRange 576 8952 o.mtu), (38, inRange 0 7 o.mac),
   (39, inRange 0 7 o.mac2 || decide (o.mac2 = 0xFF)), (56, decide (o.mac2 ≠ 0xFF) || decide (o.dstAddr2 = 0)),
   (72, inRange 1 65535 o.dstPort), (74, inRange 1 65535 o.srcPort), (76, vlanOk o.vlan), (78, inRange 0 63 o.dscp),
   (79, inRange 1 255 o.ttl), (80, inRange 96 127 o.pt)] ++ checkRegions 88 o.regions)

/-- The field checks of a run of glyph instances from offset `o` (R222). -/
def checkGlyphList : Nat → List GlyphCfg → List FieldCheck
  | _, [] => []
  | o, g :: t =>
    [(o, inRange 0 8388607 g.point && inRange 0 4 g.nth), (o + 8, inRange 0 31 g.head), (o + 9, inRange 0 255 g.set),
     (o + 10, inRange 0 3 g.kind && inRange 0 7 g.decimals), (o + 11, inRange 0 10 g.digits),
     (o + 28, inRange 1 60000 g.staleMs)] ++ checkGlyphList (o + 32) t

/-- STAGE_GLYPHS (R361). -/
def checkGlyphs (first : Nat) (os : List GlyphCfg) : Option Nat := firstBad
  ([(0, inRange 0 2097151 first), (4, inRange 1 2047 os.length && decide (first + os.length ≤ 2097152))] ++ checkGlyphList 8 os)

/-- STAGE_GLYPH_SET (R362, R223). -/
def checkGlyphSet (id : Nat) (o : GlyphSetCfg) : Option Nat := firstBad
  ([(0, inRange 0 255 id), (4, inRange 1 64 o.cellW), (5, inRange 1 64 o.cellH), (6, inRange 0 4081 o.digitBase)] ++
   eachField 8 2 (inRange 0 4095) o.bandGlyph ++ eachField 18 1 (inRange 0 63) o.bandColour)

/-- STAGE_ATLAS (R362). -/
def checkAtlas (first : Nat) (ms : List (List Byte)) : Option Nat := firstBad
  [(0, inRange 0 4095 first), (4, inRange 1 127 ms.length && decide (first + ms.length ≤ 4096))]

/-- STAGE_COLOURS (R362). -/
def checkColours (id : Nat) (cs : List Nat) : Option Nat := firstBad ((0, decide (id = 0)) :: eachField 4 4 colourOk cs)

/-- One phase of a custom scaler set: every tap a signed 12-bit value, and the phase's sum 1,024 (R150, R362). -/
def checkPhases (off width : Nat) : List (List Int) → List FieldCheck
  | [] => []
  | p :: t => eachField off 2 (inRangeI (-2048) 2047) p ++ [(off, decide (p.foldl (· + ·) 0 = 1024))] ++
      checkPhases (off + 2 * width) width t

/-- STAGE_SCALER (R362, R150). -/
def checkScaler (id : Nat) (o : ScalerCfg) : Option Nat := firstBad
  ([(0, decide (id = 0))] ++ checkPhases 4 8 o.horiz ++ checkPhases 1028 6 o.vert)

/-- STAGE_DESK (R363, R268). -/
def checkDesk (id : Nat) (o : DeskCfg) : Option Nat := firstBad
  [(0, inRange 0 15 id), (5, laneOk o.lane), (6, inRange 8 128 o.driveN && decide (o.driveN % 8 = 0)),
   (7, inRange 4 96 o.senseN && decide (o.senseN % 4 = 0)), (8, inRange 0 2 o.mode), (9, inRange 1 255 o.driveLevel),
   (10, inRange 1 65535 o.plans), (12, inRange 0 31 o.head), (13, inRange 6 16 o.driftShift), (14, inRange 1 20 o.maxContacts),
   (16, inRange 16 256 o.filtK), (18, inRange 64 1024 o.matchRadius), (20, inRange 20 16000 o.touchThresh),
   (22, inRange 10 15999 o.hoverThresh), (24, inRange 20 16000 o.presenceThresh), (26, inRange 20 16000 o.antiThresh),
   (28, inRange 50 4000 o.driftMax), (30, inRange 5 3600 o.holdLimitS)]

/-- STAGE_QUAD (R364, R317). -/
def checkQuad (id : Nat) (o : QuadCfg) : Option Nat := firstBad
  ([(0, inRange 2 23 id), (4, decide (o.mode = 0) || inRange 2 5 o.mode), (5, inRange 0 2 o.ethRate), (6, inRange 0 1 o.ethFec),
   (7, inRange 0 1 o.ssc)] ++ eachField 12 2 (fun v => inRange 400 1000 v && decide (v % 25 = 0)) o.swing ++
   eachField 20 1 (inRange 0 7) o.ffePre ++ eachField 24 1 (inRange 0 15) o.ffePost)

/-- STAGE_DOMAIN (R365, R257). -/
def checkDomain (id : Nat) (o : DomainCfg) : Option Nat := firstBad
  [(0, inRange 0 1 id), (5, inRange 0 7 o.mac), (6, inRange 0 2 o.transport), (7, inRange 0 127 o.domainNum), (8, vlanOk o.vlan),
   (10, inRange 0 1 o.delayUnicast), (11, inRange 0 63 o.dscp), (12, inRange 10 1000000 o.lockNs),
   (16, inRange 100 10000 o.syncTimeoutMs), (20, inRange 1 86400 o.holdoverS)]

/-- STAGE_PULSE (R366, R264, R265): a TPI uses TPI_EDGE alone; TPO_PERIOD is zero outside mode 2. -/
def checkPulse (id : Nat) (o : PulseCfg) : Option Nat :=
  if id < 2 then firstBad [(4, inRange 0 3 o.tpiEdge)]
  else firstBad
    [(0, inRange 2 5 id), (4, inRange 0 3 o.mode), (5, inRange 0 2 o.base), (6, inRange 0 1 o.pol),
     (16, if o.mode = 2 then inRange 100 4000000000 o.period else decide (o.period = 0)),
     (24, decide (8 ≤ o.width) && decide (o.width ≤ if o.mode = 2 then 3999999992 else 1000000000))]

/-- STAGE_REGULATOR (R367, R304). -/
def checkRegulator (id : Nat) (o : RegulatorCfg) : Option Nat := firstBad
  [(0, inRange 0 23 id), (4, inRange 0 480000 o.rate1), (8, inRange 4096 16777216 o.burst1), (12, inRange 0 480000 o.rate2),
   (16, inRange 4096 16777216 o.burst2)]

/-- STAGE_ACCESS (R368, R388): host entries 64 to 127, whole 4 KB pages, masters 38, 41 and 42 alone. -/
def checkAccess (id : Nat) (o : AccessCfg) : Option Nat := firstBad
  [(0, inRange 64 127 id), (8, decide (o.base % 4096 = 0)), (16, decide (o.limit % 4096 = 0)),
   (24, decide (o.masters &&& (2 ^ 38 + 2 ^ 41 + 2 ^ 42) = o.masters))]

/-- The check of a staged object's own fields (R350). -/
def checkObj : StagedObj → Option Nat
  | .device c => checkDevice 0 c
  | .source i c => checkSource i c
  | .flow i c => checkFlow i c
  | .mac i c => checkMac i c
  | .dprx i c => checkDprx i c
  | .context i c => checkContext i c
  | .head i c => checkHead i c
  | .window i c => checkWindow i c
  | .encoder i c => checkEncoder i c
  | .glyphs i cs => checkGlyphs i cs
  | .glyphSet i c => checkGlyphSet i c
  | .atlas i ms => checkAtlas i ms
  | .colours cs => checkColours 0 cs
  | .scaler c => checkScaler 0 c
  | .desk i c => checkDesk i c
  | .quad i c => checkQuad i c
  | .domain i c => checkDomain i c
  | .pulse i c => checkPulse i c
  | .regulator i c => checkRegulator i c
  | .access i c => checkAccess i c

/-- The length in bytes of a staging command's parameters (R351). -/
def stagedLen : StagedObj → Nat
  | .device _ => 20
  | .source _ _ => 20
  | .flow _ _ => 88
  | .mac _ _ => 36
  | .dprx _ _ => 524
  | .context _ _ => 1044
  | .head _ _ => 40
  | .window _ _ => 56
  | .encoder _ _ => 344
  | .glyphs _ cs => 8 + 32 * cs.length
  | .glyphSet _ _ => 24
  | .atlas _ ms => 8 + 512 * ms.length
  | .colours _ => 260
  | .scaler _ => 1796
  | .desk _ _ => 56
  | .quad _ _ => 28
  | .domain _ _ => 56
  | .pulse _ _ => 32
  | .regulator _ _ => 20
  | .access _ _ => 32

end Sys2Proof.Machine
end

