-- ==== Sys2Proof/Machine/Bound.lean ====
section
/-! DEFINITION. The conditions of R9, their evaluation (R196, R129), the alarm engine (R125), and BOUND_VOID. -/

namespace Sys2Proof.Machine

open Sys2Proof

/-! ### Picture sizes (R126) -/

/-- Luma samples of the largest picture of a level of H.265, as R127 lists them. -/
def hevcLuma (level : Nat) : Nat :=
  if level ≤ 90 then 552960 else if level ≤ 93 then 983040 else if level ≤ 126 then 2228224 else 8912896

/-- Luma samples of the largest picture of a level of H.264, as R127 lists them. -/
def avcLuma (level : Nat) : Nat :=
  if level ≤ 90 then 414720 else if level ≤ 93 then 921600 else if level ≤ 96 then 1310720 else if level ≤ 123 then 2097152
  else if level ≤ 126 then 2228224 else if level ≤ 150 then 5652480 else 9437184

/-- MaxLumaPs of an H.265 level, as the standard gives it (PRESUMED, log entry 10). -/
def hevcPicture (level : Nat) : Nat :=
  if level ≤ 30 then 36864 else if level ≤ 60 then 122880 else if level ≤ 63 then 245760 else hevcLuma level

/-- Round up to a multiple of `m`. -/
def roundUp (m n : Nat) : Nat := (n + (m - 1)) / m * m

/-- Luma samples of the context's maximum picture in whole MCUs, weighted by a sampling: 1 for greyscale and 4:2:0, 4/3 for 4:2:2 and 2
for 4:4:4 (R115, R126). -/
def jpegSamples (c : ContextCfg) (chroma : Nat) : Nat :=
  if chroma = 1 then roundUp 16 c.maxWidth * roundUp 16 c.maxHeight
  else if chroma = 2 then (4 * (roundUp 16 c.maxWidth * roundUp 8 c.maxHeight) + 2) / 3
  else (if chroma = 0 then 1 else 2) * (roundUp 8 c.maxWidth * roundUp 8 c.maxHeight)

/-- S of R126: luma samples that bound a picture of the context; a JPEG context's by the sampling of its latest picture, and 4:4:4 before
its first (log entry 121). -/
def contextSamples (c : ContextCfg) (chroma : Nat) : Nat :=
  if c.codec = 0 then min (hevcLuma c.maxLevel) (roundUp 64 c.maxWidth * roundUp 64 c.maxHeight)
  else if c.codec = 1 then min (avcLuma c.maxLevel) (roundUp 16 c.maxWidth * roundUp 16 c.maxHeight)
  else min (hevcLuma c.maxLevel) (jpegSamples c chroma)

/-! ### Class-0 sources and windows -/

/-- Whether a source is defined: sources 984 to 1023 always are (R86). -/
def srcDefined (l : Layout) (i : Nat) : Bool := decide (984 ≤ i) || decide ((l.source i).kind ≠ 0)

/-- Sources of class 0 that a set defines. -/
def class0 (l : Layout) : List Nat :=
  (l.sources.filter (fun e => decide (e.2.cls = 0) && (decide (984 ≤ e.1) || decide (e.2.kind ≠ 0)))).map (fun e => e.1)

/-- Class-0 decoder-output sources of a set. -/
def class0Decoder (l : Layout) : List Nat :=
  (l.sources.filter (fun e => decide (e.2.cls = 0) && decide (e.2.kind = 2) && decide (e.1 < 984))).map (fun e => e.1)

/-- The overlay of head `h` is source 992 + h (R228). -/
def overlaySource (h : Nat) : Nat := 992 + h

/-- The part of an interval of length `w` at `x` that lies in [0, lim). -/
def clipLen (x : Int) (w lim : Nat) : Nat := (min (x + w) lim).toNat - (max x 0).toNat

/-- A window's area inside the active area of its head (R196). -/
def clippedArea (l : Layout) (w : WindowCfg) : Nat :=
  let h := l.head w.head
  clipLen w.dstX w.dstW h.hActive * clipLen w.dstY w.dstH h.vActive

/-- The box of a glyph instance (R222). -/
def glyphBox (l : Layout) (g : GlyphCfg) : Nat × Nat :=
  let s := l.glyphSets.get {} g.set
  if g.kind = 0 then (s.cellW, s.cellH) else (g.digits * s.cellW, s.cellH)

/-- Enabled class-0 windows on enabled heads, overlay windows included: number and area (R196, condition 2). -/
def class0Windows (l : Layout) : Nat × Nat :=
  let ws := l.windows.filter (fun e => e.2.enable && (l.head e.2.head).enable && decide ((l.source e.2.source).cls = 0))
  let hs := l.heads.filter (fun e => e.2.enable && decide (e.2.overlay = 1) && decide ((l.source (overlaySource e.1)).cls = 0))
  let area := ws.foldl (fun a e => a + clippedArea l e.2) 0
  let boxes := hs.foldl (fun a e => a + (l.glyphs.filter (fun g => g.2.enable && decide (g.2.head = e.1))).foldl
    (fun b g => b + (glyphBox l g.2).1 * (glyphBox l g.2).2) 0) 0
  (ws.length + hs.length, area + boxes)

/-- The active areas of the enabled heads, summed. -/
def activeArea (l : Layout) : Nat :=
  l.heads.foldl (fun a e => if e.2.enable then a + e.2.hActive * e.2.vActive else a) 0

/-! ### The conditions (R9, R196) -/

/-- Condition 1: the reserve is enabled and C30 and C31 are unfenced; a wall frame with a retraining stall fails it
(R311). -/
def cond1 (l : Layout) (s : State) : Bool :=
  decide (l.dev.memReserve = 1) && !s.isFenced 80 && !s.isFenced 81 && decide (s.mem.retrainFrame ≠ some s.raster.frame)

/-- Condition 2: at most 16 class-0 windows covering at most one eighth of the head area. -/
def cond2 (l : Layout) : Bool :=
  let c := class0Windows l
  decide (c.1 ≤ 16) && decide (8 * c.2 ≤ activeArea l)

/-- Engine `n` places after `e`, wrapping from DEC7 to DEC0. -/
def firstUnfenced (s : State) (e : Nat) : Nat → Option Nat
  | 0 => none
  | n + 1 => if s.isFenced (32 + e % 8) then firstUnfenced s (e + 1) n else some (e % 8)

/-- The engine that should be the alarm engine under a set (R125). -/
def wantedAlarm (l : Layout) (s : State) : Option Nat :=
  if (class0Decoder l).isEmpty then none else firstUnfenced s l.dev.alarmEngine 8

/-- Item 1 of R129. With no class-0 decoder output there is no alarm engine, and the item concerns no source. -/
def item1 (l : Layout) (s : State) : Bool :=
  if (class0Decoder l).isEmpty then true
  else match s.dec.alarm with
    | none => false
    | some e => !s.isFenced (32 + e) && (decide (s.dec.alarmSince + 2 ≤ s.raster.frame))

/-- Item 2 of R129, in units of 1/1,600 µs. -/
def item2 (l : Layout) (s : State) : Bool :=
  let ss := class0Decoder l
  let load := fun i => contextSamples (l.contexts.get {} (l.source i).origin) (s.dec.ctxs.get {} (l.source i).origin).chroma + 32000
  let total := ss.foldl (fun a i => a + load i) 0
  ss.all (fun i => decide (total - load i ≤ 4448000))

/-- An item that failed in the present or the previous wall frame (items 3 to 5 of R129). -/
def recentFrame (s : State) : Option Nat → Bool
  | none => false
  | some f => decide (s.raster.frame ≤ f + 1)

/-- Whether a class-0 context waits for a free pool buffer now (item 4 of R129). -/
def class0Waits (l : Layout) (s : State) : Bool :=
  s.dec.ctxs.any (fun e => e.2.waiting && decide ((l.source (l.contexts.get {} e.1).source).cls = 0))

/-- Condition 3: the items of R129. -/
def cond3 (l : Layout) (s : State) : Bool :=
  item1 l s && item2 l s && !class0Waits l s && !recentFrame s s.dec.lastSpacing && !recentFrame s s.dec.lastStall && !recentFrame s s.dec.lastRestore

/-- A reading within −40 to +105 °C (R465). -/
def tempOk (t : Int) : Bool := inRangeI (-40000) 105000 t

/-- A reading at least 2 °C inside the range (R196). -/
def tempInside (t : Int) : Bool := inRangeI (-38000) 103000 t

/-- Condition 4: it fails at a reading out of range, and holds again once every sensor has stayed 2 °C inside for a
whole wall frame (R196). -/
def cond4 (s : State) : Bool := !s.temp.failing

/-- The conditions of R9 that fail now. -/
def failingNow (s : State) : List Nat :=
  (if cond1 s.lay s then [] else [1]) ++ (if cond2 s.lay then [] else [2]) ++
  (if cond3 s.lay s then [] else [3]) ++ (if cond4 s then [] else [4])

/-- The bit mask of a list of conditions, bit c − 1 for condition c (R63). -/
def condMask (cs : List Nat) : Nat := cs.foldl (fun m c => m + 2 ^ (c - 1)) 0

/-- The conditions that concern source `i` (R196). -/
def concerns (l : Layout) (i : Nat) (cs : List Nat) : List Nat :=
  cs.filter (fun c => decide (c ≠ 3) || hasNat i (class0Decoder l))

/-- Set BOUND_VOID for one source, with its event (R11). -/
def voidOne (fs : List Nat) (i : Nat) (s : State) : State :=
  let cs := concerns s.lay i fs
  if cs.isEmpty || hasNat i s.stop.bound.void then s
  else ({ s with stop := { s.stop with bound := { s.stop.bound with void := insertSorted i s.stop.bound.void } } }).event
    0x0004 i (condMask cs)

/-- Clear BOUND_VOID for one source, with its event (R11). -/
def restoreOne (i : Nat) (s : State) : State :=
  ({ s with stop := { s.stop with bound := { s.stop.bound with void := removeNat i s.stop.bound.void } } }).event 0x0005 i 0

/-- Evaluate the conditions within a wall frame: the sources concerned become void in the same wall line (R196). -/
def boundCheck (s : State) : State :=
  let fs := failingNow s
  let s := { s with stop := { s.stop with bound := { s.stop.bound with
    failing := fs, recent := fs.foldl (fun l c => insertSorted c l) s.stop.bound.recent } } }
  (class0 s.lay).foldl (fun s i => voidOne fs i s) s

/-- The evaluation of wall line 0: sources no longer class 0 are restored, sources concerned by a failing condition
become void, and sources whose every condition has held since the previous wall line 0 are restored (R11, R196). A wait for a pool
buffer that lasts is one of this wall frame as well (R129). -/
def boundLine0 (s : State) : State :=
  let s := if class0Waits s.lay s then { s with dec := { s.dec with lastStall := some s.raster.frame } } else s
  let fs := failingNow s
  let old := s.stop.bound.recent
  let gone := s.stop.bound.void.filter (fun i => !hasNat i (class0 s.lay))
  let s := gone.foldl (fun s i => restoreOne i s) s
  let back := s.stop.bound.void.filter (fun i => (concerns s.lay i (fs ++ old)).isEmpty)
  let s := back.foldl (fun s i => restoreOne i s) s
  let s := { s with stop := { s.stop with bound := { s.stop.bound with failing := fs, recent := fs } } }
  (class0 s.lay).foldl (fun s i => voidOne fs i s) s

/-- The alarm engine follows the set and the fences: an idle engine is at a picture boundary (R124, R125). -/
def alarmUpdate (s : State) : State :=
  match wantedAlarm s.lay s with
  | none => { s with dec := { s.dec with alarm := none } }
  | some e =>
    if s.dec.alarm = some e then s
    else if (s.dec.engines.get {} e).pic.isNone then
      { s with dec := { s.dec with alarm := some e, alarmSince := s.raster.frame } }
    else match s.dec.alarm with
      | some a => if s.isFenced (32 + a) then { s with dec := { s.dec with alarm := none } } else s
      | none => s

/-- Items 1 and 2 of R129 for the set that will be in force at F (R129): item 1 fails when it fails now or when the
set would change the alarm engine or define the first class-0 decoder output. -/
def cond3AtCommit (l : Layout) (s : State) : Bool :=
  (class0Decoder l).isEmpty ||
    ((item1 s.lay s && !(class0Decoder s.lay).isEmpty && decide (wantedAlarm l s = s.dec.alarm)) && item2 l s)

/-- The conditions 2 and 3 that a set at F would break, as W_BOUND_VOID reports them (R40, R196). -/
def commitBoundMask (l : Layout) (s : State) : Nat :=
  condMask ((if cond2 l then [] else [2]) ++ (if cond3AtCommit l s then [] else [3]))

end Sys2Proof.Machine
end

