-- ==== Sys2Proof/Machine/Geometry.lean ====
section
/-! DEFINITION. Where heads, tile rows and windows lie on the raster and on the glass (R71 to R80, R77, R198). -/

namespace Sys2Proof.Machine

open Sys2Proof

/-- H_TOTAL (R198). -/
def hTotal (c : HeadCfg) : Nat := c.hActive + c.hFp + c.hSync + c.hBp

/-- V_TOTAL, the total lines of R71 (R198). -/
def vTotal (c : HeadCfg) : Nat := c.vActive + c.vFp + c.vSync + c.vBp

/-- Blanking lines before the active area: sync and back porch (R199). -/
def blankBefore (c : HeadCfg) : Nat := c.vSync + c.vBp

/-- Tile rows of a head. -/
def tileRows (c : HeadCfg) : Nat := (c.vActive + 63) / 64

/-- Tile columns of a head. -/
def tileCols (c : HeadCfg) : Nat := (c.hActive + 63) / 64

/-- Band rows of a head. -/
def bandRows (c : HeadCfg) : Nat := (c.vActive + 7) / 8

/-- The wall position at which half `h` of head frame `f` begins (R71). -/
def headStartPos (c : HeadCfg) (f h : Nat) : Nat := f * 4096 + c.phase + 2048 * h

/-- The wall position of the wall line that contains the point `x` head lines after the start of the head frame
(R77). -/
def pointPos (c : HeadCfg) (f h : Nat) (x : Int) : Int :=
  headStartPos c f h + (x * 4096) / ((1 + c.mult) * vTotal c : Nat)

/-- The wall position at which composition of tile row `r` begins, L_BEGIN tile rows ahead (R77, R143). -/
def rowBeginPos (c : HeadCfg) (f h r : Nat) : Int := pointPos c f h ((blankBefore c + 64 * r : Nat) - (64 * c.lBegin : Nat))

/-- The wall position at which tile row `r` binds, L_BIND tile rows ahead (R77, R143). -/
def rowBindPos (c : HeadCfg) (f h r : Nat) : Int := pointPos c f h ((blankBefore c + 64 * r : Nat) - (64 * c.lBind : Nat))

/-- The halves of a head frame. -/
def halves (c : HeadCfg) : List Nat := if c.mult = 1 then [0, 1] else [0]

/-- The key of tile row `r` of head `h`. -/
def rowKey (h r : Nat) : Nat := h * 128 + r

/-- The head period in ns times the denominator of the wall rate: head line period = D / ((1 + mult) × V_TOTAL). -/
def headLineNs (rate : Nat) (c : HeadCfg) (lines : Nat) : Nat :=
  lines * 1000000000 * (wallRateHz rate).2 / ((wallRateHz rate).1 * (1 + c.mult) * vTotal c)

/-- The pixel rate times the wall rate's denominator (R200). -/
def pixelRate (rate : Nat) (c : HeadCfg) : Nat :=
  hTotal c * vTotal c * (wallRateHz rate).1 * (1 + c.mult) / (wallRateHz rate).2

/-- The tile row of the topmost visible line of a window. -/
def windowTopRow (w : WindowCfg) : Nat := (max w.dstY 0).toNat / 64

/-- Whether a window has visible pixels on its head. -/
def windowVisible (l : Layout) (w : WindowCfg) : Bool :=
  w.enable && (l.head w.head).enable && decide (0 < clippedArea l w)

/-- Whether two intervals share a point. -/
def meets (a aw b bw : Int) : Bool := decide (a < b + bw) && decide (b < a + aw)

/-- Whether a rectangle of the head meets tile column `c` of tile row `r`. -/
def meetsTile (x y : Int) (w h r c : Nat) : Bool := meets x w (64 * c) 64 && meets y h (64 * r) 64

/-- Windows of a set that show source `i` on enabled heads, the overlay windows of 2,048 + n apart. -/
def windowsOf (l : Layout) (i : Nat) : List (Nat × WindowCfg) :=
  l.windows.filter (fun e => decide (e.2.source = i) && windowVisible l e.2)

/-- The first of a list of positions that recurs every 4,096 lines at offset `off` and is at least `p`. -/
def nextAt (off : Int) (p : Nat) : Int := off + ((p - off + 4095) / 4096) * 4096

/-- A head and a tile row join the topmost rows known of each head. -/
def topRow (t : List (Nat × Nat)) (x : Nat × Nat) : List (Nat × Nat) :=
  if t.any (fun y => decide (y.1 = x.1)) then t.map (fun y => if y.1 = x.1 then (y.1, min y.2 x.2) else y) else t ++ [x]

/-- The bind positions, at least `p`, of the topmost row of the source's windows on each head; overlay windows cover row 0 (R79). -/
def nextBinds (l : Layout) (i p : Nat) : List Int :=
  let wins : List (Nat × Nat) := (windowsOf l i).map (fun e => (e.2.head, windowTopRow e.2))
  let ovls : List (Nat × Nat) := (l.heads.filter (fun e => e.2.enable && decide (e.2.overlay = 1) && decide (overlaySource e.1 = i))).map (fun e => (e.1, 0))
  let rows : List (Nat × Nat) := (wins ++ ovls).foldl topRow []
  rows.foldl (fun acc hr => acc ++ (halves (l.head hr.1)).map (fun h => nextAt (rowBindPos (l.head hr.1) 0 h hr.2) p)) []

/-- The least of a list of positions. -/
def minPos : List Int → Option Int
  | [] => none
  | a :: t => match minPos t with
    | none => some a
    | some b => some (min a b)

/-- The deadline of a coded picture of source `i` whose last byte arrived at position `p`: 16 wall lines before the
earliest bind that lies at least 16 wall lines after arrival (R79), or the background deadline of its class (R123). -/
def deadline (l : Layout) (i p : Nat) : Int :=
  match minPos (nextBinds l i (p + 16)) with
  | some b => b - 16
  | none => p + (if (l.source i).cls = 0 then 1024 else if (l.source i).cls = 1 then 4096 else 8192)

/-- Bytes per line of a plane of a frame (R109). -/
def lineBytes (format width : Nat) : Nat :=
  if format = 1 then width else if format = 2 then 2 * width else if format = 3 then 5 * width / 2
  else if format = 4 then 15 * width / 4 else if format = 5 then 3 * width else if format = 6 then 4 * width
  else if format = 7 then 4 * width else if format = 8 then 2 * width else width

/-- PITCH: a line's bytes rounded up to a multiple of 256 (R295). -/
def pitchOf (format width : Nat) : Nat := roundUp 256 (lineBytes format width)

/-- Stored lines of a frame, all planes (R109). -/
def storedLines (format height : Nat) : Nat :=
  if format = 1 || format = 2 then height + (height + 1) / 2
  else if format = 9 then 2 * height else if format = 10 then 3 * height else height

end Sys2Proof.Machine
end

