-- ==== Sys2Proof/Machine/Tiles.lean ====
section
/-! DEFINITION. Which contributors are visible in a tile, and the layer pixels of a set (R144, R145). -/

namespace Sys2Proof.Machine

open Sys2Proof

/-- A rectangle of head pixels, by its edges. -/
structure Box where
  x0 : Int
  y0 : Int
  x1 : Int
  y1 : Int
  deriving DecidableEq, Repr

/-- The common part of two boxes. -/
def Box.meet (a b : Box) : Box := ⟨max a.x0 b.x0, max a.y0 b.y0, min a.x1 b.x1, min a.y1 b.y1⟩

/-- Whether a box holds a pixel. -/
def Box.some (a : Box) : Bool := decide (a.x0 < a.x1) && decide (a.y0 < a.y1)

/-- The pixels of a box. -/
def Box.area (a : Box) : Nat := (a.x1 - a.x0).toNat * (a.y1 - a.y0).toNat

/-- Whether box `a` covers all of box `b`. -/
def Box.covers (a b : Box) : Bool := decide (a.x0 ≤ b.x0) && decide (a.y0 ≤ b.y0) && decide (b.x1 ≤ a.x1) && decide (b.y1 ≤ a.y1)

/-- Whether a box holds the pixel (x, y). -/
def Box.has (a : Box) (x y : Int) : Bool := decide (a.x0 ≤ x) && decide (x < a.x1) && decide (a.y0 ≤ y) && decide (y < a.y1)

/-- A window's rectangle on its head. -/
def windowBox (w : WindowCfg) : Box := ⟨w.dstX, w.dstY, w.dstX + w.dstW, w.dstY + w.dstH⟩

/-- The active area of a head. -/
def activeBox (c : HeadCfg) : Box := ⟨0, 0, c.hActive, c.vActive⟩

/-- The active part of tile (row, col) of a head (R145). -/
def tileBox (c : HeadCfg) (row col : Nat) : Box := (activeBox c).meet ⟨64 * col, 64 * row, 64 * col + 64, 64 * row + 64⟩

/-- The ID of the overlay window of a head (R142). -/
def overlayWindow (h : Nat) : Nat := 2048 + h

/-- Enabled host windows of a head. -/
def headWindows (l : Layout) (h : Nat) : List (Nat × WindowCfg) :=
  l.windows.filter (fun e => e.2.enable && decide (e.2.head = h))

/-- Insert a window by falling layer; equal layers by falling ID, which overlap nowhere (R143). -/
def insertTop (w : Nat × WindowCfg) : List (Nat × WindowCfg) → List (Nat × WindowCfg)
  | [] => [w]
  | v :: t => if v.2.layer < w.2.layer || (v.2.layer = w.2.layer && v.1 < w.1) then w :: v :: t else v :: insertTop w t

/-- Windows of a head, highest layer first. -/
def topFirst (l : Layout) (h : Nat) : List (Nat × WindowCfg) := (headWindows l h).foldr insertTop []

/-- The visible part of a list of windows, highest first: those that meet the tile, down to the first OPAQUE one that
covers it; the Bool says that such a one was met, so that nothing beneath is visible. -/
def visibleIn (t : Box) : List (Nat × WindowCfg) → List (Nat × WindowCfg) × Bool
  | [] => ([], false)
  | w :: ws =>
    let b := windowBox w.2
    if !(b.meet t).some then visibleIn t ws
    else if w.2.blend = 0 && b.covers t then ([w], true)
    else
      let r := visibleIn t ws
      (w :: r.1, r.2)

/-- The box of a glyph instance on its head. -/
def glyphRect (l : Layout) (g : GlyphCfg) : Box :=
  let b := glyphBox l g
  ⟨g.x, g.y, g.x + b.1, g.y + b.2⟩

/-- Whether the overlay window is visible in a tile: some enabled instance's box touches it (R145). -/
def overlayVisible (l : Layout) (h : Nat) (t : Box) : Bool :=
  decide ((l.head h).overlay = 1) &&
    l.glyphs.any (fun g => g.2.enable && decide (g.2.head = h) && ((glyphRect l g.2).meet t).some)

/-- Visible contributors of a tile: windows, then the background, then the overlay (R145). -/
def visibleCount (l : Layout) (h row col : Nat) : Nat :=
  let t := tileBox (l.head h) row col
  let v := visibleIn t (topFirst l h)
  v.1.length + (if v.2 then 0 else 1) + (if overlayVisible l h t then 1 else 0)

/-- The tiles of a head in row order, as (row, col). -/
def tilesOf (c : HeadCfg) : List (Nat × Nat) :=
  ((List.range (tileRows c)).map (fun r => (List.range (tileCols c)).map (fun k => (r, k)))).flatten

/-- The first tile with more than four visible contributors, as E_DENSITY reports it (R40, R145). -/
def tooDense (l : Layout) : Option Nat :=
  l.enabledHeads.findSome? (fun h =>
    (tilesOf (l.head h)).findSome? (fun t =>
      if 4 < visibleCount l h t.1 t.2 then some (h + 256 * t.2 + 65536 * t.1) else none))

/-! ### Layer pixels (R144) -/

/-- Boxes of the enabled windows of a head, its overlay window included. -/
def coverBoxes (l : Layout) (h : Nat) : List Box :=
  (headWindows l h).map (fun w => windowBox w.2) ++ (if (l.head h).overlay = 1 then [activeBox (l.head h)] else [])

/-- Insert into a rising list without repeats. -/
def insertInt (k : Int) : List Int → List Int
  | [] => [k]
  | j :: t => if j = k then j :: t else if k < j then k :: j :: t else j :: insertInt k t

/-- Consecutive pairs of a rising list. -/
def spans : List Int → List (Int × Int)
  | a :: b :: t => (a, b) :: spans (b :: t)
  | _ => []

/-- The area of `a` that no box covers, summed over the grid that the boxes' edges cut. -/
def uncovered (a : Box) (bs : List Box) : Nat :=
  let cs := (bs.map (fun b => b.meet a)).filter Box.some
  let xs := spans ((cs.foldl (fun l b => insertInt b.x0 (insertInt b.x1 l)) (insertInt a.x0 [a.x1])))
  let ys := spans ((cs.foldl (fun l b => insertInt b.y0 (insertInt b.y1 l)) (insertInt a.y0 [a.y1])))
  ys.foldl (fun n y => xs.foldl (fun n x => if cs.any (fun b => b.has x.1 y.1) then n else n + (x.2 - x.1).toNat * (y.2 - y.1).toNat) n) 0

/-- Layer pixels inside a box: the windows' areas and the area that none covers. -/
def layerPixels (a : Box) (bs : List Box) : Nat := (bs.foldl (fun n b => n + (b.meet a).area) 0) + uncovered a bs

/-- Whether a class-0 window, the overlay window included, touches a tile. -/
def class0Touches (l : Layout) (h : Nat) (t : Box) : Bool :=
  (headWindows l h).any (fun w => decide ((l.source w.2.source).cls = 0) && ((windowBox w.2).meet t).some) ||
  (decide ((l.head h).overlay = 1) && decide ((l.source (overlaySource h)).cls = 0))

/-- A + K of one head. -/
def headLoad (l : Layout) (h : Nat) : Nat :=
  let c := l.head h
  let bs := coverBoxes l h
  layerPixels (activeBox c) bs + (tilesOf c).foldl (fun n t =>
    let b := tileBox c t.1 t.2
    if class0Touches l h b then n + layerPixels b bs else n) 0

/-- Whether the composition load stays within 32 Gpixel/s. -/
def loadOk (l : Layout) : Bool :=
  let hz := wallRateHz l.dev.wallRate
  decide (l.enabledHeads.foldl (fun n h => n + (1 + (l.head h).mult) * headLoad l h) 0 * hz.1 ≤ 32000000000 * hz.2)

/-- Whether no pixel of a head lies under more than sixteen windows: the most are met at a corner of left and top edges. -/
def depthOk (l : Layout) (h : Nat) : Bool :=
  let bs := ((coverBoxes l h).map (fun b => b.meet (activeBox (l.head h)))).filter Box.some
  bs.all (fun p => bs.all (fun q => decide ((bs.filter (fun b => b.has p.x0 q.y0)).length ≤ 16)))

/-- The Braid's capacity (R144). -/
def braidFits (l : Layout) : Bool :=
  decide (l.windows.length ≤ 2048) && (List.range 32).all (fun h => decide ((headWindows l h).length ≤ 256)) &&
    l.enabledHeads.all (depthOk l) && loadOk l

end Sys2Proof.Machine
end

