-- ==== Sys2Proof/Machine/Pixels.lean ====
section
/-! DEFINITION. From source pixels to head pixels: frame formats (R109), chroma upsampling (R148), scaling (R149, R150,
R475), colour conversion (R151), blending (R152), and the pixel words of a slot (R153). -/

namespace Sys2Proof.Machine

open Sys2Proof

/-- A pixel's three 10-bit components. -/
abbrev Rgb := Nat × Nat × Nat

/-- Apply `f` to each component number. -/
def rgbOf (f : Nat → Nat) : Rgb := (f 0, f 1, f 2)

/-- A 30-bit colour word as components (R153). -/
def rgbOfWord (w : Nat) : Rgb := (w / 1048576 % 1024, w / 1024 % 1024, w % 1024)

/-- A pixel word with its PROV_SLOT (R153). -/
def pixelWord (slot : Nat) (c : Rgb) : Word := BitVec.ofNat 32 (slot * 1073741824 + c.1 * 1048576 + c.2.1 * 1024 + c.2.2)

/-! ### Stored samples (R109) -/

/-- A byte of a stored frame. -/
def FrameBuf.byte (f : FrameBuf) (line off : Nat) : Nat := (((f.lines.getD line []).getD off 0#8)).toNat

/-- A little-endian 16-bit value of a stored frame. -/
def FrameBuf.half (f : FrameBuf) (line off : Nat) : Nat := f.byte line off + 256 * f.byte line (off + 1)

/-- A big-endian number of `n` bytes, as ST 2110-20 pixel groups pack samples (PRESUMED, log entry 10). -/
def FrameBuf.be (f : FrameBuf) (line off : Nat) : Nat → Nat
  | 0 => 0
  | n + 1 => f.be line off n * 256 + f.byte line (off + n)

/-- The 10-bit field `k` of a pixel group of `n` bytes. -/
def FrameBuf.group (f : FrameBuf) (line off n k : Nat) : Nat := f.be line off n / 2 ^ (8 * n - 10 * (k + 1)) % 1024

/-- Whether a format holds YCbCr (R109). -/
def isYcc (format : Nat) : Bool := inRange 1 3 format || inRange 8 10 format

/-- Whether a format holds 8-bit components (R109). -/
def is8bit (format : Nat) : Bool := decide (format = 1) || decide (format = 5) || decide (format = 6) || inRange 8 10 format

/-- Horizontal and vertical subsampling of chroma (R109). -/
def subOf (format : Nat) : Bool × Bool :=
  (inRange 1 3 format || decide (format = 8) || decide (format = 9), decide (format = 1) || decide (format = 2))

/-- Component `c` at place (x, y) of its own grid, as stored (R109). -/
def FrameBuf.raw (f : FrameBuf) (c x y : Nat) : Nat :=
  match f.format with
  | 1 => if c = 0 then f.byte y x else f.byte (f.height + y) (2 * x + (c - 1))
  | 2 => if c = 0 then f.half y (2 * x) / 64 else f.half (f.height + y) (4 * x + 2 * (c - 1)) / 64
  | 3 => if c = 0 then f.group y (5 * (x / 2)) 5 (1 + 2 * (x % 2)) else f.group y (5 * x) 5 (2 * (c - 1))
  | 4 => f.group y (15 * (x / 4)) 15 (3 * (x % 4) + c)
  | 5 => f.byte y (3 * x + c)
  | 6 => f.byte y (4 * x + (2 - c))
  | 7 => (f.half y (4 * x) + 65536 * f.half y (4 * x + 2)) / 2 ^ (20 - 10 * c) % 1024
  | 8 => if c = 0 then f.byte y (4 * (x / 2) + 1 + 2 * (x % 2)) else f.byte y (4 * x + 2 * (c - 1))
  | 9 => if c = 0 then f.byte y x else f.byte (f.height + y) (2 * x + (c - 1))
  | _ => f.byte (c * f.height + y) x

/-! ### Extension and chroma upsampling (R148) -/

/-- A component in 10 bits. -/
def extend10 (format : Nat) (full : Bool) (v : Nat) : Nat :=
  if !is8bit format then v else if isYcc format && !full then 4 * v else 4 * v + v / 64

/-- The two chroma samples that luma place `i` lies between, with weights in quarters, held inside the crop. -/
def chromaTaps (sub centred : Bool) (lo hi i : Nat) : List (Nat × Nat) :=
  if !sub then [(i, 4)]
  else
    let u : Int := 2 * i - (if centred then 1 else 0)
    let k := u / 4
    let f := (u % 4).toNat
    let hold := fun (j : Int) => (max (min j ((hi - 1) / 2 : Nat)) (lo / 2 : Nat)).toNat
    [(hold k, 4 - f), (hold (k + 1), f)]

/-- The clamped crop of a window on a frame: left, top, right and bottom edge (R147). -/
def cropOf (w : WindowCfg) (f : FrameBuf) : Nat × Nat × Nat × Nat :=
  (w.srcX, w.srcY, min (w.srcX + w.srcW) f.width, min (w.srcY + w.srcH) f.height)

/-- Component `c` on the luma grid in 10 bits (R148). -/
def upsampled (w : WindowCfg) (f : FrameBuf) (c x y : Nat) : Nat :=
  let k := cropOf w f
  let sub := if c = 0 || !isYcc f.format then (false, false) else subOf f.format
  let full := decide (w.range = 1)
  let hs := chromaTaps sub.1 (decide (w.siting = 1)) k.1 k.2.2.1 x
  let vs := chromaTaps sub.2 true k.2.1 k.2.2.2 y
  (vs.foldl (fun a v => hs.foldl (fun a h => a + v.2 * h.2 * extend10 f.format full (f.raw c h.1 v.1)) a) 0 + 8) / 16

/-! ### Filter coefficients (R150, R475) -/

/-- 2^128, the unit of the fixed-point sine. -/
def fixOne : Int := 340282366920938463463374607431768211456

/-- π in units of 2^−128. -/
def fixPi : Int := 1069028584064966747859680373161870783300

/-- The terms of the sine series from `t` on, with x² given. -/
def sinTerms (x2 : Int) : Nat → Nat → Int → Int
  | 0, _, _ => 0
  | n + 1, k, t => t + sinTerms x2 n (k + 2) (-(t * x2 / fixOne) / ((k + 1) * (k + 2) : Nat))

/-- sin(π × num / den) for 0 ≤ num / den ≤ 1/2, in units of 2^−128. -/
def sinFix (num den : Nat) : Int :=
  let x := fixPi * num / den
  sinTerms (x * x / fixOne) 24 1 x

/-- sinc(num / den) in units of 2^−128 (R475). -/
def sincFix (num den : Nat) : Int :=
  if num = 0 then fixOne
  else
    let v := num % (2 * den)
    let neg := decide (den ≤ v)
    let v := if neg then v - den else v
    let v := if den < 2 * v then den - v else v
    let s := sinFix v den
    (if neg then -s else s) * fixOne / (fixPi * num / den)

/-- The weight of tap `j` at phase `p` for the remaining factor rn / rd, where the filter has 2 × m taps (R475). -/
def tapWeight (m rn rd p j : Nat) : Int :=
  let t : Int := 64 * (j : Int) - 64 * ((m : Int) - 1) - p
  let c := if rd ≤ rn then (1, 1) else (rn, rd)
  if 64 * m ≤ t.natAbs then 0
  else (c.1 : Int) * sincFix (c.1 * t.natAbs) (64 * c.2) * sincFix t.natAbs (64 * m) / ((c.2 : Int) * fixOne)

/-- The tap nearest to x (R150, R475). -/
def nearTap (m p : Nat) : Nat := if p < 32 then m - 1 else m

/-- The built-in windowed-sinc set (R475). -/
def sharpSet (m rn rd p : Nat) : List Int :=
  let ws := (List.range (2 * m)).map (tapWeight m rn rd p)
  let sum := ws.foldl (fun a b => a + b) 0
  let cs := ws.map (fun w => (2048 * w + sum) / (2 * sum))
  let d := 1024 - cs.foldl (fun a b => a + b) 0
  (List.range (2 * m)).map (fun j => cs.getD j 0 + (if j = nearTap m p then d else 0))

/-- The coefficients of a filter at phase `p` (R150). -/
def coefficients (filter m rn rd p : Nat) (custom : List (List Int)) : List Int :=
  if filter = 0 then sharpSet m rn rd p
  else if filter = 1 then (List.range (2 * m)).map (fun j => if j = m - 1 then 1024 - 16 * (p : Int) else if j = m then 16 * (p : Int) else 0)
  else if filter = 2 then (List.range (2 * m)).map (fun j => if j = nearTap m p then 1024 else 0)
  else custom.getD p []

/-! ### Scaling (R149) -/

/-- Where a window pixel falls in one direction: the averaging group, the remaining factor as a fraction, the base
sample and the phase (R149, steps 1 to 4). -/
structure Axis where
  group : Nat
  rn : Nat
  rd : Nat
  base : Int
  phase : Nat
  deriving DecidableEq, Repr

/-- The place of window pixel `i` where `dst` pixels show `src` samples. With averaging the position counts averaged
samples from the crop's start (DEDUCED, log entry 10). -/
def axisOf (dst src i : Nat) : Axis :=
  let g : Nat := if src ≤ 2 * dst then 1 else if src ≤ 4 * dst then 2 else if src ≤ 8 * dst then 4 else 8
  let x : Int := 65536 * ((2 * (i : Int) + 1) * src - (dst : Int) * g) / (2 * (dst : Int) * g)
  let p := ((x % 65536).toNat * 64 + 32768) / 65536
  { group := g, rn := dst * g, rd := src, base := if p = 64 then x / 65536 + 1 else x / 65536, phase := if p = 64 then 0 else p }

/-- Hold a sample number inside [lo, hi). -/
def holdIn (lo hi : Nat) (i : Int) : Nat := (max (min i ((hi : Int) - 1)) lo).toNat

/-- The rounded average of a group (R149, step 2). -/
def average (g : Nat) (f : Nat → Nat) : Nat := ((List.range g).foldl (fun a i => a + 2 * f i) 0 + g) / (2 * g)

/-- The sum of coefficients times samples from tap number `j` on. -/
def tapSum (f : Nat → Nat) : Nat → List Int → Int
  | _, [] => 0
  | j, c :: t => c * (f j : Int) + tapSum f (j + 1) t

/-- Hold a value inside 0 to `top`. -/
def holdTop (top : Nat) (v : Int) : Nat := min v.toNat top

/-- The intermediate sample of line `y` of component `c` (R149, step 7). With averaging, a group beyond the crop averages repeats of the edge
sample (log entry 130). -/
def horizontalPass (w : WindowCfg) (f : FrameBuf) (a : Axis) (cs : List Int) (c y : Nat) : Nat :=
  let k := cropOf w f
  let sample := fun (j : Nat) => average a.group (fun i =>
    upsampled w f c (holdIn k.1 k.2.2.1 (k.1 + (a.base + (j : Int) - 3) * a.group + i)) y)
  holdTop 16383 ((tapSum sample 0 cs + 32) / 64)

/-- Component `c` of the window pixel whose places are `a` and `b` (R149). -/
def scaled (w : WindowCfg) (f : FrameBuf) (a b : Axis) (hs vs : List Int) (c : Nat) : Nat :=
  let k := cropOf w f
  let sample := fun (j : Nat) => average b.group (fun i =>
    horizontalPass w f a hs c (holdIn k.2.1 k.2.2.2 (k.2.1 + (b.base + (j : Int) - 2) * b.group + i)))
  holdTop 1023 ((tapSum sample 0 vs + 8192) / 16384)

/-! ### Colour conversion and blending (R151, R152) -/

/-- The matrix coefficients a, b, c and d in units of 2^−12 (R151). -/
def matrixOf (m : Nat) : Int × Int × Int × Int := if m = 0 then (6450, 767, 1917, 7601) else (6040, 674, 2340, 7706)

/-- An exact fraction times 1,023, rounded to nearest with halves up and clamped (R151). -/
def toComponent (num den : Int) : Nat := holdTop 1023 ((2 * 1023 * num + den) / (2 * den))

/-- Conversion of a YCbCr pixel (R151). -/
def yccToRgb (matrix : Nat) (full : Bool) (p : Rgb) : Rgb :=
  let m := matrixOf matrix
  let yd : Int := if full then 1023 else 876
  let cd : Int := if full then 1023 else 896
  let y : Int := ((p.1 : Int) - (if full then 0 else 64)) * cd * 4096
  let cb : Int := ((p.2.1 : Int) - 512) * yd
  let cr : Int := ((p.2.2 : Int) - 512) * yd
  let den := yd * cd * 4096
  (toComponent (y + m.1 * cr) den, toComponent (y - m.2.1 * cb - m.2.2.1 * cr) den, toComponent (y + m.2.2.2 * cb) den)

/-- Conversion of an RGB component (R151). -/
def rgbRange (full : Bool) (v : Nat) : Nat := if full then v else toComponent ((v : Int) - 64) 876

/-- A window pixel's colour after conversion (R151). -/
def converted (w : WindowCfg) (format : Nat) (p : Rgb) : Rgb :=
  let full := decide (w.range = 1)
  if isYcc format then yccToRgb w.matrix full p else (rgbRange full p.1, rgbRange full p.2.1, rgbRange full p.2.2)

/-- Whether the source position of a window pixel falls inside the clamped crop in one direction: SRC + (i + 0.5) / s, which stays at or above
the crop's start, lies before its clamped end (R147; which position is meant is log entry 129). -/
def insideCrop (dst src i lo hi : Nat) : Bool := decide ((2 * i + 1) * src + 2 * dst * lo < 2 * dst * hi)

/-- The pixel of a window at head pixel (x, y), from the frame its seal names or from none (R147, R149, R151). -/
def windowPixel (sc : ScalerCfg) (w : WindowCfg) (f : Option FrameBuf) (x y : Int) : Rgb :=
  match f with
  | none => rgbOfWord w.fill
  | some f =>
    let i := (x - w.dstX).toNat
    let j := (y - w.dstY).toNat
    let k := cropOf w f
    if insideCrop w.dstW w.srcW i k.1 k.2.2.1 && insideCrop w.dstH w.srcH j k.2.1 k.2.2.2 then
      let a := axisOf w.dstW w.srcW i
      let b := axisOf w.dstH w.srcH j
      let hs := coefficients w.filter 4 a.rn a.rd a.phase sc.horiz
      let vs := coefficients w.filter 3 b.rn b.rd b.phase sc.vert
      converted w f.format (rgbOf (scaled w f a b hs vs))
    else rgbOfWord w.fill

/-- ALPHA blending of one component (R152). -/
def blend1 (alpha top below : Nat) : Nat := (alpha * top + (1023 - alpha) * below + 511) / 1023

/-- ALPHA blending (R152). -/
def blend (alpha : Nat) (top below : Rgb) : Rgb :=
  (blend1 alpha top.1 below.1, blend1 alpha top.2.1 below.2.1, blend1 alpha top.2.2 below.2.2)

end Sys2Proof.Machine
end

