-- ==== Sys2Proof/Machine/Nal.lean ====
section
/-! DEFINITION. What a decode context receives: RTP payloads (R116), NAL units and slices that are lost (R117, R134), parameter sets
(R114, R118, R120), sequences that an engine decodes (R113), and JPEG data (R118, R135). -/

namespace Sys2Proof.Machine

open Sys2Proof

/-! ### Formats (R113) -/

/-- Whether an engine decodes a sequence: profile, tools, sampling and depth (R113). -/
def seqSupported (codec : Nat) (q : SeqParams) : Bool :=
  q.tools.isEmpty &&
  (if codec = 0 then decide (q.chroma = 1) && ((decide (q.profile = .main) && decide (q.depth = 8)) || (decide (q.profile = .main10) && (decide (q.depth = 8) || decide (q.depth = 10))))
   else if codec = 1 then decide (q.chroma = 1) && decide (q.depth = 8) && (decide (q.profile = .constrainedBaseline) || decide (q.profile = .avcMain) || decide (q.profile = .high))
   else decide (q.profile = .jpegBaseline) && decide (q.depth = 8) && decide (q.chroma ≤ 3))

/-! ### Payloads (R116) -/

/-- Whether a context accepts a packet's payload by the flow's type (R116). -/
def payloadOk (type : Nat) : RtpPayload → Bool
  | .none => false
  | .units k don _ => if type = 0 then decide (k ≤ 48) && !don else decide (type = 1) && decide (1 ≤ k) && decide (k ≤ 24)
  | .fragment k don _ _ _ => if type = 0 then decide (k = 49) && !don else decide (type = 1) && decide (k = 28)
  | .jpeg p => decide (type = 2) && (decide (p.type ≤ 1) || decide (p.type = 64) || decide (p.type = 65)) &&
      ((decide (1 ≤ p.q) && decide (p.q ≤ 99)) || (decide (128 ≤ p.q) && decide (p.q ≤ 255)))

/-! ### NAL units (R117) -/

/-- The NAL units gathered so far, the latest first, with none for a lost one; the one that fragments are building; and whether the
context waits for a packet that begins one. -/
structure Gather where
  units : List (Option NalUnit) := []
  build : Option NalUnit := none
  skip : Bool := false

/-- A NAL unit whose end fragment never came is lost. -/
def Gather.close (g : Gather) : Gather := if g.build.isSome then { g with units := none :: g.units, build := none } else g

/-- One packet in sequence order; none is one that is missing or was refused. Packets missing in a row are taken for one NAL unit (log
entry 119). -/
def Gather.step (g : Gather) : Option RtpPayload → Gather
  | some (.units _ _ ns) =>
    let g := g.close
    { units := (ns.map some).reverse ++ g.units, build := none, skip := false }
  | some (.fragment _ _ true last n) =>
    let g := g.close
    if last then { units := some n :: g.units, build := none, skip := false } else { g with build := some n, skip := false }
  | some (.fragment _ _ false last _) =>
    match g.build with
    | some n => if last then { g with units := some n :: g.units, build := none } else g
    | none => if g.skip then g else { g with units := none :: g.units, skip := true }
  | _ => if g.skip then g else { units := none :: g.units, build := none, skip := true }

/-- The NAL units of a coded picture from its packets in sequence order (R117). -/
def gatherUnits (ps : List (Option RtpPayload)) : List (Option NalUnit) := (ps.foldl Gather.step {}).close.units.reverse

/-- Insert a packet by its sequence number. -/
def insertPart (p : Nat × Option RtpPayload) : List (Nat × Option RtpPayload) → List (Nat × Option RtpPayload)
  | [] => [p]
  | q :: t => if p.1 ≤ q.1 then p :: q :: t else q :: insertPart p t

/-- The packets of a frame in sequence order: those received, with what they carry where it is accepted, and those lost. -/
def partsInOrder (type : Nat) (got : List (Nat × RtpPayload)) (lost : List Nat) : List (Option RtpPayload) :=
  let here : List (Nat × Option RtpPayload) := got.map (fun p => (p.1, if payloadOk type p.2 then some p.2 else none))
  let gone : List (Nat × Option RtpPayload) := lost.map (fun q => (q, none))
  ((here ++ gone).foldr insertPart []).map (fun p => p.2)

/-! ### Parameter sets (R114, R118, R120) -/

/-- Whether two parameter sets have one ID. -/
def sameSet : ParamSet → ParamSet → Bool
  | .vps a, .vps b => decide (a = b)
  | .sps a _ _, .sps b _ _ => decide (a = b)
  | .pps a _, .pps b _ => decide (a = b)
  | _, _ => false

/-- A parameter set replaces the one of its ID (R118). -/
def takeParam (ps : List ParamSet) (p : ParamSet) : List ParamSet := p :: ps.filter (fun q => !sameSet q p)

/-- The sequence that a picture parameter set leads to, where it and the sets that it refers to were received (R120). -/
def seqOf (codec : Nat) (ps : List ParamSet) (pps : Nat) : Option SeqParams :=
  ps.findSome? (fun p => match p with
    | .pps i j => if i = pps then
        ps.findSome? (fun q => match q with
          | .sps k v seq => if k = j && (decide (codec ≠ 0) || ps.any (fun r => decide (r = .vps v))) then some seq else none
          | _ => none)
        else none
    | _ => none)

/-- The parameter sets among NAL units, in order. -/
def paramsIn (us : List (Option NalUnit)) : List ParamSet :=
  us.filterMap (fun u => match u with | some (.params p) => some p | _ => none)

/-- The count of the recovery point SEI among NAL units (R120). -/
def recoveryIn (us : List (Option NalUnit)) : Option Nat :=
  us.findSome? (fun u => match u with | some (.sei (some n)) => some n | _ => none)

/-! ### Slices (R134) -/

/-- The slices of a picture as its segments give them, the latest first: the ID of the picture parameter set, whether no segment of it
is known to be lost, and the header where its first segment was received. `lost` counts the lost NAL units that belong to none of them, and `loss` says that one has just
been met. -/
structure SliceScan where
  slices : List (Nat × Bool × Option PicDesc) := []
  lost : Nat := 0
  loss : Bool := false

/-- One NAL unit of a picture. A lost unit before a dependent segment belongs to that segment's slice; any other is taken for a slice
(R134; log entry 119). -/
def SliceScan.step (g : SliceScan) : Option NalUnit → SliceScan
  | none => { g with lost := if g.loss then g.lost + 1 else g.lost, loss := true }
  | some (.slice false pps h) => { slices := (pps, true, some h) :: g.slices, lost := if g.loss then g.lost + 1 else g.lost, loss := false }
  | some (.slice true pps _) =>
    match g.slices with
    | [] => { slices := [(pps, false, none)], lost := g.lost, loss := false }
    | x :: t => { slices := (x.1, x.2.1 && !g.loss, x.2.2) :: t, lost := g.lost, loss := false }
  | some _ => g

/-- The slices of a picture in order, and how many other NAL units were lost. -/
def slicesOf (us : List (Option NalUnit)) : List (Nat × Bool × Option PicDesc) × Nat :=
  let g := us.foldl SliceScan.step {}
  (g.slices.reverse, if g.loss then g.lost + 1 else g.lost)

/-! ### JPEG data (R118, R135) -/

/-- The stretches of MCUs whose data is missing, and the MCU that comes next: each from the MCU that the data before it reached to the
first one of the data after it. `gap` says that a packet is missing; the last stretch is open. -/
def scanBreaks : Nat → Bool → List (Option JpegPart) → List (Nat × Nat) × Nat × Bool
  | next, gap, [] => ([], next, gap)
  | next, _, none :: t => scanBreaks next true t
  | next, gap, some p :: t =>
    let r := scanBreaks (max next p.last) false t
    (if gap || decide (p.first ≠ next) then (next, p.first) :: r.1 else r.1, r.2)

/-- The first part of a JPEG picture that was received. -/
def firstPart (ps : List (Option JpegPart)) : Option JpegPart := ps.findSome? id

/-- Whether the first packet of a JPEG picture was received: its first part begins with MCU 0 and nothing before it is lost. -/
def hasFirst : List (Option JpegPart) → Bool
  | some p :: _ => decide (p.first = 0)
  | _ => false

/-- The JPEG parts among packets, none for a missing one. -/
def jpegParts (ps : List (Option RtpPayload)) : List (Option JpegPart) :=
  ps.map (fun p => match p with | some (.jpeg q) => some q | _ => none)

/-- The MCUs of a stretch, up to the next restart marker at or after `b`; to the end `n` where there is none (R135). -/
def stretch (restart n a b : Nat) : List Nat :=
  let z := if restart = 0 then n else min n ((b + (restart - 1)) / restart * restart)
  (List.range (z - a)).map (fun i => a + i)

/-- MCUs, CTUs or macroblocks of side `n` and height `m` in a picture. -/
def unitsIn (width height n m : Nat) : Nat := (width + (n - 1)) / n * ((height + (m - 1)) / m)

/-- The height of a unit: an MCU of a 4:2:2 JPEG picture is half as high as it is wide. -/
def unitHeight (jpeg422 : Bool) (n : Nat) : Nat := if jpeg422 then n / 2 else n

/-! ### A coded picture as its context reads it -/

/-- What a context makes of a coded picture with the parameter sets and the quantisation tables that it has (R117, R118, R120, R134,
R135). One of which no slice, or no JPEG packet, was received is as if it had never been (log entry 119). -/
def CodedPic.read (codec : Nat) (params : List ParamSet) (tables : List Byte) (p : CodedPic) : Option CodedPic :=
  if codec = 2 then
    (firstPart p.scan).map (fun h =>
      let b := scanBreaks 0 false p.scan
      { p with desc := {}, seq := some h.seq, restart := h.restart
               breaks := if b.2.2 || p.scanOpen then b.1 ++ [(b.2.1, unitsIn h.seq.width h.seq.height h.seq.ctuSize (unitHeight (decide (h.seq.chroma = 2)) h.seq.ctuSize))] else b.1
               blank := !hasFirst p.scan && decide (128 ≤ h.q) && (decide (h.q = 255) || tables.isEmpty) })
  else
    let g := slicesOf p.units
    (g.1.findSome? (fun x => x.2.2)).map (fun h =>
      let seq := g.1.findSome? (fun x => seqOf codec params x.1)
      { p with desc := { h with recovery := recoveryIn p.units, reorder := (seq.map (fun q => q.reorder)).getD 0 }, seq := seq
               slices := g.1.map (fun x => x.2.1 && (seqOf codec params x.1).isSome), sliceLoss := g.2 })

/-- The quantisation tables that a JPEG picture leaves: those of its first packet, unless its Q is 255 (R118). -/
def CodedPic.tablesAfter (old : List Byte) (p : CodedPic) : List Byte :=
  match firstPart p.scan with
  | some h => if h.tables.isEmpty || decide (h.q = 255) then old else h.tables
  | none => old

end Sys2Proof.Machine
end

