-- ==== Sys2Proof/Machine/Reeve.lean ====
section
/-! DEFINITION. Reeve: source buffers and their marks (R88, R132), the decode contexts' pools, and the choice of the
picture that an engine takes (R120 to R125, R130, R132). -/

namespace Sys2Proof.Machine

open Sys2Proof

/-! ### Buffers and the HELD mark (R30, R88, R132) -/

/-- The device address of page `n` of the reserve window (`win`), or of the general region on both sides of it (R293, R297). -/
def pageAddr (win : Bool) (n : Nat) : Nat :=
  if win then 0x800000000 + 4096 * (n % 1015808)
  else
    let a := 4096 * (n % 15237120)
    if a < 0x800000000 then a else a + 0xF8000000

/-- The device address of buffer `b`: a 4 KB page of the reserve or of the general region that Cleat chose (R87, R295, R297; a
free value, log entry 5). -/
def bufAddr (win : Bool) (b : Nat) : Nat := pageAddr win (Config.freeNat b)

/-- Whether what belongs to a source lies in the reserve: it is class 0 and the reserve is enabled (R87, R105, R297). -/
def State.alarmSide (s : State) (i : Nat) : Bool := decide ((s.lay.source i).cls = 0) && decide (s.lay.dev.memReserve = 1)

/-- Allocate a source's buffers afresh: 128 free values stand for their places (R87, R295). -/
def State.allocSource (i : Nat) (s : State) : State :=
  { (s.modSrc i (fun rt => { rt with allocAt := s.free, inReserve := s.alarmSide i })) with free := s.free + 128 }

/-- The address of buffer `b` of a source. -/
def State.bufAddr (s : State) (i b : Nat) : Nat := Machine.bufAddr (s.srcRt i).inReserve b

/-- A source's buffers take new places, and its PITCH rises by G where it was a multiple of 32 × G (R313). -/
def State.moveSource (i : Nat) (s : State) : State :=
  let g := 256 * 2 ^ s.mem.grain
  let old := ((s.srcRt i).seals.head?.map (fun x => x.pitch)).getD 0
  (s.modSrc i (fun rt => { rt with moveDue := false, pitchUp := if old ≠ 0 && decide (old % (32 * g) = 0) then rt.pitchUp + g else rt.pitchUp })).allocSource i

/-- A tile of a row that scan-out reads: its commit mark names slot 0 as 1 and slot 1 as 2. A tile that missed the bind has no
result for the head frame, whatever an abandoned pass left in the slot that its mark still names (R31, R35, R159). -/
def RowRt.committed (r : RowRt) (col : Nat) : Option TileResult :=
  match if hasNat col r.missed then 0 else r.commit.get 0 col with
  | 0 => none
  | 1 => r.slot0.find? col
  | _ => r.slot1.find? col

/-- Whether an input of a pass is frame `q`. -/
def inputIs (q : Nat) : Option (Seal × Nat) → Bool
  | none => false
  | some x => decide (x.1.seq = q)

/-- Whether a pass reads frame `q` of source `i`. -/
def Pass.reads (p : Pass) (i q : Nat) : Bool :=
  p.inputs.any (fun e => decide (e.1 = i) && inputIs q e.2) ||
  (match p.ovl with | none => false | some x => decide (x.1.source = i) && decide (x.1.seq = q))

/-- Whether a row reads frame `q` of source `i`: by its running pass, or by a committed tile (R132, R160). -/
def RowRt.reads (r : RowRt) (i q : Nat) : Bool :=
  (match r.running with | none => false | some p => p.reads i q) ||
  r.holds.any (fun e => e.2.any (fun x => decide (x.1 = i) && decide (x.2 = q)))

/-- Whether any row of the Braid reads frame `q` of source `i` (R30). -/
def State.braidReads (s : State) (i q : Nat) : Bool := s.braid.rows.any (fun e => e.2.reads i q)

/-- The buffer of a source that holds frame `q`. -/
def SourceRt.bufOf (rt : SourceRt) (q : Nat) : Option Nat :=
  (List.find? (fun (e : Nat × FrameBuf) => decide (e.2.sealSeq = some q)) rt.bufs).map (fun e => e.1)

/-- The latest seal of a source, with its buffer (R31, R146). -/
def State.latestInput (s : State) (i : Nat) : Option (Seal × Nat) :=
  match (s.srcRt i).seals with
  | [] => none
  | x :: _ => ((s.srcRt i).bufOf x.seq).map (fun b => (x, b))

/-- Whether head frame (f, h) is not later than (g, k). -/
def frameLe (f h g k : Nat) : Bool := decide (f < g) || (decide (f = g) && decide (h ≤ k))

/-- The overlay surface for a row of head frame (f, half): the latest drawn for that head frame or earlier, if it was drawn
under the version in force for `f` (R228). -/
def State.overlayInput (s : State) (h f half : Nat) : Option (Seal × Nat) :=
  match List.find? (fun (o : OvlSeal) => frameLe o.frame o.half f half) (s.pts.overlays.get {} h).seals with
  | none => none
  | some o =>
    if o.tag ≠ s.tagFor f then none
    else
      let rt := s.srcRt (overlaySource h)
      match List.find? (fun (x : Seal) => decide (x.seq = o.seq)) rt.seals with
      | none => none
      | some x => (rt.bufOf x.seq).map (fun b => (x, b))

/-- Whether a pass that waits to start will read frame `q` of source `i`: besides latest seals, it reads the overlay surface that it
would use now (R160, R228). -/
def State.pendingReads (s : State) (i q : Nat) : Bool :=
  decide (992 ≤ i) && s.braid.rows.any (fun e => decide (overlaySource (e.1 / 128) = i) && (e.2.due || e.2.pending.isSome) &&
    ((s.overlayInput (e.1 / 128) e.2.frame e.2.half).map (fun x => decide (x.1.seq = q))).getD false)

/-- HELD: the buffer holds the source's latest seal, the Braid reads it, or a pass that waits will (R132, R160). -/
def State.held (s : State) (i : Nat) (b : FrameBuf) : Bool :=
  match b.sealSeq with
  | none => false
  | some q => ((s.srcRt i).seals.head?.map (fun x => decide (x.seq = q))).getD false || s.braidReads i q || s.pendingReads i q

/-- The checks of a compare unit whose buffer has lost HELD are abandoned and counted (R191). -/
def Whip.dropChecks (held : Seal → Bool) (w : Whip) : Whip :=
  let keep := w.checking.filter (fun c => match c with | none => true | some x => held x)
  { w with checking := keep, abandoned := w.abandoned + (w.checking.length - keep.length) }

/-- Buffers of a source that carry no mark any more are freed (R88, R132), and mode-2 checks of them end (R191). -/
def State.releaseBufs (i : Nat) (s : State) : State :=
  let s := s.modSrc i (fun rt => { rt with bufs := rt.bufs.filter (fun e => e.2.writing || e.2.sealSeq.isNone || s.held i e.2) })
  let held := fun (x : Seal) => decide (x.source ≠ i) || (s.srcRt i).bufs.any (fun e => decide (e.2.sealSeq = some x.seq))
  { s with stop := { s.stop with whips := s.stop.whips.map (fun e => (e.1, e.2.dropChecks held)) } }

/-- Buffers of every source that carry no mark any more are freed. -/
def State.releaseAll (s : State) : State := s.ing.sources.foldl (fun t e => t.releaseBufs e.1) s

/-- The lowest of `n` buffers from `b` that is not in use. -/
def freeIndex (used : List Nat) : Nat → Nat → Option Nat
  | 0, _ => none
  | n + 1, b => if hasNat b used then freeIndex used n (b + 1) else some b

/-- A free one of the `n` buffers of a source's pool: those that are in use count, also where they lie in an earlier place (R88). -/
def State.freeOf (s : State) (i n : Nat) : Option Nat :=
  if n ≤ (s.srcRt i).bufs.length then none else freeIndex ((s.srcRt i).bufs.map (fun e => e.1)) n (s.srcRt i).allocAt

/-- A free buffer of a source that is not a decoder output (R88). -/
def State.freeSrcBuf (s : State) (i : Nat) : Option Nat := s.freeOf i (s.lay.source i).buffers

/-! ### Pools (R119, R132) -/

/-- H.264 MaxDpbMbs of a level (PRESUMED, the standard's table: log entry 10). -/
def avcDpbBlocks (level : Nat) : Nat :=
  if level ≤ 30 then 396 else if level ≤ 33 then 900 else if level ≤ 60 then 2376 else if level ≤ 63 then 4752
  else if level ≤ 90 then 8100 else if level ≤ 93 then 18000 else if level ≤ 96 then 20480 else if level ≤ 123 then 32768
  else if level ≤ 126 then 34816 else if level ≤ 150 then 110400 else 184320

/-- DPB pictures of the context's level at its maximum picture size, as the codec standards give it (R119; PRESUMED,
log entry 10). -/
def dpbCapacity (c : ContextCfg) : Nat :=
  if c.codec = 0 then
    let p := c.maxWidth * c.maxHeight
    let m := hevcPicture c.maxLevel
    if 4 * p ≤ m then 16 else if 2 * p ≤ m then 12 else if 4 * p ≤ 3 * m then 8 else 6
  else if c.codec = 1 then
    min 16 (avcDpbBlocks c.maxLevel / (roundUp 16 c.maxWidth / 16 * (roundUp 16 c.maxHeight / 16)))
  else 0

/-- Buffers of a context's pool (R119). -/
def poolSize (c : ContextCfg) : Nat := dpbCapacity c + c.extraBufs

/-- Runtime state of a decode context. -/
def State.ctxRt (s : State) (c : Nat) : CtxRt := s.dec.ctxs.get {} c

/-- Apply `f` to the runtime state of a decode context. -/
def State.modCtx (c : Nat) (f : CtxRt → CtxRt) (s : State) : State :=
  { s with dec := { s.dec with ctxs := s.dec.ctxs.modify {} c f } }

/-- Apply `f` to a decode engine. -/
def State.modEngine (e : Nat) (f : EngineRt → EngineRt) (s : State) : State :=
  { s with dec := { s.dec with engines := s.dec.engines.modify {} e f } }

/-- Whether a pool picture's buffer carries a mark of the decoding process (R132, bits [2:0]). -/
def PoolPic.marked (p : PoolPic) : Bool := p.shortRef || p.longRef || p.outputPending

/-- The seal unit is done with a decoder output, sealed or dropped: its picture's OUTPUT_PENDING clears (R132). -/
def State.sentPic (i : Nat) (f : ReadyFrame) (s : State) : State :=
  if (s.lay.source i).kind ≠ 2 then s
  else s.modCtx f.origin (fun rt => { rt with dpb := (rt.dpb.map (fun p =>
    if p.buf = f.buf && p.sent then { p with outputPending := false, sent := false } else p)).filter PoolPic.marked })

/-- The mark word of pool or output buffer `b` of a context (R132): SHORT_REF, LONG_REF, OUTPUT_PENDING, HELD and TAINTED. -/
def State.markWord (s : State) (c b : Nat) : Nat :=
  let i := (s.lay.contexts.get {} c).source
  let ps := (s.ctxRt c).dpb.filter (fun p => decide (p.buf = b))
  let fs := ((s.srcRt i).bufs.filter (fun e => decide (e.1 = b))).map (fun e => e.2)
  let low := bitOf (ps.any (fun p => p.shortRef)) + 2 * bitOf (ps.any (fun p => p.longRef)) +
    4 * bitOf (ps.any (fun p => p.outputPending) || fs.any (fun f => f.writing)) + 8 * bitOf (fs.any (s.held i))
  low + 16 * bitOf (decide (low ≠ 0) && (ps.any (fun p => p.tainted) || fs.any (fun f => f.tainted)))

/-- Pool buffers of a context that carry a mark or are being written (R132). -/
def State.poolUsed (s : State) (c : Nat) : List Nat :=
  let rt := s.ctxRt c
  (rt.dpb.filter (fun p => p.marked)).map (fun p => p.buf) ++ rt.writing.toList ++
  ((s.srcRt (s.lay.contexts.get {} c).source).bufs.map (fun e => e.1))

/-- A free pool buffer of a context (R132). Output buffers under CTX_OUT_SCALE stand from index 64 on. -/
def State.freePoolBuf (s : State) (c : Nat) : Option Nat :=
  freeIndex (s.poolUsed c) (poolSize (s.lay.contexts.get {} c)) (s.srcRt (s.lay.contexts.get {} c).source).allocAt

/-- A free output buffer of a context under CTX_OUT_SCALE 1 or 2 (R119, R132). -/
def State.freeOutBuf (s : State) (c : Nat) : Option Nat :=
  freeIndex (s.poolUsed c) (s.lay.contexts.get {} c).extraBufs ((s.srcRt (s.lay.contexts.get {} c).source).allocAt + 64)

/-! ### Engines and deadlines (R79, R123 to R125) -/

/-- Whether Reeve hands pictures to the decode engines: SAFE stops them (R413), and so does a Reeve core that does not run (R412). -/
def State.codecRuns (s : State) : Bool :=
  decide (s.dev ≠ .safe) && decide (8 ≤ s.boot.step) && !([2, 3, 4, 5].any (fun p => s.procDown p))

/-- The class of a context is that of its source. -/
def State.ctxClass (s : State) (c : Nat) : Nat := (s.lay.source (s.lay.contexts.get {} c).source).cls

/-- Whether some engine decodes a picture of context `c`. -/
def State.ctxBusy (s : State) (c : Nat) : Bool :=
  s.dec.engines.any (fun e => match e.2.pic with | none => false | some p => decide (p.1 = c))

/-- Engines at a picture boundary that may take context `c` (R124, R125). -/
def State.enginesFor (s : State) (c : Nat) : List Nat :=
  (List.range 8).filter (fun e => !s.isFenced (32 + e) && (s.dec.engines.get {} e).pic.isNone &&
    (decide (s.dec.alarm ≠ some e) || decide (s.ctxClass c = 0)))

/-- The deadline of a context: that of its oldest queued picture (R79). -/
def State.ctxDeadline (s : State) (c : Nat) (p : CodedPic) : Int :=
  deadline s.lay (s.lay.contexts.get {} c).source p.closedPos

/-- Earliest deadline first, ties to the lower class, then the lower context (R124). -/
def runsBefore (a b : Int × Nat × Nat) : Bool :=
  decide (a.1 < b.1) || (decide (a.1 = b.1) && (decide (a.2.1 < b.2.1) || (decide (a.2.1 = b.2.1) && decide (a.2.2 < b.2.2))))

/-- Insert into a list in running order. -/
def insertRun (a : Int × Nat × Nat) : List (Int × Nat × Nat) → List (Int × Nat × Nat)
  | [] => [a]
  | b :: t => if runsBefore a b then a :: b :: t else b :: insertRun a t

/-- Contexts with a picture that could start, in running order. -/
def State.pendingCtxs (s : State) : List (Int × Nat × Nat) :=
  s.dec.ctxs.foldl (fun acc e => match e.2.queue with
    | [] => acc
    | p :: _ => if e.2.state = .running && !s.ctxBusy e.1 then insertRun (s.ctxDeadline e.1 p, s.ctxClass e.1, e.1) acc else acc) []

/-- Context `c` waits for a free buffer: POOL_STALL once for the picture, and item 4 of R129 for class 0. -/
def State.poolStall (c : Nat) (s : State) : State :=
  if (s.ctxRt c).waiting then s
  else
    let s := (s.count 0x02 c 7 1).modCtx c (fun rt => { rt with waiting := true })
    if s.ctxClass c = 0 then boundCheck { s with dec := { s.dec with lastStall := some s.raster.frame } } else s

/-! ### References of a picture that is about to start (R137, R138) -/

/-- The picture that the context holds under a name: its own, or the one that a substitute stands for (R137). -/
def CtxRt.holds (rt : CtxRt) (poc : Int) : Option PoolPic :=
  List.find? (fun (p : PoolPic) => decide (p.poc = poc) || p.standsFor.any (fun q => decide (q = poc))) rt.dpb

/-- The references that a picture names and the context does not hold. -/
def CtxRt.missing (rt : CtxRt) (d : PicDesc) : List Int := (d.refs ++ d.keep).filter (fun r => (rt.holds r).isNone)

/-- Whether a RASL picture is discarded without output: by its IRAP, or for a reference that is missing or discarded
(R138). -/
def CtxRt.dropsRasl (rt : CtxRt) (d : PicDesc) : Bool :=
  d.rasl && (rt.raslDiscard || !(rt.missing d).isEmpty || d.refs.any (fun r => rt.discarded.any (fun q => decide (q = r))))

/-- RASL pictures at the front of the queue that are discarded leave it. The fuel is the queue's length. -/
def CtxRt.skipRasl : Nat → CtxRt → CtxRt
  | 0, rt => rt
  | n + 1, rt => match rt.queue with
    | [] => rt
    | p :: q => if rt.dropsRasl p.desc then CtxRt.skipRasl n { rt with queue := q, discarded := p.desc.poc :: rt.discarded } else rt

/-- The held picture nearest to `poc`, the earlier of two equally near (R137). -/
def nearestPic (poc : Int) : List PoolPic → Option PoolPic
  | [] => none
  | p :: t => match nearestPic poc t with
    | none => some p
    | some q => if (p.poc - poc).natAbs < (q.poc - poc).natAbs || ((p.poc - poc).natAbs = (q.poc - poc).natAbs && decide (p.poc ≤ q.poc)) then some p else some q

/-- One substitute is made for a missing reference (R137): a held picture takes its place, or else the grey buffer `b`. It is
a damage event (R138). -/
def State.substitute (c : Nat) (d : PicDesc) (r : Int) (b : Option Nat) (s : State) : State :=
  let long := d.longTerm.any (fun q => decide (q = r))
  let s := (s.count 0x02 c 4 1).modCtx c (fun rt => { rt with guard := true, recovery := none })
  match nearestPic r ((s.ctxRt c).dpb.filter (fun p => !p.grey)), b with
  | some p, _ => s.modCtx c (fun rt => { rt with dpb := rt.dpb.map (fun q =>
      if q.buf = p.buf then { q with tainted := true, standsFor := r :: q.standsFor, longRef := q.longRef || long,
                                     shortRef := !(q.longRef || long) } else q) })
  | none, some b => s.modCtx c (fun rt => { rt with dpb := rt.dpb ++ [{ buf := b, poc := r, shortRef := !long, longRef := long,
                                                                        tainted := true, allTainted := true, grey := true }] })
  | none, none => s

/-- Reference marks follow the names that the stream keeps (R132, R137): a picture keeps a mark while its own name or one it
stands for is kept, and a picture without any mark leaves. -/
def CtxRt.keep (d : PicDesc) (rt : CtxRt) : CtxRt :=
  let named := fun (l : List Int) (p : PoolPic) => l.any (fun q => decide (q = p.poc) || p.standsFor.any (fun x => decide (x = q)))
  { rt with dpb := (rt.dpb.map (fun p =>
      { p with longRef := named d.longTerm p && named d.keep p, shortRef := named d.keep p && !named d.longTerm p,
               standsFor := p.standsFor.filter (fun x => d.keep.any (fun q => decide (q = x))) })).filter PoolPic.marked }

/-- One missing reference is settled, unless one before it waits (R137): a grey substitute takes a free buffer, and where there is
none, the picture waits (R132, R141). -/
def State.settleRef (c : Nat) (d : PicDesc) (r : Int) (x : State × Bool) : State × Bool :=
  let rt := x.1.ctxRt c
  if !x.2 || (rt.holds r).isSome then x
  else if rt.dpb.any (fun p => !p.grey) then (x.1.substitute c d r none, true)
  else match x.1.freePoolBuf c with
    | none => (x.1, false)
    | some b => (x.1.substitute c d r (some b), true)

/-- The references of the context's next picture are settled, and whether every one is (R137). -/
def State.settleRefs (c : Nat) (d : PicDesc) (s : State) : State × Bool :=
  let s := if (s.lay.contexts.get {} c).codec = 0 then s.modCtx c (CtxRt.keep d) else s
  ((s.ctxRt c).missing d).foldl (fun x r => State.settleRef c d r x) (s, true)

/-- The context's save record is written at a picture boundary, a class-0 context's in the alarm reserve (R121; log entry 120). -/
def State.saveCtx (c : Nat) (s : State) : State :=
  let here := decide (s.lay.dev.memReserve = 1) && decide (s.ctxClass c = 0)
  s.modCtx c (fun rt => { rt with save := some { addr := pageAddr here (Config.savePage c), dpb := rt.dpb.map (fun p => p.buf), params := rt.params,
                                                 poc := (rt.dpb.getLast?.map (fun p => p.poc)).getD 0, count := rt.pictures } })

/-- Engine `e` takes the oldest picture of context `c` into pool buffer `b` (R82, R121, R124). An engine that held another context's
state restores this one's. -/
def State.startDecode (e c b : Nat) (s : State) : State :=
  match (s.ctxRt c).queue with
  | [] => s
  | p :: q =>
    (s.modCtx c (fun rt => { rt with queue := q, waiting := false, writing := some b, cfg := s.lay.contexts.get {} c })).modEngine e
      (fun en => { en with pic := some (c, p), last := some c, switched := decide (en.last ≠ some c) && (s.ctxRt c).save.isSome })

/-- A pool that a rebase moves takes its new places at the context's next IRAP picture (R313). -/
def State.movePool (c : Nat) (s : State) : State :=
  let cfg := s.lay.contexts.get {} c
  match (s.ctxRt c).queue with
  | [] => s
  | p :: _ => if (p.desc.irap || decide (cfg.codec = 2)) && (s.srcRt cfg.source).moveDue then s.moveSource cfg.source else s

/-- Offer context `c` to the idle engines; which of several idle engines takes it is open (log entry 5). -/
def State.offer (c : Nat) (s : State) : State :=
  let s := (s.modCtx c (fun rt => CtxRt.skipRasl rt.queue.length rt)).movePool c
  match s.enginesFor c, (s.ctxRt c).queue with
  | [], _ => s
  | _, [] => s
  | e :: es, p :: _ =>
    let x := s.settleRefs c p.desc
    let s := x.1
    match x.2, s.freePoolBuf c with
    | true, some b =>
      if es.isEmpty then s.startDecode e c b
      else
        let f := s.takeFree
        f.2.startDecode ((e :: es).getD (f.1 % (es.length + 1)) e) c b
    | _, _ => s.poolStall c

/-- Every idle engine takes the pending picture with the earliest deadline that it may serve (R124). -/
def State.dispatch (s : State) : State :=
  if s.codecRuns then s.pendingCtxs.foldl (fun s k => s.offer k.2.2) s else s

/-! ### Queueing (R120, R130) -/

/-- Remove the first picture that satisfies `f`. -/
def dropFirst (f : CodedPic → Bool) : List CodedPic → List CodedPic
  | [] => []
  | p :: t => if f p then t else p :: dropFirst f t

/-- Whether a queued picture is a non-reference picture that R130 may discard: `newest` is the newest picture's id. -/
def discardable (codec newest : Nat) (p : CodedPic) : Bool :=
  if codec = 2 then decide (p.id ≠ newest) else p.desc.nonRef

/-- Whether a picture is a recovery point picture: its recovery point SEI was received (R120). -/
def recoveryPoint (d : PicDesc) : Bool := d.recovery.isSome

/-- Whether a queued picture is an IRAP or recovery point picture (R130). -/
def entryPoint (p : CodedPic) : Bool := p.desc.irap || recoveryPoint p.desc

/-- Discard from a queue longer than `max` (R130): non-reference pictures oldest first, then every picture before the
newest entry point, all of them at once (log entry 128), then the oldest. The fuel is the queue's length. -/
def trimQueue (codec max : Nat) : Nat → List CodedPic → List CodedPic
  | 0, q => q
  | n + 1, q =>
    if q.length ≤ max then q
    else
      let newest := (q.getLast?.map (fun p => p.id)).getD 0
      if q.any (discardable codec newest) then trimQueue codec max n (dropFirst (discardable codec newest) q)
      else
        let tail := (q.reverse.takeWhile (fun p => !entryPoint p)).length
        let keep := if tail < q.length then q.drop (q.length - tail - 1) else q
        if keep.length < q.length then trimQueue codec max n keep else trimQueue codec max n (q.drop 1)

/-- Whether a sequence is one that the context decodes (R113, R114). -/
def acceptsSeq (c : ContextCfg) (q : SeqParams) : Bool :=
  seqSupported c.codec q && decide (q.level ≤ 153) && decide (q.width ≤ c.maxWidth) && decide (q.height ≤ c.maxHeight) &&
    decide (q.dpbPics ≤ poolSize c)

/-- What a context keeps of a coded picture's parameter sets and tables (R118, R120). -/
def CtxRt.receive (p : CodedPic) (rt : CtxRt) : CtxRt :=
  { rt with params := (paramsIn p.units).foldl takeParam rt.params, tables := p.tablesAfter rt.tables
            chroma := ((firstPart p.scan).map (fun h => h.seq.chroma)).getD rt.chroma }

/-- A coded picture that its context has read is judged and joins the queue, which fits again (R113, R114, R120, R130). -/
def State.takePic (c : Nat) (p : CodedPic) (s : State) : State :=
  let cfg := s.lay.contexts.get {} c
  let rt := s.ctxRt c
  if !p.seq.all (acceptsSeq cfg) then s.count 0x02 c 9 1
  else
    let irap := decide (cfg.codec = 2) || (p.desc.irap && p.seq.isSome)
    if rt.state = .waitIrap && !irap && !recoveryPoint p.desc then s.count 0x02 c 1 1
    else
      let q := trimQueue cfg.codec cfg.backlogMax (rt.queue.length + 1) (rt.queue ++ [p])
      (s.count 0x02 c 1 (rt.queue.length + 1 - q.length)).modCtx c (fun rt =>
        let rt := if rt.state = .waitIrap then { rt with state := .running, raslDiscard := p.desc.irap, guard := !irap } else rt
        { rt with queue := q })

/-- A coded picture reaches its context: its parameter sets and tables are received whatever becomes of it (R118, R120). In WAIT_IRAP any
JPEG picture ends the wait (log entry 127). -/
def State.admitPic (c : Nat) (p : CodedPic) (s : State) : State :=
  let old := (s.ctxRt c).tables
  let s := s.modCtx c (CtxRt.receive p)
  match p.read (s.lay.contexts.get {} c).codec (s.ctxRt c).params old with
  | none => s
  | some p => s.takePic c p

/-- A context enters WAIT_IRAP: its own marks clear, and the pictures that it has queued are judged as they would be on arrival
(R120, R141; DEDUCED, log entry 107). -/
def State.ctxWaitIrap (c : Nat) (s : State) : State :=
  (s.ctxRt c).queue.foldl (fun s p => s.admitPic c p) (s.modCtx c (fun rt => { rt with
    resync := false, state := .waitIrap, queue := [], dpb := [], waiting := false, recovery := none, discarded := [], picCount := 0 }))

/-- The settings whose change sends a context to WAIT_IRAP (R141). -/
def redefined (a b : ContextCfg) : Bool :=
  decide (a.codec ≠ b.codec) || decide (a.maxWidth ≠ b.maxWidth) || decide (a.maxHeight ≠ b.maxHeight) || decide (a.maxLevel ≠ b.maxLevel)

/-- The parameter sets of CTX_PARAM_SETS are received (R118). -/
def CtxRt.outOfBand (c : ContextCfg) (rt : CtxRt) : CtxRt := { rt with params := (Config.paramSetsOf c.codec c.paramSets).foldl takeParam rt.params }

/-- A context meets its boundary between two pictures (R83, R120, R141): a set may have disabled or redefined it. -/
def State.ctxSettle (c : Nat) (s : State) : State :=
  let new := s.lay.contexts.get {} c
  let rt := s.ctxRt c
  if !new.enable then s.modCtx c (fun _ => {})
  else if redefined rt.cfg new then
    State.ctxWaitIrap c (s.modCtx c (fun rt =>
      CtxRt.outOfBand new { rt with cfg := new, params := if rt.cfg.codec = new.codec then rt.params else [] }))
  else s

/-- Picture `p` in progress is not decoded and its buffer is free (R122, R139): it is queued again, or skipped where a discontinuity
has discarded the queue. -/
def State.unreadPic (c : Nat) (p : CodedPic) (s : State) : State :=
  let s := s.modCtx c (fun rt => { rt with writing := none })
  if (s.ctxRt c).resync then s.count 0x02 c 1 1 else s.modCtx c (fun rt => { rt with queue := p :: rt.queue })

/-- A discontinuity resynchronises the context (R93, R141): its queue is discarded, and it enters WAIT_IRAP, after the picture that
it decodes if it decodes one. -/
def State.ctxResync (c : Nat) (s : State) : State :=
  let rt := s.ctxRt c
  if rt.state = .idle then s
  else
    let s := (s.count 0x02 c 1 rt.queue.length).modCtx c (fun rt => { rt with queue := [], resync := true })
    if s.ctxBusy c then s else s.ctxWaitIrap c

/-- Two coded pictures of a class-0 context closed less than 16 ms apart fail item 3 of R129. -/
def State.noteSpacing (c : Nat) (p : CodedPic) (s : State) : State :=
  let last := (s.ctxRt c).lastClose
  let s := s.modCtx c (fun rt => { rt with lastClose := some p.closedWall })
  if s.ctxClass c = 0 && (last.map (fun t => decide (p.closedWall < t + 16000000))).getD false then
    boundCheck { s with dec := { s.dec with lastSpacing := some s.raster.frame } } else s

/-- A closed coded picture reaches its context (R114, R120, R130), and an idle engine may take it (R124). While the picture before a
discontinuity still decodes, later ones wait unjudged. -/
def State.queuePic (c : Nat) (p : CodedPic) (s : State) : State :=
  if (s.ctxRt c).state = .idle then s
  else
    let s := s.noteSpacing c p
    if (s.ctxRt c).resync then s.modCtx c (fun rt => { rt with queue := rt.queue ++ [p] })
    else (s.admitPic c p).dispatch

end Sys2Proof.Machine
end

