-- ==== Sys2Proof/Machine/Braid.lean ====
section
/-! DEFINITION. The Braid's rows and passes: who contributes to a tile, when passes start, what a seal makes pending, and
the bind (R30, R31, R84, R142 to R146, R156 to R160, R162, R206, R228). -/

namespace Sys2Proof.Machine

open Sys2Proof

/-! ### Contributors (R145, R162) -/

/-- A contributor of a tile. -/
inductive Layer where
  | background
  | window (id : Nat) (w : WindowCfg)
  | overlay
  deriving DecidableEq, Repr

/-- The visible contributors of a tile, lowest first: entry k of the TPR is the k-th of them (R145, R162). -/
def tileLayers (l : Layout) (h row col : Nat) : List Layer :=
  let t := tileBox (l.head h) row col
  let v := visibleIn t (topFirst l h)
  (if v.2 then [] else [.background]) ++ v.1.reverse.map (fun w => .window w.1 w.2) ++
    (if overlayVisible l h t then [.overlay] else [])

/-- The source of a contributor on head `h`. -/
def Layer.source (h : Nat) : Layer → Option Nat
  | .background => none
  | .window _ w => some w.source
  | .overlay => some (overlaySource h)

/-- Whether a tile has source `i` among its visible contributors. -/
def tileShows (l : Layout) (h row i col : Nat) : Bool :=
  (tileLayers l h row col).any (fun y => decide (y.source h = some i))

/-- The tile columns of a row that show source `i`. -/
def tilesShowing (l : Layout) (h row i : Nat) : List Nat := (List.range (tileCols (l.head h))).filter (tileShows l h row i)

/-- The sources of the host windows visible in some of the tiles. -/
def sourcesIn (l : Layout) (h row : Nat) (cols : List Nat) : List Nat :=
  cols.foldl (fun a c => (tileLayers l h row c).foldl (fun a y => match y with | .window _ w => insertSorted w.source a | _ => a) a) []

/-! ### Which heads and rows compose (R74, R206, R413) -/

/-- Whether a head has a trained link to lose (R212). -/
def HeadRt.linked (r : HeadRt) : Bool := decide (r.state = .starting) || decide (r.state = .live) || decide (r.state = .aborted)

/-- Whether the Braid composes for head `h` now: STARTING, LIVE or ABORTED, unfenced, and the device not in SAFE. -/
def State.composes (s : State) (h : Nat) : Bool := (s.headRt h).linked && !s.isFenced h && decide (s.dev ≠ .safe)

/-- Whether the head emits no frame `f`, because its phase moves to a line that lies at or before the end of the frame before
(R74). Seen from its latest frame, `f` is the next or the one after. -/
def State.headSkips (s : State) (h f : Nat) : Bool :=
  let r := s.headRt h
  let next := (s.layoutFor (r.frame + 1)).head h
  let skip := decide (next.phase < r.cfg.phase)
  r.startPos.isSome && r.cfg.enable &&
    ((decide (f = r.frame + 1) && skip) ||
      (decide (f = r.frame + 2) && !skip && next.enable && decide (((s.layoutFor f).head h).phase < next.phase)))

/-- Apply `f` to a tile row. -/
def State.modRow (k : Nat) (f : RowRt → RowRt) (s : State) : State :=
  { s with braid := { s.braid with rows := s.braid.rows.modify {} k f } }

/-- A tile row. -/
def State.row (s : State) (k : Nat) : RowRt := s.braid.rows.get {} k

/-- Where a row binds, by the version of its head frame (R77). -/
def State.bindPos (s : State) (k : Nat) : Int :=
  let r := s.row k
  rowBindPos ((s.layoutFor r.frame).head (k / 128)) r.frame r.half (k % 128)

/-! ### Inputs of a pass (R31, R146, R228) -/

/-- The overlay surface that a pass over tiles `cols` of row `k` uses: one is used where a tile shows the overlay window (R145, R228). -/
def State.passOverlay (s : State) (k : Nat) (cols : List Nat) : Option (Seal × Nat) :=
  let r := s.row k
  let l := s.layoutFor r.frame
  if cols.any (fun c => overlayVisible l (k / 128) (tileBox (l.head (k / 128)) (k % 128) c)) then s.overlayInput (k / 128) r.frame r.half else none

/-! ### Starting passes (R156, R157) -/

/-- Earlier in the order of R157: the group, then the bind, then the row (the last a DEDUCED tie break). -/
def passBefore (a b : Nat × Int × Nat) : Bool :=
  decide (a.1 < b.1) || (decide (a.1 = b.1) && (decide (a.2.1 < b.2.1) || (decide (a.2.1 = b.2.1) && decide (a.2.2 < b.2.2))))

/-- The least of a list in the order of R157. -/
def firstPass : List (Nat × Int × Nat) → Option (Nat × Int × Nat)
  | [] => none
  | a :: t => match firstPass t with
    | none => some a
    | some b => if passBefore a b then some a else some b

/-- The group of the pass that a row waits to start: class-0 recompositions, first passes, other recompositions (R157). -/
def RowRt.group (r : RowRt) : Option Nat :=
  if r.bound then none
  else if r.due then some 1
  else r.pending.map (fun p => if p.2 then 0 else 2)

/-- The passes that wait to start. -/
def State.waitingPasses (s : State) : List (Nat × Int × Nat) :=
  s.braid.rows.filterMap (fun e => if s.composes (e.1 / 128) then e.2.group.map (fun g => (g, s.bindPos e.1, e.1)) else none)

/-- A row's pass starts and selects its inputs from the seals that exist now (R31, R146). -/
def State.startPass (k : Nat) (s : State) : State :=
  let h := k / 128
  let r := s.row k
  let l := s.layoutFor r.frame
  let cols := if r.due then List.range (tileCols (l.head h)) else (r.pending.map (fun p => p.1)).getD []
  let p : Pass := { todo := cols, tag := s.tagFor r.frame, first := r.due, order := s.braid.order,
                    inputs := (sourcesIn l h (k % 128) cols).map (fun i => (i, s.latestInput i)),
                    ovl := s.passOverlay k cols }
  let s := s.modRow k (fun r => { r with running := some p, due := false, pending := if r.due then r.pending else none })
  { s with braid := { s.braid with current := some k, order := s.braid.order + 1 } }

/-- What strand `x` is doing. -/
def Braid.strand (b : Braid) (x : Nat) : StrandState := if x = 0 then b.strandA else b.strandB

/-- At a tile boundary the preferred strand takes the hold back, if that is due and it still compares (R167, R170). -/
def State.takeBackNow (s : State) : State :=
  let pref := s.lay.dev.strandPref
  let t := { s with braid := { s.braid with takeBack := false } }
  if s.braid.takeBack && decide (s.braid.strand pref = .comparing) && decide (s.braid.hold ≠ pref) && s.braid.switching.isNone then
    (({ t with braid := { t.braid with hold := pref } }).count 0x04 0 2 1).event 0x000A pref s.raster.frame
  else t

/-- The strands take the next pass, when none runs (R157). -/
def State.schedule (s : State) : State :=
  if s.braid.current.isSome then s
  else
    let s := s.takeBackNow
    match firstPass s.waitingPasses with
    | none => s
    | some c => s.startPass c.2.2

/-! ### Seals (R156, R228) -/

/-- Whether a row has begun its first pass and has not bound. -/
def RowRt.takesSeals (r : RowRt) : Bool := !r.bound && !r.due

/-- Merge tiles into a row's pending recomposition. -/
def RowRt.pend (cols : List Nat) (cls0 : Bool) (r : RowRt) : RowRt :=
  match r.pending with
  | none => { r with pending := some (cols, cls0) }
  | some p => { r with pending := some (cols.foldl (fun a c => insertSorted c a) p.1, p.2 || cls0) }

/-- A seal of source `i` reaches one row. An overlay surface drawn for head frame (f, half) concerns no earlier one. -/
def State.sealRow (i : Nat) (cls0 : Bool) (drawn : Option (Nat × Nat)) (k : Nat) (s : State) : State :=
  let r := s.row k
  let later := match drawn with | none => false | some d => !frameLe d.1 d.2 r.frame r.half
  let cols := tilesShowing (s.layoutFor r.frame) (k / 128) (k % 128) i
  if r.takesSeals && s.composes (k / 128) && !later && !cols.isEmpty then s.modRow k (RowRt.pend cols cls0) else s

/-- A source has sealed a frame: every row that shows it takes a pending recomposition (R156). -/
def State.sealArrived (i : Nat) (cls0 : Bool) (drawn : Option (Nat × Nat)) (s : State) : State :=
  (s.braid.rows.foldl (fun s e => s.sealRow i cls0 drawn e.1) s).schedule

/-! ### Rows at their wall lines (R77, R156, R159, R160) -/

/-- A row's first pass is due for head frame (f, half) (R156). What the row committed last stays (R159, R160). -/
def State.rowBegin (h row f half : Nat) (s : State) : State :=
  if s.composes h then
    s.modRow (rowKey h row) (fun r => { slot0 := r.slot0, slot1 := r.slot1, commit := r.commit, holds := r.holds,
                                        frame := f, half := half, due := true, missed := r.missed })
  else s

/-- Whether a result is a completed one for the head frame. -/
def TileResult.ofFrame (t : TileResult) (f half : Nat) : Bool :=
  t.passDone && decide (t.tpr.wallFrame = f) && decide (t.tpr.half = half)

/-- The slot that holds a tile's newest completed result for the head frame that `keep` admits: 1 for slot 0, 2 for
slot 1 (R156, R159). -/
def RowRt.newest (r : RowRt) (keep : TileResult → Bool) (col : Nat) : Option Nat :=
  let ok := fun (t : Option TileResult) => (t.map (fun x => x.ofFrame r.frame r.half && keep x)).getD false
  let a := r.slot0.find? col
  let b := r.slot1.find? col
  if ok a && ok b then (if ((a.map (fun x => x.order)).getD 0) < ((b.map (fun x => x.order)).getD 0) then some 2 else some 1)
  else if ok a then some 1 else if ok b then some 2 else none

/-- The source frames that a result was composed from. -/
def TileResult.reads (t : TileResult) : List (Nat × Nat) :=
  (t.tpr.contribs.filter (fun c => decide (c.source < 1024) && !c.noSeal)).map (fun c => (c.source, c.seq))

/-- One tile binds (R159); while the Braid is lost, `new` is false and none binds a new result (R168). -/
def RowRt.bindTile (new : Bool) (tag col : Nat) (r : RowRt) : RowRt :=
  match r.newest (fun t => new && decide (t.tag = tag)) col with
  | none => { r with missed := r.missed ++ [col] }
  | some m =>
    let r := { r with commit := r.commit.set 0 col m }
    { r with holds := r.holds.set [] col (((r.committed col).map TileResult.reads).getD []) }

/-- Results of a row discarded for their tag (R84, R159). -/
def RowRt.discards (tag cols : Nat) (r : RowRt) : Nat :=
  ((List.range cols).filter (fun c => decide (r.newest (fun _ => true) c ≠ r.newest (fun t => decide (t.tag = tag)) c))).length

/-- The number of tile row `r` bound for head frame (f, half) in a head's `boundRows`. -/
def boundKey (f half r : Nat) : Nat := (2 * f + half) * 128 + r

/-- A tile row binds (R31, R84, R156, R159, R168): a pass that still runs is abandoned, a pending one is dropped. -/
def State.rowBind (k : Nat) (s : State) : State :=
  let h := k / 128
  let r := s.row k
  let cols := tileCols ((s.layoutFor r.frame).head h)
  let tag := s.tagFor r.frame
  let s := if r.running.isSome then s.count 0x03 h 3 1 else s
  let s := if r.pending.isSome then s.count 0x03 h 2 1 else s
  let s := s.count 0x03 h 4 (r.discards tag cols)
  let new := !(decide (s.braid.strandA = .fenced) && decide (s.braid.strandB = .fenced))
  let r' := (List.range cols).foldl (fun r c => r.bindTile new tag c)
    { r with running := none, pending := none, due := false, bound := true, missed := [] }
  let s := if r'.missed.isEmpty then s.modHead h (fun x => { x with boundRows := insertSorted (boundKey r.frame r.half (k % 128)) x.boundRows })
    else s.count 0x03 h 5 1
  let s : State := s.modRow k (fun _ => r')
  let s := if s.braid.current = some k then { s with braid := { s.braid with current := none, retry := none, rework := none } } else s
  s.releaseAll.schedule

/-- Runs and passes of a head's rows end, and its committed tiles stop reading (R160, R206, R409). -/
def State.dropRows (h : Nat) (s : State) : State :=
  let mine := (s.braid.current.map (fun k => decide (k / 128 = h))).getD false
  let s := { s with braid := { s.braid with
      rows := s.braid.rows.filter (fun e => decide (e.1 / 128 ≠ h))
      current := if mine then none else s.braid.current
      retry := if mine then none else s.braid.retry
      rework := if mine then none else s.braid.rework } }
  s.releaseAll.schedule

end Sys2Proof.Machine
end

