-- ==== Sys2Proof/Machine/Glass.lean ====
section
/-! DEFINITION. What a head has on the glass: the colours and patterns that need no memory (R181, R182), the link (R198, R199, R203,
R208), the pixel strobe (R201), and what becomes of the lines of a band row that have not left yet (R53, R190, R214). -/

namespace Sys2Proof.Machine

open Sys2Proof

/-! ### Colours (R181, R182, R203) -/

/-- Palette entry `i` (R182). -/
def paletteAt (pal : List Nat) (i : Nat) : Rgb := rgbOfWord (pal.getD i 0)

/-- The DEAD pattern (R181). -/
def deadPixel (pal : List Nat) (x y : Nat) : Rgb :=
  if (x + y) % 16 < 3 || ((x : Int) - y) % 16 < 3 then paletteAt pal 1 else paletteAt pal 2

/-- A component at the link depth (R203). -/
def linkDepth (bpc v : Nat) : Nat := if bpc = 8 then min 255 ((v + 2) / 4) else v

/-- A pixel as one number on the link, 10 bits for each component's place. -/
def linkPixel (bpc : Nat) (c : Rgb) : Nat := linkDepth bpc c.1 * 1048576 + linkDepth bpc c.2.1 * 1024 + linkDepth bpc c.2.2

/-- A pixel as the signature units take it (R192). -/
def signPixel (c : Rgb) : List Byte := leBytes 4 (c.1 * 1048576 + c.2.1 * 1024 + c.2.2)

/-- The lines of the latest band row as the link carries them (R203). -/
def HeadRt.glass (r : HeadRt) : List (List Nat) := r.lit.map (fun l => l.map (linkPixel r.cfg.bpc))

/-! ### Lines that have not left (R53, R190, R214) -/

/-- How many lines of the latest band row have begun. -/
def State.linesBegun (s : State) (h : Nat) : Nat :=
  let r := s.headRt h
  ((List.range r.lit.length).filter (fun i => decide (headLineNs s.lay.dev.wallRate r.cfg i ≤ 2 * (s.time.upTicks - r.litAt)))).length

/-- The first `m` lines of a band row with the DEAD pattern on the others. -/
def darkLines (pal : List Nat) (band m : Nat) (lit : List (List Rgb)) : List (List Rgb) :=
  lit.take m ++ (List.range (lit.length - m)).map (fun i => (List.range (lit.getD (m + i) []).length).map (fun x => deadPixel pal x (8 * band + m + i)))

/-- From its next line a head shows the DEAD pattern (R53, R190). -/
def State.darken (h : Nat) (s : State) : State :=
  let r := s.headRt h
  let m := s.linesBegun h
  if r.lit.length ≤ m then s
  else
    (if r.litAbort then s.count 0x05 h 2 m else s).modHead h (fun r => { r with lit := darkLines s.boot.palette r.glassBand m r.lit, litAbort := false })

/-- The rest of a head frame is not sent: the lines that have not begun do not leave (R212, R214). -/
def State.cutLines (h : Nat) (s : State) : State :=
  let r := s.headRt h
  (if r.litAbort then s.count 0x05 h 2 (s.linesBegun h) else s).modHead h (fun r => { r with lit := [], litAbort := false })

/-! ### The pixel strobe and the main stream attributes (R198, R199, R201, R203, R208, R214) -/

/-- Wall time in one TIME tick, in 2^−32 ns × 1,000,000: the active domain's increment and the slew of WALL_RESID (R68, R72, R201). -/
def State.wallPerTick (s : State) : Nat :=
  let i := (s.time.domain s.time.active).incr
  i * (if s.time.resid < 0 then 1000000 - s.lay.dev.tdSlewPpm else if 0 < s.time.resid then 1000000 + s.lay.dev.tdSlewPpm else 1000000)

/-- The increment of the 48-bit phase accumulator for a head's timing: pixels in one cycle of 1.5 GHz, times 2^48 (R201). -/
def State.strobeOf (s : State) (c : HeadCfg) : Nat :=
  let hz := wallRateHz s.lay.dev.wallRate
  hTotal c * vTotal c * hz.1 * (1 + c.mult) * s.wallPerTick * 65536 / (hz.2 * 3000000000000000)

/-- The pixel rate in Hz that the stream frequency fields signal: it follows the strobe (R208, R214). -/
def State.streamHz (s : State) (c : HeadCfg) : Nat :=
  let hz := wallRateHz s.lay.dev.wallRate
  hTotal c * vTotal c * hz.1 * (1 + c.mult) * s.wallPerTick / (hz.2 * 8589934592000000)

/-- The link symbol rate of an 8b/10b lane, in Hz (R202). -/
def symbolHz (code : Nat) : Nat := if code = 0 then 270000000 else if code = 1 then 540000000 else 810000000

/-- The main stream attributes of a head frame (R198, R199, R203, R208). With 8b/10b coding Mvid ÷ Nvid is the pixel rate over the
link symbol rate; with 128b/132b the stream frequency is given (log entry 115). -/
def State.msaOf (s : State) (c : HeadCfg) : Msa :=
  let f := s.streamHz c
  { hPol := c.hPol, vPol := c.vPol, hTotal := hTotal c, vTotal := vTotal c, hStart := c.hSync + c.hBp, vStart := c.vSync + c.vBp,
    hSync := c.hSync, vSync := c.vSync, hActive := c.hActive, vActive := c.vActive, bpc := c.bpc,
    vscSdp := decide (c.cspace = 1), misc1Vsc := decide (c.cspace = 1),
    mvid := if c.linkRate < 3 then f else 0, nvid := if c.linkRate < 3 then symbolHz c.linkRate else 0, streamHz := if c.linkRate < 3 then 0 else f }

/-- Whether the pixel domain runs on FIO, at 200 MHz for 1.5 GHz (R421). -/
def State.pixOnFio (s : State) : Bool := s.clk.onFio.any (fun k => decide (k = .pllPix))

/-- The increment in the pixel domain's clock: scaled by 7.5 on FIO (R421). -/
def State.strobeIn (s : State) (c : HeadCfg) : Nat := if s.pixOnFio then s.strobeOf c * 15 / 2 else s.strobeOf c

/-- The phase has run on to now: by the increment at each cycle of the pixel domain, three in a TIME tick, or two in five on FIO. -/
def HeadRt.phaseNow (fio : Bool) (now : Nat) (r : HeadRt) : Nat :=
  (r.phase + (now - r.phaseAt) * r.strobe * (if fio then 2 else 15) / 5) % 281474976710656

/-- The pixel strobe at a frame start: the phase runs on from the one before, and the increment follows the timing (R201). -/
def State.strobeStart (h : Nat) (s : State) : State :=
  s.modHead h (fun r => { r with phase := r.phaseNow s.pixOnFio s.time.upTicks, phaseAt := s.time.upTicks, strobe := s.strobeIn r.cfg })

/-- The pixel domain has just changed over to FIO: the head keeps its timing (R421). -/
def State.rescaleStrobe (h : Nat) (s : State) : State :=
  s.modHead h (fun r => { r with phase := r.phaseNow false s.time.upTicks, phaseAt := s.time.upTicks, strobe := r.strobe * 15 / 2 })

/-! ### Signatures (R192) -/

/-- Whole lines enter a signature. -/
def signLines (w : Word) (lines : List (List Rgb)) : Word := lines.foldl (fun w l => l.foldl (fun w p => crcRun w (signPixel p)) w) w

/-- The part of a band row inside a rectangle. -/
def probeLines (q : Rect) (band : Nat) (lines : List (List Rgb)) : List (List Rgb) :=
  ((List.range lines.length).filter (fun i => decide (q.y ≤ 8 * band + i) && decide (8 * band + i < q.y + q.h))).map
    (fun i => ((lines.getD i []).drop q.x).take q.w)

/-- Emitted lines enter the signatures that are running (R192). -/
def SigUnit.take (h band : Nat) (lines : List (List Rgb)) (u : SigUnit) : SigUnit :=
  { u with
    signing := u.signing.map (fun e => if e.1 = h then (e.1, signLines e.2 lines) else e)
    probes := u.probes.map (fun e => if e.2.cfg.head = h then
      (e.1, { e.2 with acc := e.2.acc.map (fun w => signLines w (probeLines e.2.cfg.rect band lines)) }) else e) }

end Sys2Proof.Machine
end

