-- ==== Sys2Proof/Machine/Links.lean ====
section
/-! DEFINITION. Heads, desks, ports, MACs and lanes as far as their links go: the transitions that resets, fences,
lost PLLs and unplugged cables share (R52, R53, R212, R279, R287, R323, R333). -/

namespace Sys2Proof.Machine

open Sys2Proof

/-! ### Lanes (R316, R323) -/

/-- The quad of a lane (R316). -/
def quadOf (lane : Nat) : Nat := lane / 4

/-- Whether a head's lanes hold lane `ln` (R198). -/
def headHasLane (c : HeadCfg) (ln : Nat) : Bool := decide (c.lane0 ≤ ln) && decide (ln < c.lane0 + c.lanes)

/-- Whether a DPRX port's lanes hold lane `ln` (R321). -/
def dprxHasLane (c : DprxCfg) (ln : Nat) : Bool := decide (c.lane0 ≤ ln) && decide (ln < c.lane0 + c.lanes)

/-- Lanes of a MAC: all four of its quad at 100GBASE-R4, otherwise one (R320). -/
def macHasLane (l : Layout) (c : MacCfg) (ln : Nat) : Bool :=
  if (l.quads.get {} (quadOf c.lane)).ethRate = 2 then decide (quadOf ln = quadOf c.lane) else decide (c.lane = ln)

/-- Whether an enabled user of the set occupies lane `ln` (R328). -/
def laneUsed (l : Layout) (ln : Nat) : Bool :=
  l.heads.any (fun e => e.2.enable && headHasLane e.2 ln) || l.dprxs.any (fun e => e.2.enable && dprxHasLane e.2 ln) ||
  l.macs.any (fun e => e.2.enable && macHasLane l e.2 ln) || l.desks.any (fun e => e.2.enable && decide (e.2.lane = ln))

/-- Whether a quad has an enabled user (R318). -/
def quadUsed (l : Layout) (q : Nat) : Bool := (List.range 4).any (fun i => laneUsed l (4 * q + i))

/-- Whether lane `ln` is in Rest by the table of R323: a head in DOWN, a port at electrical idle, no enabled MAC, or no
desk that runs. A lane of an unassigned quad is powered down and is not in Rest. -/
def shouldRest (s : State) (ln : Nat) : Bool :=
  let m := (s.lay.quads.get {} (quadOf ln)).mode
  if m = 2 then !(s.heads.any (fun e => decide (e.2.state ≠ .down) && headHasLane e.2.cfg ln))
  else if m = 3 then !(s.lay.dprxs.any (fun e => e.2.enable && dprxHasLane e.2 ln && (s.ing.dprx.get {} e.1).up))
  else if m = 4 then !(s.lay.macs.any (fun e => e.2.enable && macHasLane s.lay e.2 ln))
  else if m = 5 then !(s.lay.desks.any (fun e => e.2.enable && decide (e.2.lane = ln)))
  else false

/-- A lane's runtime state. -/
def State.lane (s : State) (ln : Nat) : LaneRt := s.lanes.lanes.get {} ln

/-- Apply `f` to a lane. -/
def State.modLane (ln : Nat) (f : LaneRt → LaneRt) (s : State) : State :=
  { s with lanes := { s.lanes with lanes := s.lanes.lanes.modify {} ln f } }

/-- A lane that R323 puts in Rest enters it, counted in REST_ENTRY. -/
def State.restLane (ln : Nat) (s : State) : State :=
  if shouldRest s ln && !(s.lane ln).rest then
    (s.modLane ln (fun r => { r with rest := true, restSince := s.time.upTicks })).count 0x14 ln 3 1
  else s

/-- The lanes of a list that R323 puts in Rest enter it. -/
def State.restLanes (lns : List Nat) (s : State) : State := lns.foldl (fun s ln => s.restLane ln) s

/-- A head's lanes. -/
def headLanes (c : HeadCfg) : List Nat := (List.range c.lanes).map (fun i => c.lane0 + i)

/-! ### Heads (R52, R53) -/

/-- The Stopper unit of a head (R187). -/
def stopUnitOf (h : Nat) : Nat := h / 8

/-- What a head emits now (R53, R190, R207). -/
def State.emission (s : State) (h : Nat) : Emission :=
  let r := s.headRt h
  let dead := decide (s.dev = .safe) || s.isFenced (46 + stopUnitOf h)
  match r.state with
  | .down => .off
  | .training => .training
  | .starting => if r.idle then .idle else if dead then .dead else .starting
  | .live => if dead then .dead else .live
  | .aborted => if dead then .dead else .abort

/-- A head's link counter (R213). -/
def State.countHead (h idx : Nat) (s : State) : State := s.count 0x05 h idx 1

/-- The head's link is gone: no trained rate or lanes, and no stream. -/
def HeadRt.unlink (r : HeadRt) : HeadRt :=
  { r with rate := 0xFF, lanes := 0, idle := false, abortedNow := false, allInTime := false, msa := none, trained := none }

/-- The number of an AUX job in the outputs. -/
def AuxJob.code : AuxJob → Nat
  | .linkStatus => 0 | .capabilities => 1 | .train => 2

/-- The head's AUX channel begins a transaction of the job in front of its queue. -/
def State.auxSend (h : Nat) (s : State) : State :=
  match (s.headRt h).aux with
  | [] => s
  | j :: _ => { s with out := { s.out with aux := (h, j.1.code) :: s.out.aux } }

/-- An attempt at training has ended: its own AUX transaction goes, and the next job begins. -/
def State.auxUntrain (h : Nat) (s : State) : State :=
  let first := (s.headRt h).aux.head?.any (fun j => decide (j.1 = .train))
  let s := s.modHead h (fun r => { r with aux := r.aux.filter (fun j => decide (j.1 ≠ .train)) })
  if first then s.auxSend h else s

/-- A head goes to DOWN: transmitter off, and its lanes rest (R52, R323). Where HPD is deasserted, it waits for HPD (R211, R212). -/
def State.headDown (h : Nat) (s : State) : State :=
  (((s.cutLines h).modHead h (fun r => { r.unlink with state := .down, attempting := false, attempts := 0, hpdWasLow := r.hpdWasLow || !r.hpd })).auxUntrain h).restLanes
    (headLanes (s.headRt h).cfg)

/-- Whether a sink accepts 0.5 % down-spread: MAX_DOWNSPREAD of the capabilities read (R208, R331; the DPCD's addresses are
PRESUMED, log entry 116). -/
def sinkSpread (caps : List Byte) : Bool := decide ((caps.getD 3 0#8).toNat % 2 = 1)

/-- Whether head `h` down-spreads its link: QUAD_SSC 1 and a sink that allows it (R331). -/
def State.spreads (s : State) (h : Nat) : Bool :=
  decide ((s.lay.quads.get {} (quadOf (s.headRt h).cfg.lane0)).ssc = 1) && sinkSpread (s.headRt h).dpcdCaps

/-- The LINK_BW_SET code of a HEAD_LINK_RATE code (R202; PRESUMED, log entry 116). -/
def linkBw : Nat → Nat
  | 0 => 0x0A | 1 => 0x14 | 2 => 0x1E | 3 => 0x01 | 4 => 0x04 | _ => 0x02

/-- What a training attempt writes to the sink: coding, rate, lanes and DOWNSPREAD_CTRL (R211, R331; PRESUMED, log entry 116). -/
def State.trainWrites (h : Nat) (s : State) : State :=
  let c := (s.headRt h).cfg
  let ws := [(h, 0x108, if c.linkRate < 3 then 1 else 2), (h, 0x100, linkBw c.linkRate), (h, 0x101, c.lanes), (h, 0x107, if s.spreads h then 16 else 0)]
  { s with out := { s.out with auxWrites := ws.reverse ++ s.out.auxWrites } }

/-- A head enters TRAINING and its first attempt starts (R52, R211). -/
def State.headTrain (h : Nat) (s : State) : State :=
  ((s.cutLines h).modHead h (fun r => { r.unlink with state := .training, attempting := true, attempts := 0, hpdWasLow := false })).trainWrites h

/-- A head in STARTING, LIVE or ABORTED loses its link and enters TRAINING at once; with HPD deasserted the attempt
fails at once and it enters DOWN (R212). -/
def State.headLinkLoss (h : Nat) (s : State) : State :=
  if (s.headRt h).linked then
    let s := (s.countHead h 7).headTrain h
    if (s.headRt h).hpd then s else s.headDown h
  else s

/-- On entry to SAFE every LIVE or ABORTED head moves to STARTING at once, where its frame count begins anew, and every head that
sends a picture shows the DEAD pattern from its next line (R53, R181). -/
def State.headsSafe (s : State) : State :=
  s.heads.foldl (fun s e =>
    let s := s.darken e.1
    if e.2.state = .live || e.2.state = .aborted then s.modHead e.1 (fun r => { r with state := .starting, idle := false, n := 0 }) else s) s

/-! ### Touch reports and desk states (R61, R279 to R281, R287) -/

/-- A desk's runtime state. -/
def State.desk (s : State) (d : Nat) : DeskRt := s.desks.get {} d

/-- Apply `f` to a desk. -/
def State.modDesk (d : Nat) (f : DeskRt → DeskRt) (s : State) : State := { s with desks := s.desks.modify {} d f }

/-- Whether a report ends a contact (R61). -/
def endsContact (type : Nat) : Bool := decide (type = 3) || decide (type = 4) || decide (type = 7)

/-- Write a touch report to ring 17, hold it if it ends a contact, or drop and count it (R61). `stamp` numbers the reports of all
desks in the order they were generated. -/
def State.putReport (r : TouchReport) (s : State) : State :=
  let r : TouchReport := { r with stamp := s.out.touchMade }
  let s : State := { s with out := { s.out with touchMade := s.out.touchMade + 1 } }
  let q := s.ring 17
  if q.runs && decide (q.unread < q.slots) && (s.desk r.desk).held.isEmpty then
    ({ s with out := { s.out with touch := r :: s.out.touch } }).wroteSlots 17 1 (touchBytes r)
  else
    if endsContact r.type then s.modDesk r.desk (fun d => { d with held := d.held ++ [r] })
    else s.count 0x10 r.desk 12 1

/-- The marker bits of TR_MARKS (R279). -/
def markBit : Marker → Nat
  | .stale => 0 | .dead => 1 | .concealed => 2 | .frozen => 3 | .unverified => 4

/-- The head point of a sensor position, rounded to nearest with halves up (R280). Positions are in 1/256 pitch. -/
def headPoint (c : DeskCfg) (x y : Int) : Int × Int :=
  ((c.mapA * x + c.mapB * y + 256 * c.mapC + 8388608) / 16777216, (c.mapD * x + c.mapE * y + 256 * c.mapF + 8388608) / 16777216)

/-- The enabled window of a head with the highest layer whose clipped rectangle holds the point (R280). -/
def targetWindow (l : Layout) (h : Nat) (x y : Int) : Option (Nat × WindowCfg) :=
  l.windows.foldl (fun best e =>
    let w := e.2
    if w.enable && decide (w.head = h) && decide (w.dstX ≤ x) && decide (x < w.dstX + w.dstW) && decide (w.dstY ≤ y) && decide (y < w.dstY + w.dstH)
    then (match best with | none => some e | some b => if b.2.layer < w.layer then some e else best) else best) none

/-- A report of a contact: its target, and what the Stopper marked there in the head frame completed last (R279 to
R281). -/
def State.mkTouch (s : State) (d type : Nat) (c : Contact) (atStart : Bool) (z area : Nat) (strength : Int) : TouchReport :=
  let k := s.desk d
  let p := headPoint k.cfg c.x c.y
  let hc := (s.headRt k.cfg.head).cfg
  let inside := decide (0 ≤ p.1) && decide (p.1 < hc.hActive) && decide (0 ≤ p.2) && decide (p.2 < hc.vActive)
  let target := if inside then targetWindow s.lay k.cfg.head p.1 p.2 else none
  let notLive := !(s.headRt k.cfg.head).begunLive || decide (s.dev = .safe)
  let marks := match target with | none => [] | some w => s.stop.marksLast.get [] w.1
  { type := type, desk := d, id := c.id, atStart := atStart, glove := decide (k.cfg.mode = 1),
    targetStale := !marks.isEmpty || notLive, frame := k.frame, time := k.frameStart, sx := (c.x % 65536).toNat, sy := (c.y % 65536).toNat,
    hx := if inside then p.1.toNat else 0xFFFF, hy := if inside then p.2.toNat else 0xFFFF, head := k.cfg.head,
    marks := marks, notLive := notLive,
    window := (target.map (fun w => w.1)).getD 0xFFFF, wx := (target.map (fun w => (p.1 - w.2.dstX).toNat)).getD 0xFFFF,
    wy := (target.map (fun w => (p.2 - w.2.dstY).toNat)).getD 0xFFFF, area := area, strength := strength, z := z,
    status := 0, duration := (k.frameStart - c.downAt) / 1000000, seq := k.reportSeq }

/-- Generate a report: it takes the desk's next TR_SEQ (R279). -/
def State.report (r : TouchReport) (s : State) : State :=
  (s.putReport { r with seq := (s.desk r.desk).reportSeq }).modDesk r.desk (fun d => { d with reportSeq := d.reportSeq + 1 })

/-- Every contact and hover of a desk ends with a CANCEL report (R287). -/
def State.cancelContacts (d : Nat) (s : State) : State :=
  ((s.desk d).contacts.foldl (fun s c => s.report (s.mkTouch d 7 c false 0 0 0)) s).modDesk d (fun k => { k with contacts := [] })

/-- A desk changes state with a DESK_STATUS report; its cause byte has no value in the spec (log entry 5). On leaving
ACTIVE every contact ends with CANCEL, and masks and tracked baselines go (R287). -/
def State.deskState (d : Nat) (st : DeskState) (s : State) : State :=
  if (s.desk d).state = st then s
  else
    let s := if (s.desk d).state = .active then (s.cancelContacts d).modDesk d (fun k => { k with nodes := [], masks := [] }) else s
    let f := s.takeFree
    let s := f.2.modDesk d (fun k => { k with state := st, inFrame := false, discardRun := 0, frame := if st = .active then 0 else k.frame })
    s.report { type := 8, desk := d, frame := (s.desk d).frame, time := s.wallNs, head := (s.desk d).cfg.head,
               status := st.code + 256 * (f.1 % 256), notLive := !(s.headRt (s.desk d).cfg.head).begunLive || decide (s.dev = .safe) }

/-- A desk that runs goes to LINK_DOWN (R287). -/
def State.deskLinkDown (d : Nat) (s : State) : State :=
  if (s.desk d).state = .starting || (s.desk d).state = .active then s.deskState d .linkDown
  else s.modDesk d (fun k => { k with locked := false })

/-! ### Ports and MACs -/

/-- Free a source's buffer without a seal. -/
def State.dropBuf (i b : Nat) (s : State) : State := s.modSrc i (fun rt => { rt with bufs := rt.bufs.erase b })

/-- The source that a DPRX port feeds (R86). -/
def sourceOfPort (l : Layout) (p : Nat) : Option Nat :=
  (List.find? (fun (e : Nat × SourceCfg) => decide (e.2.kind = 3) && decide (e.2.origin = p)) l.sources).map (fun e => e.1)

/-- A frame in progress on a DPRX port is discarded and counted (R100). -/
def State.dprxDiscard (p : Nat) (s : State) : State :=
  let r := s.ing.dprx.get {} p
  if r.inFrame then
    let s := s.count 0x18 p 1 1
    let s := match sourceOfPort s.lay p with
      | none => s
      | some i => (match r.frameBuf with | none => s | some b => s.dropBuf i b).count 0x16 i 1 1
    { s with ing := { s.ing with dprx := s.ing.dprx.set {} p { r with inFrame := false, frameBuf := none } } }
  else s

/-- A DPRX port loses its link (R100). -/
def State.dprxDown (p : Nat) (s : State) : State :=
  let s := s.dprxDiscard p
  { s with ing := { s.ing with dprx := s.ing.dprx.modify {} p (fun r => { r with up := false }) } }

/-- A MAC goes link-down. -/
def State.macDown (m : Nat) (s : State) : State := { s with ing := { s.ing with macUp := removeNat m s.ing.macUp } }

/-- Every lane of a quad stops, and each of its users loses its link (R333). -/
def State.quadStop (q : Nat) (s : State) : State :=
  let on := fun ln => decide (quadOf ln = q)
  let s := s.lay.heads.foldl (fun s e => if e.2.enable && on e.2.lane0 then s.headLinkLoss e.1 else s) s
  let s := s.lay.dprxs.foldl (fun s e => if e.2.enable && on e.2.lane0 then s.dprxDown e.1 else s) s
  let s := s.lay.macs.foldl (fun s e => if e.2.enable && on e.2.lane then s.macDown e.1 else s) s
  s.lay.desks.foldl (fun s e => if e.2.enable && on e.2.lane then s.deskLinkDown e.1 else s) s

end Sys2Proof.Machine
end

