-- ==== Sys2Proof/Machine/Fence.lean ====
section
/-! DEFINITION. What a fence does to each unit, and the bindings of encode contexts that follow it (R139, R233, R234,
R250, R298, R409). -/

namespace Sys2Proof.Machine

open Sys2Proof

/-! ### Encode engines (R233, R234, R250) -/

/-- A common multiple of 1 to 60, so that every ENC_DIV divides loads exactly (R233). -/
def divScale : Nat := 9690712164777231700912800

/-- An encode context's load, scaled by 1,001 × divScale: ENC_WIDTH × ENC_HEIGHT × the wall rate ÷ ENC_DIV (R233). -/
def encLoad (rate : Nat) (c : EncoderCfg) : Nat :=
  c.width * c.height * (wallRateHz rate).1 * (1001 / (wallRateHz rate).2) * (divScale / c.div)

/-- What one engine carries: 1,037,500,000 pixel/s in the scale of `encLoad` (R233). -/
def engineCap : Nat := 1037500000 * 1001 * divScale

/-- Insert a context into descending load, ties to the lower context. -/
def insertLoad (a : Nat × Nat) : List (Nat × Nat) → List (Nat × Nat)
  | [] => [a]
  | b :: t => if b.2 < a.2 || (a.2 = b.2 && a.1 < b.1) then a :: b :: t else b :: insertLoad a t

/-- The least-loaded of a list of engines with their loads, ties to the lower engine. -/
def leastLoaded : List (Nat × Nat) → Option (Nat × Nat)
  | [] => none
  | e :: t => match leastLoaded t with
    | none => some e
    | some m => if m.2 < e.2 then some m else some e

/-- Place contexts, in the order given, each on the least-loaded engine (R233). -/
def placeAll : List (Nat × Nat) → List (Nat × Nat) → List (Nat × Nat) × List (Nat × Nat)
  | [], engines => ([], engines)
  | c :: t, engines => match leastLoaded engines with
    | none => ([], engines)
    | some e =>
      let r := placeAll t (engines.map (fun x => if x.1 = e.1 then (x.1, x.2 + c.2) else x))
      ((c.1, e.1) :: r.1, r.2)

/-- Whether every engine carries no more than its capacity. -/
def engineFit (engines : List (Nat × Nat)) : Bool := engines.all (fun e => decide (e.2 ≤ engineCap))

/-- The unfenced encode engines, with no load. -/
def idleEngines (s : State) : List (Nat × Nat) :=
  ((List.range 4).filter (fun e => !s.isFenced (40 + e))).map (fun e => (e, 0))

/-- Enabled encode contexts of a set in descending load. -/
def loadOrder (l : Layout) : List (Nat × Nat) :=
  l.encoders.foldl (fun acc e => if e.2.enable then insertLoad (e.1, encLoad l.dev.wallRate e.2) acc else acc) []

/-- The context that is suspended first: class 2 first, then 1, then 0, and the highest number within a class (R250). -/
def suspendNext (l : Layout) : List (Nat × Nat) → Option Nat
  | [] => none
  | c :: t => match suspendNext l t with
    | none => some c.1
    | some m =>
      let a := (l.encoders.get {} c.1).cls
      let b := (l.encoders.get {} m).cls
      if b < a || (a = b && m < c.1) then some c.1 else some m

/-- Place contexts over engines that carry loads already, suspending until the rest fits (R250). -/
def placeOrSuspend (l : Layout) : Nat → List (Nat × Nat) → List (Nat × Nat) → List (Nat × Nat) × List Nat
  | 0, _, _ => ([], [])
  | n + 1, cs, engines =>
    let r := placeAll cs engines
    if engineFit r.2 && decide (r.1.length = cs.length) then (r.1, [])
    else match suspendNext l cs with
      | none => ([], [])
      | some c =>
        let q := placeOrSuspend l n (cs.filter (fun x => decide (x.1 ≠ c))) engines
        (q.1, c :: q.2)

/-- An encode context's runtime state. -/
def State.encRt (s : State) (c : Nat) : EncRt := s.enc.ctxs.get {} c

/-- Apply `f` to an encode context. -/
def State.modEnc (c : Nat) (f : EncRt → EncRt) (s : State) : State :=
  { s with enc := { s.enc with ctxs := s.enc.ctxs.modify {} c f } }

/-- A stream restarts: its context enters STARTING (R250). -/
def State.encRestart (c : Nat) (s : State) : State :=
  (s.modEnc c (fun r => { r with state := .starting, restart := false, k := 0, delay := 0, streamPics := 0, carried := [] })).count 0x0B c 11 1

/-- Packets queued for a context leave its MACs' queues. -/
def State.dropQueued (c : Nat) (s : State) : State :=
  let qs := s.enc.queues.map (fun q => (q.1, q.2.filter (fun e => decide (e.ctx ≠ c))))
  { s with enc := { s.enc with queues := qs.filter (fun q => !q.2.isEmpty) } }

/-- No engine can carry the context: it is suspended, and nothing of it leaves (R234, R250). -/
def State.encSuspend (c : Nat) (s : State) : State :=
  (s.modEnc c (fun r => { r with state := .suspended, engine := none, pic := none })).dropQueued c

/-- A context moves to engine `e`. A picture in progress is finished skip-only, and the stream restarts at the next
picture (R250). -/
def State.encMove (c e : Nat) (s : State) : State :=
  let r := s.encRt c
  if r.state = .suspended then (s.modEnc c (fun r => { r with engine := some e })).encRestart c
  else if r.engine = some e then s
  else s.modEnc c (fun r =>
    { r with engine := some e, restart := r.restart || r.pic.isSome, pic := r.pic.map (fun p => { p with skipAll := true }) })

/-- Reeve binds every enabled context anew, at the application of a commit (R233). -/
def State.encRebind (s : State) : State :=
  let order := loadOrder s.lay
  let r := placeOrSuspend s.lay (order.length + 1) order (idleEngines s)
  let s := r.1.foldl (fun s b => s.encMove b.1 b.2) s
  r.2.foldl (fun s c => if (s.encRt c).state = .suspended then s else s.encSuspend c) s

/-- The unfenced engines with the loads that they carry. -/
def State.engineLoads (s : State) : List (Nat × Nat) :=
  (idleEngines s).map (fun x => (x.1, (loadOrder s.lay).foldl (fun a c => if (s.encRt c.1).engine = some x.1 then a + c.2 else a) 0))

/-- An engine has returned: suspended contexts that an engine can now carry start, in descending load; the others stay where they are
(R233, R234). -/
def State.encResume (s : State) : State :=
  (loadOrder s.lay).foldl (fun s c =>
    if (s.encRt c.1).state ≠ .suspended then s
    else match leastLoaded s.engineLoads with
      | some e => if e.2 + c.2 ≤ engineCap then s.encMove c.1 e.1 else s
      | none => s) s

/-- The contexts of a fenced engine are rebound to the others (R250). -/
def State.encFence (e : Nat) (s : State) : State :=
  let mine := (loadOrder s.lay).filter (fun c => decide ((s.encRt c.1).engine = some e))
  let loads := s.engineLoads
  let r := placeOrSuspend s.lay (mine.length + 1) mine loads
  let s := r.1.foldl (fun s b => s.encMove b.1 b.2) s
  r.2.foldl (fun s c => s.encSuspend c) s

/-! ### Decode engines (R139) -/

/-- The picture in progress on an engine is abandoned: its buffer is freed and it stays queued, and its context meets its boundary (R139,
R141). -/
def State.abandonPic (e : Nat) (s : State) : State :=
  match (s.dec.engines.get {} e).pic with
  | none => s
  | some p =>
    let s := (s.unreadPic p.1 p.2).modEngine e (fun en => { en with pic := none, last := none })
    (if (s.ctxRt p.1).resync then s.ctxWaitIrap p.1 else s).ctxSettle p.1

/-- A decode engine is fenced (R139). -/
def State.decFence (e : Nat) (s : State) : State := (alarmUpdate (s.abandonPic e)).dispatch

/-! ### Time domains (R259) -/

/-- The master of a domain vanishes: DOMAIN_LOST, and HOLDOVER from LOCKED (R259). -/
def State.domainLost (d : Nat) (s : State) : State :=
  let s := s.modDomain d (fun x => { x with
    gm := 0, good := 0, bad := 0, state := if x.state = .locked then .holdover else x.state
    holdFrom := if x.state = .locked then s.time.upTicks else x.holdFrom })
  (s.count 0x0C d 9 1).event 0x000C d 0

/-! ### The Splice store's internal versions (R56, R81, R298, R313) -/

/-- Insert a version in frame order; one for the same frame is merged, its objects after those already there (R81). -/
def insertVersion (v : Version) : List Version → List Version
  | [] => [v]
  | w :: t =>
    if w.frame = v.frame then { w with objs := w.objs ++ v.objs, txns := w.txns ++ v.txns, rebase := w.rebase ++ v.rebase } :: t
    else if v.frame < w.frame then v :: w :: t
    else w :: insertVersion v t

/-- Whether the store takes a version for frame `f`: one for `f` is there, or fewer than four are scheduled (R81). -/
def State.storeTakes (s : State) (f : Nat) : Bool :=
  s.splice.versions.any (fun v => decide (v.frame = f)) || decide (s.splice.versions.length < 4)

/-- Internal changes that wait go into the store for the earliest acceptable wall frame (R298, R313). -/
def State.placeInternal (s : State) : State :=
  let f := s.currentFrame + 2
  if (s.splice.wantReserve.isNone && s.splice.wantRebase.isEmpty) || !s.storeTakes f then s
  else
    let objs := match s.splice.wantReserve with
      | none => []
      | some r => [StagedObj.device { (s.layoutAhead f).dev with memReserve := r }]
    { s with splice := { s.splice with
        versions := insertVersion { frame := f, objs := objs, rebase := s.splice.wantRebase } s.splice.versions
        wantReserve := none
        wantRebase := [] } }

/-! ### The effect of a fence by unit (R409) -/

/-- What fencing does to the unit itself (R409). -/
def State.fenceEffect (u : Nat) (s : State) : State :=
  if u < 32 then (s.headDown u).dropRows u
  else if u < 40 then s.decFence (u - 32)
  else if u < 44 then s.encFence (u - 40)
  else if u < 46 then s
  else if u < 50 then
    let s := { s with stop := { s.stop with units := s.stop.units.modify {} (u - 46) (fun x => { x with passing := 0, testFail := true }) } }
    (List.range 8).foldl (fun s i => s.darken (8 * (u - 46) + i)) s
  else if u < 80 then s
  else if u < 82 then ({ s with splice := { s.splice with wantReserve := some 0 } }).placeInternal
  else if u < 104 then
    let s := s.quadStop (u - 80)
    { s with lanes := { s.lanes with pll := s.lanes.pll.set .off (u - 80) .off } }
  else if u < 120 then s.dprxDown (u - 104)
  else
    let s := s.macDown (u - 120)
    (List.range 2).foldl (fun s d => if (s.lay.domains.get {} d).enable && decide ((s.lay.domains.get {} d).mac = u - 120) &&
      decide ((s.time.domain d).gm ≠ 0) then s.domainLost d else s) s

end Sys2Proof.Machine
end

