-- ==== Sys2Proof/Machine/Fault.lean ====
section
/-! DEFINITION. Resets (R423) and the fault collector: sources, counts, records, reactions, fencing, SAFE
(R400 to R416, R473). -/

namespace Sys2Proof.Machine

open Sys2Proof

/-! ### Resets (R423, R255, R389, R436) -/

/-- Locked entries of the access table, which every reset but POR keeps (R389). -/
def lockedEntries (t : Tab AccessCfg) : Tab AccessCfg := t.filter (fun e => e.2.lock)

/-- A firmware load that a reset cuts off leaves its slot invalid; the running image stays (R345). -/
def Flash.abandon (f : Flash) (w : FwLoad) : Flash :=
  if !w.open_ then f
  else if w.slot = 0 then { f with slotA := { f.slotA with valid := false } }
  else if w.slot = 1 then { f with slotB := { f.slotB with valid := false } }
  else f

/-- Whether copy A of the user calibration is the newer valid one (R439). -/
def Flash.newestIsA (f : Flash) : Bool := f.calA.valid && (!f.calB.valid || decide (f.calB.seq ≤ f.calA.seq))

/-- A calibration write that stops part way leaves the older copy torn (R440, R442). -/
def Flash.tear (writing : Bool) (f : Flash) : Flash :=
  if !writing then f
  else if f.newestIsA then { f with calB := { f.calB with valid := false } } else { f with calA := { f.calA with valid := false } }

/-- Whether a calibration write is in progress. -/
def State.calWriting (s : State) : Bool := s.desks.any (fun e => e.2.baseWrite.isSome)

/-- Every reset but a block reset and PERST_N: everything clears that R423 does not name as kept, and the start begins
at `step` (0 while a reset is held, 2 otherwise; R424, R426). The model's own queue and log of outputs stay; vector 63 tells of the
change of MIRROR_DEV_STATE (R46). -/
def State.resetTo (cause : ResetCause) (step : Nat) (s : State) : State :=
  let por := decide (cause = .por)
  { State.reset with
    pending := s.pending
    dev := .starting
    bk := if por then { s.bk with bootId := 0, startCount := 0, resetCause := .por, clkFail := 0, fioTries := 0, collectorLatch := false,
                                  stageValid := false, fuseBad := [], strapChoice := 0, strapAmbig := false }
          else { s.bk with resetCause := cause, stageValid := s.bk.stageValid && decide (cause ≠ .supply) }
    ret := if por then {} else s.ret
    flash := (s.flash.abandon s.fw).tear s.calWriting
    fuses := { s.fuses with committed := false }
    boot := { step := step, afterPor := por }
    clk := { enabled := [.sio], stable := [.sio] }
    pins := { s.pins with fetchStopped := false, gasp := none }
    temp := { readings := s.temp.readings }
    mirror := { devState := 1 }
    lay := { access := if por then [] else lockedEntries s.lay.access }
    time := { upTicks := s.time.upTicks }
    dbg := { s.dbg with trace := none, halted := [] }
    out := { s.out with msix := if s.dev = .starting then s.out.msix else 63 :: s.out.msix }
    free := s.free }

/-- A chip reset (R423): the start begins at step 2. -/
def State.chipReset (cause : ResetCause) (s : State) : State := s.resetTo cause 2

/-! ### Sources (R401, R402, R473) -/

/-- A fault source: class, default mask, fixed bits, bits that cannot be set, and the mark "escalates" (R402). -/
structure SrcInfo where
  cls : Nat
  dflt : Nat
  fixed : Nat := 0
  forbid : Nat := 0
  escalates : Bool := false

/-- The table of R402. Masks are numbers with bit b for reaction b of R382. -/
def srcInfo (n : Nat) : SrcInfo :=
  if n < 32 then ⟨1, 3, 0, 0, true⟩
  else if n < 44 then ⟨1, 7, 0, 0, false⟩
  else if n < 46 then ⟨1, 3, 2, 4, false⟩
  else if n = 46 then ⟨1, 3, 2, 0, false⟩
  else if n = 47 then ⟨2, 35, 3, 0, false⟩
  else if n < 52 then ⟨1, 3, 2, 0, false⟩
  else if n < 56 then ⟨1, 7, 6, 0, false⟩
  else if n = 56 then ⟨1, 11, 0, 0, false⟩
  else if n = 57 then ⟨2, 99, 64, 0, false⟩
  else if n = 58 then ⟨1, 11, 0, 0, false⟩
  else if n < 61 then ⟨1, 5, 0, 0, false⟩
  else if n = 61 then ⟨1, 1, 0, 4, false⟩
  else if n = 62 then ⟨1, 11, 0, 0, false⟩
  else if n = 63 then ⟨2, 99, 64, 0, false⟩
  else if n = 64 then ⟨1, 1, 1, 0, false⟩
  else if n = 65 then ⟨1, 1, 1, 124, false⟩
  else if n = 66 then ⟨0, 0, 0, 0, false⟩
  else if n = 67 then ⟨2, 98, 64, 0, false⟩
  else if n = 68 then ⟨0, 0, 0, 0, false⟩
  else if n = 69 then ⟨1, 1, 0, 0, false⟩
  else if n = 70 then ⟨2, 99, 64, 0, false⟩
  else if n = 71 then ⟨2, 7, 4, 0, false⟩
  else if n = 72 then ⟨0, 1, 0, 0, false⟩
  else if n = 73 then ⟨1, 35, 0, 0, false⟩
  else if n = 74 then ⟨0, 0, 0, 0, false⟩
  else if n = 75 then ⟨1, 1, 0, 0, false⟩
  else if n = 76 then ⟨0, 1, 0, 0, false⟩
  else if n = 77 then ⟨1, 3, 2, 0, false⟩
  else if n = 78 then ⟨0, 1, 0, 0, false⟩
  else if n = 79 then ⟨1, 1, 0, 0, false⟩
  else if n < 82 then ⟨1, 3, 0, 0, false⟩
  else if n < 104 then ⟨1, 3, 0, 0, true⟩
  else if n < 160 then ⟨1, 1, 0, 0, false⟩
  else if n < 176 then ⟨1, 3, 0, 0, false⟩
  else if n = 176 then ⟨2, 33, 32, 0, false⟩
  else if n < 179 then ⟨1, 1, 0, 0, false⟩
  else if n = 179 then ⟨2, 32, 0, 0, false⟩
  else if n < 190 then ⟨1, 10, 2, 0, false⟩
  else if n < 192 then ⟨2, 96, 96, 0, false⟩
  else if n < 201 then ⟨2, 98, 66, 0, false⟩
  else if n = 201 then ⟨1, 35, 0, 0, false⟩
  else if n = 202 then ⟨2, 98, 96, 0, false⟩
  else if n = 203 then ⟨2, 96, 96, 0, false⟩
  else ⟨0, 0, 0, 0, false⟩

/-- The unit a firing names (R473): fixed by the source, or given by the detection for a port, MAC, channel or head. -/
def unitNamed (f : FaultInfo) : Nat :=
  let n := f.source
  if n < 46 then n
  else if n < 48 then 128
  else if n < 52 then n - 2
  else if n < 56 then n - 6
  else if n = 56 then 129
  else if n = 59 || n = 60 then f.unit
  else if (69 ≤ n && n ≤ 72) || n = 74 then f.unit
  else if 82 ≤ n && n < 104 then n
  else if 160 ≤ n && n ≤ 176 then f.unit
  else 0xFFFF

/-- Whether a source names a unit numbered below 128 (R406, R473). -/
def namesUnit (n : Nat) : Bool :=
  decide (n < 46) || inRange 48 55 n || n = 59 || n = 60 || inRange 69 72 n || n = 74 || inRange 82 103 n || inRange 160 176 n

/-- Whether a source names a block (R473). -/
def namesBlock (n : Nat) : Bool :=
  decide (n < 44) || inRange 56 60 n || n = 62 || inRange 82 103 n || inRange 160 176 n || inRange 180 189 n

/-- A source's counters and masks. -/
def State.faultSrc (s : State) (n : Nat) : FaultSrc := s.flt.srcs.get {} n

/-- Apply `f` to a source. -/
def State.modFaultSrc (n : Nat) (f : FaultSrc → FaultSrc) (s : State) : State :=
  { s with flt := { s.flt with srcs := s.flt.srcs.modify {} n f } }

/-- The reaction mask in force (R402, R406). -/
def State.faultMask (s : State) (n : Nat) : Nat := (s.faultSrc n).mask.getD (srcInfo n).dflt

/-! ### Count and capture (R404, R407, R408) -/

/-- The source's count rises by one and saturates (R408). -/
def State.faultCount (n : Nat) (s : State) : State := s.modFaultSrc n (fun x => { x with count := satAdd x.count 1 })

/-- The first-error record of a firing now (R407). -/
def State.firstErrOf (s : State) (f : FaultInfo) : FirstErr :=
  { source := f.source, master := f.master, type := f.type, length := f.length, unit := unitNamed f, addr := f.addr,
    sec := s.wallNs / 1000000000, ns := s.wallNs % 1000000000, subject := f.subject, valid := true, overflow := false }

/-- Capture the first firing of the class, or set OVERFLOW (R408). -/
def State.faultCapture (f : FaultInfo) (s : State) : State :=
  let c := (srcInfo f.source).cls
  let r := s.flt.first.get {} c
  let r' := if r.valid then { r with overflow := true } else s.firstErrOf f
  { s with flt := { s.flt with first := s.flt.first.set {} c r' } }

/-- A source's FAULT event, with the count at the time it is written (R408). -/
def State.writeFaultEvent (n : Nat) (s : State) : State :=
  (s.modFaultSrc n (fun x => { x with evtFrame := if s.raster.run then some s.raster.frame else none, evtDue := false })).event 0x0006 n
    ((srcInfo n).cls + (s.faultSrc n).count * 4294967296)

/-- At most one FAULT event of a source per wall frame (R408). A later firing of the frame is told at the next wall line 0, so that no
firing is hidden (DEDUCED). -/
def State.faultEvent (n : Nat) (s : State) : State :=
  if s.raster.run && decide ((s.faultSrc n).evtFrame = some s.raster.frame) then s.modFaultSrc n (fun x => { x with evtDue := true })
  else s.writeFaultEvent n

/-- The FAULT events that wait are written at wall line 0, in rising order of source (R408). -/
def State.dueFaultEvents (s : State) : State :=
  (s.flt.srcs.filter (fun e => e.2.evtDue)).foldl (fun s e => s.writeFaultEvent e.1) s

/-! ### Fencing and SAFE (R409, R410, R413) -/

/-- 86,400 s and 60 s in ns (R405, R410, R412). -/
def dayNs : Nat := 86400000000000

/-- How many entries of a list of (key, moment) are of `k` and lie within `span` before `now`. -/
def recentCount (k now span : Nat) (l : List (Nat × Nat)) : Nat :=
  (l.filter (fun e => decide (e.1 = k) && decide (now ≤ e.2 + span))).length

/-- A unit is fenced for fault source `src` (R409): its bit, the FENCE event, DEGRADED from RUNNING, and the unit's own
effect. The third fence within 86,400 s lasts until a chip reset (R410). -/
def State.fenceUnit (u src : Nat) (s : State) : State :=
  if s.isFenced u then s
  else
    let now := s.wallNs
    let third := decide (2 ≤ recentCount u now dayNs s.flt.strikes)
    let s := { s with flt := { s.flt with fenced := insertSorted u s.flt.fenced, strikes := (u, now) :: s.flt.strikes,
                                          untilReset := if third then insertSorted u s.flt.untilReset else s.flt.untilReset } }
    let s := s.event 0x0007 u src
    let s := if s.dev = .running then s.setDev .degraded src else s
    s.fenceEffect u

/-- The device enters SAFE (R413, R53): memory writers and launch stop, and LIVE and ABORTED heads go to STARTING. -/
def State.enterSafe (src : Nat) (s : State) : State :=
  if s.dev = .safe || s.dev = .off then s
  else s.headsSafe.setDev .safe src

/-- The unit leaves its fence, with UNFENCE, and the device returns to RUNNING once no unit is fenced (R410, R50). -/
def State.unfence (u : Nat) (s : State) : State :=
  if !s.isFenced u then s
  else
    let s := { s with flt := { s.flt with fenced := removeNat u s.flt.fenced, passedTests := removeNat u s.flt.passedTests } }
    let s := s.event 0x0008 u 0
    let s := if s.dev = .degraded && s.flt.fenced.isEmpty then s.setDev .running 0xFFFF else s
    if u < 32 then s.modHead u (fun r => { r with hpdWasLow := true })
    else if u < 40 then (alarmUpdate s).dispatch
    else if u < 44 then s.encResume
    else if u = 80 || u = 81 then
      if s.isFenced 80 || s.isFenced 81 then s else ({ s with splice := { s.splice with wantReserve := some 1 } }).placeInternal
    else if 82 ≤ u && u < 104 then { s with lanes := { s.lanes with pll := s.lanes.pll.set .off (u - 80) .locked } }
    else s

/-! ### Block resets (R403, R412) -/

/-- A processor's block is reset: until its restart it does nothing; commands stop while Cleat restarts (R412). -/
def State.procReset (p : Nat) (s : State) : State :=
  let s := { s with flt := { s.flt with restarting := insertSorted p s.flt.restarting } }
  if p = 6 || p = 7 then
    s.desks.foldl (fun s e => if e.2.state = .active || e.2.state = .starting then s.deskState e.1 .linkDown else s) s
  else s

/-- The frames that wait for their seals are lost, and their buffers are freed (R403). -/
def State.dropReady (s : State) : State :=
  s.ing.sources.foldl (fun s e => (e.2.ready.foldl (fun s f => (s.dropBuf e.1 f.buf).sentPic e.1 f) s).modSrc e.1 (fun rt => { rt with ready := [] })) s

/-- The frames that flows are receiving are lost, and their buffers are freed (R403). -/
def State.dropOpenFrames (s : State) : State :=
  let t := s.ing.flows.foldl (fun s e => e.2.frames.foldl (fun s f => match f.buf with
    | none => s
    | some b => s.dropBuf (s.lay.flows.get {} e.1).target b) s) s
  { t with ing := { t.ing with flows := (t.ing.flows.map (fun e => (e.1, { e.2 with frames := [], holes := [] }))).filter (fun e => decide (e.2 ≠ {})) } }

/-- The overlay surfaces under way are lost with their buffers, and the point flows start afresh (R403). -/
def State.dropDrawings (s : State) : State :=
  let t := s.pts.overlays.foldl (fun s e => e.2.drawing.foldl (fun s d => s.dropBuf (overlaySource e.1) d.buf) s) s
  { t with pts := { t.pts with flows := [], overlays := (t.pts.overlays.map (fun e => (e.1, { e.2 with drawing := [] }))).filter (fun e => decide (e.2 ≠ {})) } }

/-- The in-flight work of a block is lost (R403). -/
def State.blockReset (f : FaultInfo) (s : State) : State :=
  let n := f.source
  if n < 32 then s.headLinkLoss n
  else if n < 40 then (s.abandonPic (n - 32)).dispatch
  else if n < 44 then s.enc.ctxs.foldl (fun s e => if e.2.engine = some (n - 40) && e.2.pic.isSome then
      (s.modEnc e.1 (fun r => { r with pic := none })).encRestart e.1 else s) s
  else if n = 56 then s.dropDrawings
  else if n = 57 then s.dropReady
  else if n = 58 then s.dropOpenFrames
  else if n = 59 then s.dprxDown (f.unit - 104)
  else if n = 60 then s.macDown (f.unit - 120)
  else if n = 62 then s.desks.foldl (fun s e => if e.2.state = .active then s.deskState e.1 .linkDown else s) s
  else if 82 ≤ n && n < 104 then s.quadStop (n - 80)
  else if 160 ≤ n && n ≤ 176 then s.headLinkLoss f.unit
  else if 180 ≤ n && n ≤ 189 then s.procReset (n - 180)
  else s

/-! ### A firing (R404, R405, R412) -/

/-- Escalation: this firing is the third on its unit within 60 s (R405). -/
def State.escalated (n : Nat) (s : State) : Bool :=
  (srcInfo n).escalates && decide (2 ≤ recentCount n s.wallNs 60000000000 s.flt.recent)

/-- What a firing records apart from its reactions: count, capture, and the histories of R405, R410 and R412. -/
def State.faultRecord (f : FaultInfo) (s : State) : State :=
  let n := f.source
  let u := unitNamed f
  let s := (s.faultCount n).faultCapture f
  { s with
    flt := { s.flt with
      recent := if (srcInfo n).escalates then (n, s.wallNs) :: s.flt.recent else s.flt.recent
      wdogs := if 180 ≤ n && n ≤ 189 then (n - 180, s.wallNs) :: s.flt.wdogs else s.flt.wdogs
      tests := s.flt.tests.map (fun t => if t.1 = u then (t.1, false) else t) }
    mem := if n = 72 then { s.mem with retrain := insertSorted (f.unit - 50) s.mem.retrain } else s.mem }

/-- The reactions of a firing with mask `m`, in the order of R404, and its events in the fixed order. -/
def State.faultReact (f : FaultInfo) (m : Nat) (s : State) : State :=
  let n := f.source
  let u := unitNamed f
  if m.testBit 4 then s.chipReset .reaction
  else if s.dev = .safe then s
  else
    let s := if m.testBit 5 then { s with flt := { s.flt with latchClasses := insertSorted (srcInfo n).cls s.flt.latchClasses } } else s
    let s := if m.testBit 0 then s.faultEvent n else s
    let s := if m.testBit 6 || (m.testBit 2 && inRange 50 79 u) then s.enterSafe n
      else if m.testBit 2 && decide (u < 128) then s.fenceUnit u n
      else if m.testBit 3 then s.blockReset f
      else s
    if (180 ≤ n && n ≤ 189) && decide (3 ≤ recentCount (n - 180) s.wallNs dayNs s.flt.wdogs) then s.chipReset .bowline
    else boundCheck s

/-- A fault source fires (R404): count, capture, then the reactions of the mask in force, with the fence bit added at
an escalation. Sources 205 to 255 never fire (R402). -/
def State.fire (f : FaultInfo) (s : State) : State :=
  if 205 ≤ f.source then s
  else
    let m := s.faultMask f.source ||| (if s.escalated f.source then 4 else 0)
    (s.faultRecord f).faultReact f m

/-- A source fires without an access. -/
def State.fireSrc (n unit subject : Nat) (s : State) : State := s.fire { source := n, unit := unit, subject := subject }

/-- A corrected or contained error of an access. -/
def State.fireAccess (n master type addr len : Nat) (s : State) : State :=
  s.fire { source := n, master := master, type := type, addr := addr, length := len }

end Sys2Proof.Machine
end

