-- ==== Sys2Proof/Machine/Seals.lean ====
section
/-! DEFINITION. The seal unit (R29, R105 to R112): seals, the source status table, and the drops of R106. -/

namespace Sys2Proof.Machine

open Sys2Proof

/-- A frame's bytes as both check values cover them: planes and lines in order, without padding (R28, R109). -/
def FrameBuf.data (f : FrameBuf) : List Byte := f.lines.flatten

/-- FROZEN_RUN of the next seal (R111). -/
def frozenRun (last : Option Seal) (content : Word) : Nat :=
  match last with
  | none => 0
  | some x => if x.contentCrc = content then min (x.frozenRun + 1) 65535 else 0

/-- CONCEALED_FRACTION (R108): ⌈255 × concealed / (WIDTH × HEIGHT)⌉, at least the frame's own floor. -/
def concealedFraction (f : ReadyFrame) (b : FrameBuf) : Nat :=
  if f.concealed then max f.fractionMin ((255 * f.concealedPixels + (b.width * b.height - 1)) / (b.width * b.height)) else 0

/-- FRAME_SEQ of a source's next seal (R107). Sources 984 to 1023 begin at the first wall frame of the raster. -/
def State.nextSealSeq (s : State) (i : Nat) : Nat :=
  match (s.srcRt i).nextSeq with
  | some q => q
  | none => s.raster.origin % 4294967296

/-- The seal of a frame (R107, R108, R111). An overlay surface's carries no REPEATED (R226). -/
def State.mkSeal (s : State) (i : Nat) (f : ReadyFrame) (b : FrameBuf) : Seal :=
  let rt := s.srcRt i
  let last := rt.seals.head?
  let q := s.nextSealSeq i
  let addr := b.addr
  let content := foldCrc 0 0 i b.data
  let run := frozenRun last content
  let n := (s.lay.source i).frozenN
  { source := i, concealed := f.concealed, frozen := decide (n ≠ 0) && decide (n ≤ run + 1),
    repeated := f.drawn.isNone && (f.repeated || ((last.map (fun x => decide (x.capture = f.capture))).getD false)),
    host := f.host, captSrc := f.captSrc, seq := q, capture := f.capture, arrival := f.arrival, sealTime := s.wallNs,
    bufAddr := addr, payloadCrc := foldCrc addr q i b.data, contentCrc := content, width := b.width, height := b.height,
    pitch := pitchOf b.format b.width + b.pitchUp, format := b.format, fraction := concealedFraction f b, origin := f.origin,
    frozenRun := run, cls := f.cls }

/-- Whether a flow is one of a pair. -/
def isPair (c : FlowCfg) : Bool := decide (c.pair ≠ 0xFFFF)

/-- Count for a flow, and for both flows of a pair: what one calls its own path is the other's pair path (R96). -/
def State.countFlow (c : FlowCfg) (k i n : Nat) (s : State) : State :=
  let t := s.count 0x01 k i n
  if isPair c then t.count 0x01 (s.lay.flows.get {} k).pair (if i = 4 then 5 else if i = 5 then 4 else i) n else t

/-- Count a dropped frame of a source, and of its flow (R97, R106). -/
def State.countDrop (i : Nat) (flow : Option Nat) (s : State) : State :=
  let s := s.count 0x16 i 1 1
  match flow with
  | none => s
  | some f => s.countFlow (s.lay.flows.get {} f) f 9 1

/-- The counters of a written seal (R96, R97). -/
def State.countSeal (i : Nat) (flow : Option Nat) (x : Seal) (s : State) : State :=
  let s := s.count 0x16 i 0 1
  let s := if x.repeated then s.count 0x16 i 2 1 else s
  let s := if x.frozen then s.count 0x16 i 3 1 else s
  match flow with
  | none => s
  | some f => s.countFlow (s.lay.flows.get {} f) f 8 1

/-- Mode-2 compare units of the source check the new seal (R191). -/
def State.whipSeal (x : Seal) (s : State) : State :=
  { s with stop := { s.stop with whips := s.stop.whips.map (fun e =>
      if e.2.cfg.mode = 2 && decide (e.2.cfg.source = x.source) && !e.2.stopped then (e.1, { e.2 with checking := e.2.checking ++ [some x] })
      else e) } }

/-- An overlay surface's seal is kept with its head frame and version (R228). -/
def State.noteOverlay (i q : Nat) (drawn : Option (Nat × Nat × Nat)) (s : State) : State :=
  match drawn with
  | none => s
  | some d => { s with pts := { s.pts with overlays := s.pts.overlays.modify {} (i - 992) (fun o =>
      { o with seals := ({ seq := q, frame := d.1, half := d.2.1, tag := d.2.2 } :: o.seals).take 8 }) } }

/-- The seal of frame `f` is written: the seal ring, the status entry, and what a seal sets off (R29, R105, R156, R191). -/
def State.putSeal (i : Nat) (f : ReadyFrame) (b : FrameBuf) (s : State) : State :=
  let x := s.mkSeal i f b
  let s := s.modSrc i (fun rt => { rt with
    seals := (x :: rt.seals).take 8
    nextSeq := some ((x.seq + 1) % 4294967296)
    status := { latestSeq := x.seq, lastAdvance := s.wallNs, flags := sealFlags x }
    bufs := rt.bufs.set {} f.buf { b with sealSeq := some x.seq, writing := false } })
  let s := ((s.countSeal i f.flow x).noteOverlay i x.seq f.drawn).whipSeal x
  (s.releaseBufs i).sealArrived i (decide (f.cls = 0)) (f.drawn.map (fun d => (d.1, d.2.1)))

/-- Whether a frame's capture time is earlier than that of its source's latest seal (R106). -/
def State.stepsBack (s : State) (i : Nat) (f : ReadyFrame) : Bool :=
  ((s.srcRt i).seals.head?.map (fun x => decide (f.capture < x.capture))).getD false

/-- A frame that is ready is sealed, or dropped and its buffer freed when its capture time is earlier than the latest
seal's (R105, R106). -/
def State.sealFrame (i : Nat) (f : ReadyFrame) (s : State) : State :=
  let rt := s.srcRt i
  if s.stepsBack i f then (s.modSrc i (fun rt => { rt with bufs := rt.bufs.erase f.buf })).countDrop i f.flow
  else s.putSeal i f (rt.bufs.get {} f.buf)

/-- Whether the units that write device memory run: SAFE stops them (R413). -/
def State.writersRun (s : State) : Bool := decide (s.dev ≠ .safe) && decide (8 ≤ s.boot.step)

/-- Hand a frame to the seal unit. -/
def State.makeReady (i : Nat) (f : ReadyFrame) (s : State) : State := s.modSrc i (fun rt => { rt with ready := rt.ready ++ [f] })

end Sys2Proof.Machine
end

