-- ==== Sys2Proof/Machine/Ingest.lean ====
section
/-! DEFINITION. Ingest: Ethernet reception, RTP flows and pairs, frame closing and concealment, captured screens, and the
seal of a frame (R86 to R112, R321). -/

namespace Sys2Proof.Machine

open Sys2Proof

/-! ### The flow table (R89 to R92) -/

/-- Whether an address is a multicast group: 224.0.0.0/4 as an IPv4-mapped address, or FF00::/8 (R339). -/
def isMulticast (a : Nat) : Bool :=
  decide (a / 268435456 = 0xFFFFE) || decide (a / 2 ^ 120 = 255)

/-- Whether an address is an IPv4-mapped one (R339). -/
def isIpv4 (a : Nat) : Bool := decide (a / 4294967296 = 0xFFFF)

/-- Whether a packet matches an enabled entry (R91). The SSRC does not concern point flows (R90). -/
def flowMatches (c : FlowCfg) (mac vlan dst port src ssrc : Nat) : Bool :=
  c.enable && decide (c.mac = mac) && decide (c.vlan = vlan) && decide (c.dstAddr = dst) && decide (c.dstPort = port) &&
    (c.srcAny || decide (c.srcAddr = src)) && (c.ssrcAny || decide (c.type = 4) || decide (c.ssrc = ssrc))

/-- The rank of an entry among those that match: a specific sender first, then a specific SSRC, which a point flow has not (R90, R91). -/
def flowRank (c : FlowCfg) : Nat := (if c.srcAny then 2 else 0) + (if c.ssrcAny || decide (c.type = 4) then 1 else 0)

/-- Whether a UDP port is one of PTP's (R89). -/
def ptpPort (port : Nat) : Bool := decide (port = 319) || decide (port = 320)

/-- The entry that takes a packet (R91). Packets to PTP's ports never reach the table (R89). -/
def matchFlow (l : Layout) (mac vlan dst port src ssrc : Nat) : Option (Nat × FlowCfg) :=
  l.flows.foldl (fun best e =>
    if !ptpPort port && flowMatches e.2 mac vlan dst port src ssrc then
      (match best with | none => some e | some b => if flowRank e.2 < flowRank b.2 then some e else best)
    else best) none

/-- Whether a MAC receives now: enabled in the set, its link up, its unit unfenced, and the device past reset. -/
def State.macLive (s : State) (m : Nat) : Bool :=
  (s.lay.macs.get {} m).enable && hasNat m s.ing.macUp && !s.isFenced (120 + m) && decide (s.dev ≠ .off)

/-- A frame leaves a MAC: its kind and its numbers. Kinds: 1 ARP reply, 2 neighbour advertisement, 3 echo reply, 4 a
membership report of a group with a sender or none, 5 leaving a group, 6 Delay_Req. -/
def State.send (mac kind : Nat) (ws : List Nat) (s : State) : State := { s with out := { s.out with net := (mac, kind, ws) :: s.out.net } }

/-- The link-local address of a MAC by modified EUI-64 (R355). -/
def linkLocal (addr : Nat) : Nat :=
  0xFE80 * 2 ^ 112 + ((addr / 2 ^ 24) ^^^ 0x020000) * 2 ^ 40 + 0xFFFE * 2 ^ 24 + addr % 2 ^ 24

/-- Whether host software has assigned an address to a MAC (R89, R355). -/
def ownAddress (c : MacCfg) (a : Nat) : Bool :=
  (decide (c.ipv4 ≠ 0) && decide (a = 0xFFFF * 4294967296 + c.ipv4)) || (decide (c.ipv6 ≠ 0) && decide (a = c.ipv6)) ||
    decide (a = linkLocal c.addr)

/-- The sender that a membership report filters, 0 for any (R92). -/
def reportSource (c : FlowCfg) : Nat := if c.srcAny then 0 else c.srcAddr

/-- Membership reports for the enabled multicast flows of a MAC (R92). -/
def State.reportGroups (mac : Nat) (v4 : Bool) (s : State) : State :=
  s.lay.flows.foldl (fun s e =>
    if e.2.enable && decide (e.2.mac = mac) && isMulticast e.2.dstAddr && (isIpv4 e.2.dstAddr == v4) then
      s.send mac 4 [e.2.dstAddr, reportSource e.2]
    else s) s

/-- What the Lay core answers: requests for the MAC's addresses, and membership queries (R89, R92). -/
def State.fixedRule (mac : Nat) (kind : EthKind) (s : State) : State :=
  let c := s.lay.macs.get {} mac
  match kind with
  | .arp t => if ownAddress c t && isIpv4 t then s.send mac 1 [t] else s
  | .neighbour t => if ownAddress c t && !isIpv4 t then s.send mac 2 [t] else s
  | .echo t => if ownAddress c t then s.send mac 3 [t] else s
  | .igmpQuery => s.reportGroups mac true
  | .mldQuery => s.reportGroups mac false
  | _ => s

/-- ETH_FRAME_RX (R89, R91, R92): checks, fixed rules, or the flow table. What a matched packet does is RTP_PACKET_RX or
POINT_DATAGRAM_RX. -/
def State.ethFrame (mac : Nat) (kind : EthKind) (vlan length : Nat) (fcsOk : Bool) (s : State) : State :=
  if !s.macLive mac then s
  else if !fcsOk then s.count 0x17 mac 2 1
  else if 9216 < length then s.count 0x17 mac 1 1
  else
    match kind with
    | .ptp => s
    | .udp port dst src ssrc =>
      if !ptpPort port && s.writersRun && (matchFlow s.lay mac vlan dst port src ssrc).isNone then s.count 0x17 mac 0 1 else s
    | .other => s
    | _ => if s.procDown 8 then s else s.fixedRule mac kind

/-! ### Capture time (R102, R103) -/

/-- The difference of two 32-bit timestamps, signed (R102). -/
def tsDiff (a b : Nat) : Int :=
  let d := idxDiff a b
  if d < 2147483648 then (d : Int) else (d : Int) - 4294967296

/-- Capture time and CAPT_SRC of a frame whose first packet arrives now with RTP timestamp `ts`, and whether it was
clamped (R102, R103). A mapped time before the epoch has no value in the spec: a free value. -/
def State.captureOf (c : FlowCfg) (ts : Nat) (s : State) : (Nat × Nat) × State :=
  let arrival := s.wallNs
  let d := s.time.domain c.tsMode
  if c.tsMode = 2 || d.state = .absent then ((arrival, 1), s)
  else
    let a := d.ns * 9 / 100000
    let t : Int := ((a : Int) + tsDiff ts (a % 4294967296)) * 100000 / 9 + c.captOffset
    let cap : Int := t - ((d.ns : Int) - arrival)
    if (arrival : Int) < cap then ((arrival, 3), s)
    else if cap < 0 then
      let f := s.takeFree
      ((f.1, 0), f.2)
    else ((cap.toNat, 0), s)

/-! ### Type-3 pixels (R99, R109) -/

/-- FORMAT of a type-3 flow (R99, R354). -/
def bufferFormat (c : FlowCfg) : Nat := if c.sampling = 0 then 3 else if c.sampling = 1 then 5 else 4

/-- Pixels and bytes of a pixel group (R109). -/
def pixelGroup (format : Nat) : Nat × Nat := if format = 3 then (2, 5) else if format = 4 then (4, 15) else (1, 3)

/-- The byte place of pixel `x` of a line. -/
def pixelByte (format x : Nat) : Nat := let g := pixelGroup format; x / g.1 * g.2

/-- Replace the bytes of a line from `off` on. -/
def patch (off : Nat) (bs line : List Byte) : List Byte := line.take off ++ bs ++ line.drop (off + bs.length)

/-- Apply `f` to line `y` of a frame. -/
def patchLine (y : Nat) (f : List Byte → List Byte) (lines : List (List Byte)) : List (List Byte) := lines.modify y f

/-- A frame buffer as ingest begins to write it. Every byte is received or concealed before the frame is sealed. -/
def emptyFrame (addr format width height : Nat) : FrameBuf :=
  { addr := addr, width := width, height := height, format := format, writing := true,
    lines := List.replicate (storedLines format height) (List.replicate (lineBytes format width) 0#8) }

/-- Whether a payload segment lies inside the frame and holds its pixels' bytes. -/
def segmentOk (b : FrameBuf) (g : Segment) : Bool :=
  decide (g.line < b.height) && decide (g.offset + g.pixels ≤ b.width) && decide (g.data.length = pixelByte b.format g.pixels)

/-- Write a packet's segments into the frame. -/
def writeSegments (gs : List Segment) (b : FrameBuf) : FrameBuf :=
  gs.foldl (fun b g => if segmentOk b g then { b with lines := patchLine g.line (patch (pixelByte b.format g.offset) g.data) b.lines } else b) b

/-- Mid-grey in a packed format: 0x200 in every 10-bit component, 0x80 in every 8-bit one (R99). -/
def greyByte (format i : Nat) : Byte := if format = 5 then 0x80#8 else ([0x80#8, 0x20#8, 0x08#8, 0x02#8, 0x00#8].getD (i % 5) 0#8)

/-- The bytes that conceal part of a line: those of the latest sealed frame, or mid-grey (R99). -/
def concealBytes (ref : Option FrameBuf) (format y off len : Nat) : List Byte :=
  match ref with
  | some r => ((r.lines.getD y []).drop off).take len
  | none => (List.range len).map (fun i => greyByte format (off + i))

/-- Conceal the pixels `a` to `b` − 1 of the raster order (R99). -/
def concealSpan (ref : Option FrameBuf) (a b : Nat) (f : FrameBuf) : FrameBuf :=
  { f with lines := f.lines.mapIdx (fun y line =>
      let x0 := max a (y * f.width) - y * f.width
      let x1 := min b ((y + 1) * f.width) - y * f.width
      if x0 < x1 then
        let o := pixelByte f.format x0
        patch o (concealBytes ref f.format y o (pixelByte f.format x1 - o)) line
      else line) }

/-- The runs that a list of runs leaves uncovered between `a` and `b`. -/
def uncoveredRuns (b : Nat) : Nat → List (Nat × Nat) → List (Nat × Nat)
  | a, [] => if a < b then [(a, b)] else []
  | a, r :: t => (if a < min r.1 b then [(a, min r.1 b)] else []) ++ uncoveredRuns b (max a r.2) t

/-- Insert a run by its start. -/
def insertRunAt (r : Nat × Nat) : List (Nat × Nat) → List (Nat × Nat)
  | [] => [r]
  | q :: t => if r.1 ≤ q.1 then r :: q :: t else q :: insertRunAt r t

/-- The runs of pixels received so far, by their start. -/
def OpenFrame.runs (f : OpenFrame) : List (Nat × Nat) := f.spans.foldr (fun p l => insertRunAt p.2 l) []

/-- The frame that concealment copies: the source's latest sealed one, if its geometry is the same (R99). -/
def State.concealRef (s : State) (i : Nat) (b : FrameBuf) : Option FrameBuf :=
  match s.latestInput i with
  | none => none
  | some x =>
    let r := (s.srcRt i).bufs.get {} x.2
    if x.1.format = b.format && x.1.width = b.width && x.1.height = b.height then some r else none

/-- Apply `f` to a buffer of a source. -/
def State.modBuf (i b : Nat) (f : FrameBuf → FrameBuf) (s : State) : State :=
  s.modSrc i (fun rt => { rt with bufs := rt.bufs.modify {} b f })

/-- Conceal every pixel not yet received or concealed between `a` and `b` (R99). -/
def State.concealRuns (i buf a b : Nat) (f : OpenFrame) (s : State) : State :=
  let fb := (s.srcRt i).bufs.get {} buf
  let ref := s.concealRef i fb
  let covered := f.filled.foldr insertRunAt f.runs
  let gaps := (uncoveredRuns b a (covered.filter (fun r => decide (a < r.2))))
  s.modBuf i buf (fun fb => gaps.foldl (fun fb r => concealSpan ref r.1 r.2 fb) fb)

/-! ### Flows (R93 to R98) -/

/-- The flow ID under which a pair's state stands: the lower (R95, DEDUCED). -/
def flowKey (c : FlowCfg) (f : Nat) : Nat := if c.pair = 0xFFFF then f else min f c.pair

/-- A flow's reception state. -/
def State.flowRt (s : State) (k : Nat) : FlowRt := s.ing.flows.get {} k

/-- Apply `f` to a flow's reception state. -/
def State.modFlow (k : Nat) (f : FlowRt → FlowRt) (s : State) : State :=
  { s with ing := { s.ing with flows := s.ing.flows.modify {} k f } }

/-- The frame period of a flow in ns (R98). -/
def framePeriod (c : FlowCfg) (fl : FlowRt) : Nat :=
  if c.type = 3 then 1000000000 * c.rateDen / c.rateNum
  else match fl.closedTs with
    | a :: b :: _ => min (max (idxDiff a b * 1000000000 / 90000) 10000000) 1000000000
    | _ => 40000000

/-- The lowest sequence number that may belong to a frame: one above the highest received below its first. What has left the numbers
that are kept stands in the frame's own `floor`. -/
def frameFloor (fl : FlowRt) (f : OpenFrame) : Nat :=
  let first := f.seqs.foldl min (f.seqs.headD 0)
  fl.seen.foldl (fun a q => if q < first then max a (q + 1) else a) (if f.floor ≤ first then f.floor else 0)

/-- Whether a hole of the frame is open: below its marker, above every packet of an earlier frame (R98). -/
def holeIn (fl : FlowRt) (f : OpenFrame) (m : Nat) : Bool :=
  fl.holes.any (fun h => decide (frameFloor fl f ≤ h.seq) && decide (h.seq < m))

/-- A frame may close by its marker (R98, first moment). -/
def closable (fl : FlowRt) (f : OpenFrame) : Bool := match f.marker with | none => false | some m => !holeIn fl f m

/-- Lost packets of a frame: those of its range that never came. -/
def lostOf (fl : FlowRt) (f : OpenFrame) : List Nat :=
  let top := f.seqs.foldl max 0
  (fl.lost ++ fl.holes.map (fun h => h.seq)).filter (fun q => decide (frameFloor fl f ≤ q) && decide (q ≤ top))

/-- A type-3 frame closes: what was never received is concealed, and the frame goes to the seal unit (R98, R99). -/
def State.closeType3 (k : Nat) (c : FlowCfg) (f : OpenFrame) (s : State) : State :=
  match f.buf with
  | none => s
  | some b =>
    let fb := (s.srcRt c.target).bufs.get {} b
    let total := fb.width * fb.height
    let missing := (uncoveredRuns total 0 f.runs).foldl (fun a r => a + (r.2 - r.1)) 0
    (s.concealRuns c.target b 0 total f).makeReady c.target
      { buf := b, capture := f.capture, captSrc := f.captSrc, arrival := f.arrival, concealedPixels := missing,
        concealed := decide (0 < missing), origin := k, cls := f.cls, flow := some k }

/-- A coded picture closes and goes to its context, with its NAL units or JPEG parts and what of them is lost (R98, R117, R130). -/
def State.closeCoded (c : FlowCfg) (fl : FlowRt) (f : OpenFrame) (s : State) : State :=
  let ps := partsInOrder c.type f.parts (lostOf fl f)
  let p : CodedPic := { id := s.dec.nextPic, units := if c.type = 2 then [] else gatherUnits ps, scan := if c.type = 2 then jpegParts ps else [],
                        scanOpen := c.type = 2 && f.marker.isNone, capture := f.capture, captSrc := f.captSrc, arrival := f.arrival,
                        lost := lostOf fl f, closedWall := s.wallNs, closedPos := s.raster.pos, cls := f.cls }
  ({ s with dec := { s.dec with nextPic := s.dec.nextPic + 1 } }).queuePic c.target p

/-- A frame of a flow closes (R98). -/
def State.closeFrame (k : Nat) (c : FlowCfg) (ts : Nat) (s : State) : State :=
  let fl := s.flowRt k
  match List.find? (fun (f : OpenFrame) => decide (f.ts = ts)) fl.frames with
  | none => s
  | some f =>
    let s := s.modFlow k (fun fl => { fl with frames := fl.frames.filter (fun g => decide (g.ts ≠ ts)),
                                              closedTs := (ts :: fl.closedTs).take 1100 })
    if f.dropped then s else if c.type = 3 then s.closeType3 k c f else s.closeCoded c fl f

/-- Every frame that its marker lets close closes, oldest first. -/
def State.closeMarked (k : Nat) (c : FlowCfg) (s : State) : State :=
  ((s.flowRt k).frames.filter (closable (s.flowRt k))).foldl (fun s f => s.closeFrame k c f.ts) s

/-- A discontinuity (R93, R141): the open frames close as lost, their buffers are freed, open holes count as lost, and the
flow restarts; the decode context resynchronises. -/
def State.discontinuity (k : Nat) (c : FlowCfg) (s : State) : State :=
  let fl := s.flowRt k
  let s := (s.countFlow c k 7 1).countFlow c k 3 fl.holes.length
  let s := if c.type = 3 then fl.frames.foldl (fun s f => match f.buf with | none => s | some b => (s.dropBuf c.target b).count 0x16 c.target 1 1) s else s
  let s := s.modFlow k (fun fl => { arrivalA := fl.arrivalA, arrivalB := fl.arrivalB, downA := fl.downA, downB := fl.downB })
  if c.type < 3 then s.ctxResync c.target else s

/-- The unwrapped number of a packet: for type 3 its 32-bit number, otherwise the nearest to the highest received (R93). -/
def unwrapSeq (c : FlowCfg) (fl : FlowRt) (seq : Nat) : Int :=
  let m : Int := if c.type = 3 then 4294967296 else 65536
  let d := ((seq : Int) - fl.highest) % m
  (fl.highest : Int) + (if 2 * d < m then d else d - m)

/-- The first number of a flow that starts: above 2^32, so that numbers below it stay natural numbers. -/
def firstSeq (seq : Nat) : Nat := 4294967296 + seq

/-- Whether a packet breaks the sequence (R93). -/
def breaks (c : FlowCfg) (fl : FlowRt) (p : RtpPacket) : Bool :=
  fl.started && (decide (1024 < (unwrapSeq c fl p.seq - fl.highest).natAbs) || (c.ssrcAny && decide (p.ssrc ≠ fl.ssrc)))

/-- PATH_MISS of path 0 (A) or 1 (B) (R96). -/
def State.pathMiss (c : FlowCfg) (k path n : Nat) (s : State) : State := s.countFlow c k (4 + path) n

/-- A path delivers number `e`: it misses each settled number that it passes over, and it is up (R95). Of the numbers up to the highest
received, those with no open hole are settled. -/
def State.pathSeen (c : FlowCfg) (k path e : Nat) (s : State) : State :=
  let fl := s.flowRt k
  let top := if path = 0 then fl.topA else fl.topB
  let got := if path = 0 then fl.gotA else fl.gotB
  let missed := match top with
    | none => 0
    | some t => min e (fl.highest + 1) - (t + 1) - (fl.holes.filter (fun h => decide (t < h.seq) && decide (h.seq < e))).length
  let s := s.pathMiss c k path missed
  let top' := some (match top with | none => e | some t => max t e)
  let got' := (e :: got).filter (fun q => decide (e ≤ q + 2048))
  if path = 0 then s.modFlow k (fun fl => { fl with topA := top', gotA := got', arrivalA := some s.wallNs, downA := false })
  else s.modFlow k (fun fl => { fl with topB := top', gotB := got', arrivalB := some s.wallNs, downB := false })

/-- Number `q` is settled: a path that has passed it without delivering it misses it (R95). -/
def State.settled (c : FlowCfg) (k q : Nat) (s : State) : State :=
  let fl := s.flowRt k
  let passed := fun (t : Option Nat) => (t.map (fun x => decide (q < x))).getD false
  let s := if passed fl.topA && !hasNat q fl.gotA then s.pathMiss c k 0 1 else s
  if passed fl.topB && !hasNat q fl.gotB then s.pathMiss c k 1 1 else s

/-- A frame opens with its first packet (R87, R88, R102). -/
def State.openFrame (k : Nat) (c : FlowCfg) (ts : Nat) (s : State) : State :=
  let cap := s.captureOf c ts
  let s := cap.2
  let s := if cap.1.2 = 3 then s.countFlow c k 10 1 else s
  let f : OpenFrame := { ts := ts, arrival := s.wallNs, openedAt := s.time.upTicks, capture := cap.1.1, captSrc := cap.1.2, cls := (s.lay.source (if c.type = 3 then c.target else (s.lay.contexts.get {} c.target).source)).cls }
  if c.type ≠ 3 then s.modFlow k (fun fl => { fl with frames := fl.frames ++ [f] })
  else match s.freeSrcBuf c.target with
    | none => (s.countDrop c.target (some k)).modFlow k (fun fl => { fl with frames := fl.frames ++ [{ f with dropped := true }] })
    | some b =>
      let fb := { emptyFrame (s.bufAddr c.target b) (bufferFormat c) c.width c.height with pitchUp := (s.srcRt c.target).pitchUp }
      (s.modBuf c.target b (fun _ => fb)).modFlow k (fun fl => { fl with frames := fl.frames ++ [{ f with buf := some b }] })

/-- The runs of pixels that a packet brings. -/
def segmentRuns (b : FrameBuf) (q : Nat) (gs : List Segment) : List (Nat × Nat × Nat) :=
  (gs.filter (segmentOk b)).map (fun g => (q, g.line * b.width + g.offset, g.line * b.width + g.offset + g.pixels))

/-- A packet joins its frame. -/
def State.joinFrame (k : Nat) (c : FlowCfg) (p : RtpPacket) (q : Nat) (s : State) : State :=
  let upd := fun (extra : List (Nat × Nat × Nat)) (s : State) => s.modFlow k (fun fl => { fl with frames := fl.frames.map (fun f =>
    if f.ts = p.ts then { f with seqs := q :: f.seqs, floor := frameFloor fl { f with seqs := q :: f.seqs }, marker := if p.marker then some q else f.marker,
                                 parts := if c.type < 3 then (q, p.payload) :: f.parts else f.parts, spans := extra ++ f.spans }
    else f) })
  match (List.find? (fun (f : OpenFrame) => decide (f.ts = p.ts)) (s.flowRt k).frames).bind (fun f => f.buf) with
  | none => upd [] s
  | some b =>
    let fb := (s.srcRt c.target).bufs.get {} b
    upd (segmentRuns fb q p.segments) (s.modBuf c.target b (writeSegments p.segments))

/-- A packet that is neither duplicate nor late reaches its frame (R98). `filled` says that it filled a hole. -/
def State.framePacket (k : Nat) (c : FlowCfg) (p : RtpPacket) (q : Nat) (filled : Bool) (s : State) : State :=
  let fl := s.flowRt k
  if hasNat p.ts fl.closedTs then (if filled then s else s.countFlow c k 2 1)
  else
    let s := s.modFlow k (fun fl => { fl with frames := fl.frames.map (fun f =>
      if f.laterAt.isNone && decide (0 < tsDiff p.ts f.ts) then { f with laterAt := some s.time.upTicks } else f) })
    let s := if fl.frames.any (fun f => decide (f.ts = p.ts)) then s else s.openFrame k c p.ts
    (s.joinFrame k c p q).closeMarked k c

/-- A number is received: it joins the numbers within 1,024 of the highest (R93). Lost numbers are kept as long as a frame is open that
may have them. -/
def FlowRt.take (q : Nat) (ssrc : Nat) (fl : FlowRt) : FlowRt :=
  let h := max fl.highest q
  { fl with started := true, highest := h, ssrc := ssrc,
            seen := (q :: fl.seen).filter (fun x => decide (h ≤ x + 1024))
            lost := if fl.frames.isEmpty then fl.lost.filter (fun x => decide (h ≤ x + 1024)) else fl.lost }

/-- A packet of a flow, sequenced (R93 to R95). `path` is 1 for the pair's second path. -/
def State.sequence (k : Nat) (c : FlowCfg) (path : Nat) (p : RtpPacket) (s : State) : State :=
  let fl := s.flowRt k
  let q := if fl.started then (unwrapSeq c fl p.seq).toNat else firstSeq p.seq
  let s := if isPair c then s.pathSeen c k path q else s
  if !fl.started then (s.modFlow k (FlowRt.take q p.ssrc)).framePacket k c p q false
  else if fl.highest < q then
    let holes := (List.range (q - (fl.highest + 1))).map (fun i => ({ seq := fl.highest + 1 + i, openedAt := s.wallNs } : Hole))
    (s.modFlow k (fun fl => { FlowRt.take q p.ssrc fl with holes := fl.holes ++ holes })).framePacket k c p q false
  else if hasNat q fl.seen then s.countFlow c k 1 1
  else if fl.holes.any (fun h => decide (h.seq = q)) then
    let s := (s.countFlow c k 2 1).modFlow k (fun fl => { FlowRt.take q p.ssrc fl with holes := fl.holes.filter (fun h => decide (h.seq ≠ q)) })
    (if isPair c then s.settled c k q else s).framePacket k c p q true
  else s.countFlow c k 2 1

/-- RTP_PACKET_RX (R91, R93, R116). -/
def State.rtpPacket (p : RtpPacket) (s : State) : State :=
  if !s.macLive p.mac || !s.writersRun then s
  else match matchFlow s.lay p.mac p.vlan p.dst p.dstPort p.src p.ssrc with
    | none => s
    | some e =>
      if e.2.type = 4 then s
      else
        let k := flowKey e.2 e.1
        let s := s.count 0x01 e.1 0 1
        let s := if e.2.type < 3 && !payloadOk e.2.type p.payload then s.count 0x02 e.2.target 9 1 else s
        let s := if breaks e.2 (s.flowRt k) p then s.discontinuity k e.2 else s
        s.sequence k e.2 (if k = e.1 then 0 else 1) p

/-- A hole closes: its packet is lost (R94). -/
def FlowRt.lose (q : Nat) (fl : FlowRt) : FlowRt := { fl with holes := fl.holes.filter (fun x => decide (x.seq ≠ q)), lost := q :: fl.lost }

/-- In an open frame the pixels between the last packet before a lost one and the first after it are concealed (R99). Where the frame has no
packet after it, they wait for the frame's end. -/
def State.fillGap (k : Nat) (c : FlowCfg) (q : Nat) (s : State) (f : OpenFrame) : State :=
  match f.buf with
  | none => s
  | some b =>
    let fb := (s.srcRt c.target).bufs.get {} b
    let below := f.spans.filter (fun p => decide (p.1 < q))
    let above := f.spans.filter (fun p => decide (q < p.1))
    let a := below.foldl (fun a p => max a p.2.2) 0
    let z := above.foldl (fun z p => min z p.2.1) (fb.width * fb.height)
    if above.isEmpty || f.dropped then s
    else (s.concealRuns c.target b a z f).modFlow k (fun fl => { fl with frames := fl.frames.map (fun g =>
      if g.ts = f.ts then { g with filled := (a, z) :: g.filled } else g) })

/-- HOLE_CLOSE (R94, R95, R99): the hole counts as lost, and the pixels of its gap are concealed. -/
def State.holeClose (flow seq : Nat) (s : State) : State :=
  let c := s.lay.flows.get {} flow
  let k := flowKey c flow
  let m := if c.type = 3 then 4294967296 else 65536
  match List.find? (fun (h : Hole) => decide (h.seq % m = seq % m)) (s.flowRt k).holes with
  | none => s
  | some h =>
    if !s.writersRun then s
    else
      let s := (s.countFlow c k 3 1).modFlow k (FlowRt.lose h.seq)
      let s := if isPair c then s.settled c k h.seq else s
      ((s.flowRt k).frames.foldl (fun s f => s.fillGap k c h.seq f) s).closeMarked k c

/-- Whether `ns` have passed since TIME tick `at_`; a tick stands for 2 ns. -/
def State.passed (s : State) (at_ ns : Nat) : Bool := decide (ns ≤ 2 * (s.time.upTicks - at_) + 1)

/-- Whether the window of an open frame has passed: FLOW_PD_MAX after a packet with a later timestamp, or a frame period and FLOW_PD_MAX
after its own first packet (R98, second and third moments). -/
def State.windowPassed (s : State) (c : FlowCfg) (fl : FlowRt) (f : OpenFrame) : Bool :=
  f.laterAt.any (fun t => s.passed t (1000 * c.pdMaxUs)) || s.passed f.openedAt (framePeriod c fl + 1000 * c.pdMaxUs)

/-- FRAME_CLOSE_TIMEOUT (R98): the oldest open frame whose window has passed closes. -/
def State.frameTimeout (flow : Nat) (s : State) : State :=
  let c := s.lay.flows.get {} flow
  let k := flowKey c flow
  match List.find? (fun (f : OpenFrame) => s.windowPassed c (s.flowRt k) f) (s.flowRt k).frames with
  | none => s
  | some f => if s.writersRun then (s.closeFrame k c f.ts).closeMarked k c else s

/-- PATH_DOWN (R95): a path of a pair whose other path delivers. -/
def State.pathDown (flow path : Nat) (s : State) : State :=
  let c := s.lay.flows.get {} flow
  let k := flowKey c flow
  let fl := s.flowRt k
  let other := if path = 0 then fl.arrivalB else fl.arrivalA
  let down := if path = 0 then fl.downA else fl.downB
  if isPair c && c.enable && decide (path < 2) && other.isSome && !down && s.writersRun then
    (s.countFlow c k 6 1).modFlow k (fun fl => if path = 0 then { fl with downA := true } else { fl with downB := true })
  else s

/-! ### Captured screens (R100, R103, R321) -/

/-- Apply `f` to a DPRX port. -/
def State.modDprx (p : Nat) (f : DprxRt → DprxRt) (s : State) : State :=
  { s with ing := { s.ing with dprx := s.ing.dprx.modify {} p f } }

/-- Whether a port receives: enabled in the set, unfenced, its link up. -/
def State.dprxLive (s : State) (p : Nat) : Bool :=
  (s.lay.dprxs.get {} p).enable && !s.isFenced (104 + p) && (s.ing.dprx.get {} p).up

/-- Formats that a port stores (R100). -/
def dprxFormatOk (format : Nat) : Bool := decide (format = 3) || inRange 6 8 format

/-- DPRX_FRAME_START (R88, R100, R103): a frame still in progress was interrupted. -/
def State.dprxStart (p width height format : Nat) (s : State) : State :=
  if !s.dprxLive p || !s.writersRun then s
  else
    let s := s.dprxDiscard p
    let src := sourceOfPort s.lay p
    if !dprxFormatOk format then
      let s := s.count 0x18 p 0 1
      (match src with | none => s | some i => s.count 0x16 i 1 1)
    else match src with
      | none => s
      | some i =>
        match s.freeSrcBuf i with
        | none => s.count 0x16 i 1 1
        | some b =>
          let fb : FrameBuf := { addr := s.bufAddr i b, pitchUp := (s.srcRt i).pitchUp, width := width, height := height, format := format, writing := true }
          (s.modBuf i b (fun _ => fb)).modDprx p (fun r =>
            { r with inFrame := true, frameBuf := some b, width := width, height := height, format := format, arrival := s.wallNs,
                     origCls := (s.lay.source i).cls })

/-- DPRX_LINK_LOSS (R97, R100, R323). -/
def State.dprxLost (p : Nat) (s : State) : State :=
  if !(s.ing.dprx.get {} p).up then s
  else
    let c := s.lay.dprxs.get {} p
    ((s.dprxDown p).count 0x18 p 2 1).restLanes ((List.range c.lanes).map (fun i => c.lane0 + i))

/-- Whether captured lines are whole: every line of every plane at its length (R109). -/
def linesOk (format width height : Nat) (lines : List (List Byte)) : Bool :=
  decide (lines.length = storedLines format height) && lines.all (fun l => decide (l.length = lineBytes format width))

/-- A captured frame's last line is in memory, and it is sealed (R100, R105). -/
def State.dprxSeal (i p : Nat) (lines : List (List Byte)) (s : State) : State :=
  let r := s.ing.dprx.get {} p
  match r.frameBuf with
  | none => s
  | some b =>
    if linesOk r.format r.width r.height lines then
      ((s.modBuf i b (fun f => { f with lines := lines })).modDprx p (fun r => { r with inFrame := false, frameBuf := none })).sealFrame i
        { buf := b, capture := r.arrival, captSrc := 1, arrival := r.arrival, origin := p, cls := r.origCls }
    else s

/-- FRAME_SEAL (R105): the oldest frame of the source that is ready is sealed. For a captured screen the row brings the
frame's lines, whose arrival the table has no row for. -/
def State.frameSeal (i : Nat) (lines : List (List Byte)) (s : State) : State :=
  if !s.writersRun then s
  else match (s.srcRt i).ready with
    | f :: rest => ((s.modSrc i (fun rt => { rt with ready := rest })).sealFrame i f).sentPic i f
    | [] => if (s.lay.source i).kind = 3 then s.dprxSeal i (s.lay.source i).origin lines else s

/-- DPRX_AUX_REQUEST (R100, R321): the port answers from its EDID, while it is enabled and its HPD is high. -/
def State.dprxAux (p offset length : Nat) (s : State) : State :=
  let c := s.lay.dprxs.get {} p
  if c.enable && !s.isFenced (104 + p) && !(s.ing.dprx.get {} p).hpdLow then
    { s with out := { s.out with dprxAux := (p, ((c.edid.take c.edidLen).drop offset).take length) :: s.out.dprxAux } }
  else s

/-! ### The rows -/

/-- ETH_FRAME_RX. -/
def execEthFrameRx (dt : Nat) (mac : Nat) (kind : EthKind) (vlan length : Nat) (fcsOk : Bool) (s : State) : Host.Outcome State Fault Refusal :=
  .next ((s.advance dt).ethFrame mac kind vlan length fcsOk)

/-- RTP_PACKET_RX. -/
def execRtpPacketRx (dt : Nat) (p : RtpPacket) (s : State) : Host.Outcome State Fault Refusal := .next ((s.advance dt).rtpPacket p)

/-- HOLE_CLOSE. -/
def execHoleClose (dt : Nat) (flow seq : Nat) (s : State) : Host.Outcome State Fault Refusal := .next ((s.advance dt).holeClose flow seq)

/-- FRAME_CLOSE_TIMEOUT. -/
def execFrameCloseTimeout (dt : Nat) (flow : Nat) (s : State) : Host.Outcome State Fault Refusal := .next ((s.advance dt).frameTimeout flow)

/-- PATH_DOWN. -/
def execPathDown (dt : Nat) (flow path : Nat) (s : State) : Host.Outcome State Fault Refusal := .next ((s.advance dt).pathDown flow path)

/-- FRAME_SEAL. -/
def execFrameSeal (dt : Nat) (source : Nat) (lines : List (List Byte)) (s : State) : Host.Outcome State Fault Refusal :=
  .next ((s.advance dt).frameSeal source lines)

/-- DPRX_FRAME_START. -/
def execDprxFrameStart (dt : Nat) (port width height format : Nat) (s : State) : Host.Outcome State Fault Refusal :=
  .next ((s.advance dt).dprxStart port width height format)

/-- DPRX_LINK_LOSS. -/
def execDprxLinkLoss (dt : Nat) (port : Nat) (s : State) : Host.Outcome State Fault Refusal := .next ((s.advance dt).dprxLost port)

/-- DPRX_HPD_RELEASE (R100). -/
def execDprxHpdRelease (dt : Nat) (port : Nat) (s : State) : Host.Outcome State Fault Refusal :=
  .next ((s.advance dt).modDprx port (fun r => { r with hpdLow := false }))

/-- DPRX_AUX_REQUEST. -/
def execDprxAuxRequest (dt : Nat) (port offset length : Nat) (s : State) : Host.Outcome State Fault Refusal :=
  .next ((s.advance dt).dprxAux port offset length)

end Sys2Proof.Machine
end

