-- ==== Sys2Proof/Machine/Serve.lean ====
section
/-! DEFINITION. How Cleat admits a command: the checks of R39 in their order, the refusals of R40, and the reply. -/

namespace Sys2Proof.Machine

open Sys2Proof

/-- What a command asks of TXN_ID (R337). -/
inductive TxnRule where
  | zero | required | optional
  deriving DecidableEq, Repr

/-- A row of the opcode list (R338): opcode, LEGAL_STATES, TXN rule, expected parameter bytes, and whether it is served
while MEM_CONFIG runs (R340). -/
structure CmdSpec where
  opcode : Nat
  legal : Nat
  txn : TxnRule := .zero
  len : Nat := 0
  exempt : Bool := false
  deriving DecidableEq, Repr

/-- What Cleat does with a packet: leave it waiting, refuse it with a status and DETAIL, or run it. -/
inductive Admit where
  | wait
  | refuse (st : Status) (detail : Nat)
  | run
  deriving DecidableEq, Repr

/-- DETAIL of E_PARAM for the FLAGS field (R40). -/
def flagsDetail : Nat := 9223372036854775810

/-- The transport limit on LENGTH (R37). -/
def lenLimit : Channel → Nat
  | .ring _ => 65532
  | .uart => 4080

/-- Whether Cleat, or in RECOVERY the boot loader, fetches and executes commands (R412, R426, R428, R440). -/
def State.cleatRuns (s : State) : Bool :=
  decide (s.dev ≠ .off) && (s.boot.cleatUp || decide (s.dev = .recovery)) && !s.pins.fetchStopped &&
    !s.procDown 0 && !s.procDown 1

/-- Whether a command that completes in the background holds the channel until its reply (R340). -/
def State.channelHeld (s : State) (ch : Channel) : Bool :=
  ((s.bg.memConfig.map (fun x => decide (x.1.ch = ch))).getD false) ||
  ((s.bg.palette.map (fun x => decide (x.1.ch = ch))).getD false) ||
  s.bg.fwData.any (fun x => decide (x.ch = ch)) || s.bg.commit.any (fun x => decide (x.1.ch = ch)) ||
  s.ing.copies.any (fun k => decide (k.hdr.ch = ch)) ||
  s.desks.any (fun e => ((e.2.baseOp.map (fun x => decide (x.1.ch = ch))).getD false) ||
    ((e.2.baseWrite.map (fun x => decide (x.1.ch = ch))).getD false))

/-- Whether a channel brings commands to Cleat now: a command ring that runs and is not paused, or the UART (R43, R44). -/
def State.channelOpen (s : State) (ch : Channel) : Bool :=
  match ch with
  | .uart => true
  | .ring n => decide (n < 16) && (s.ring n).runs && !(s.ring n).cplFull

/-- Whether `id` names an open transaction (R55). -/
def State.txnOpen (s : State) (id : Nat) : Bool := s.txns.open_.any (fun t => decide (t.id = id))

/-- Whether the TXN rule holds (R337). -/
def State.txnOk (s : State) (r : TxnRule) (id : Nat) : Bool :=
  match r with
  | .zero => decide (id = 0)
  | .required => s.txnOpen id
  | .optional => decide (id = 0) || s.txnOpen id

/-- Whether the transaction that a command names is being validated; the command executes afterwards (R385). -/
def State.validating (s : State) (id : Nat) : Bool := s.bg.commit.any (fun x => decide (x.1.txn = id))

/-- The checks of R39 up to the transaction; `bad` is the DETAIL of the first parameter out of range. -/
def State.admission (s : State) (k : CmdSpec) (c : CmdHdr) (bad : Option Nat) : Admit :=
  if !s.cleatRuns || !s.channelOpen c.ch || s.channelHeld c.ch || (c.crcOk && s.validating c.txn) then .wait
  else if !c.crcOk then .refuse .eCrc c.crcCalc
  else if lenLimit c.ch < c.len then .refuse .eLength (lenLimit c.ch)
  else if c.len ≠ k.len || c.len % 4 ≠ 0 then .refuse .eLength k.len
  else if c.flags.testBit 0 || decide (4 ≤ c.flags) then .refuse .eParam flagsDetail
  else match c.rsvAt, bad with
    | some o, some b => .refuse .eParam (min o b)
    | some o, none => .refuse .eParam o
    | none, some b => .refuse .eParam b
    | none, none =>
      if c.busy || (s.bg.memConfig.isSome && !k.exempt) then .refuse .eBusy 0
      else if !k.legal.testBit s.dev.code then .refuse .eState 0
      else if !s.txnOk k.txn c.txn then .refuse .eTxn 0
      else .run

/-- The idle clock of an open transaction that a command names restarts (R55). -/
def State.touchTxn (id : Nat) (s : State) : State :=
  { s with txns := { s.txns with open_ := s.txns.open_.map (fun t =>
      if t.id = id then { t with lastFrame := s.raster.frame, lastTick := s.time.upTicks } else t) } }

/-- The header a refusal echoes: a UART frame whose PKT_CRC fails has no trusted fields (R48). -/
def refusalHdr (c : CmdHdr) (st : Status) : CmdHdr :=
  if st = .eCrc && c.ch = .uart then { c with tag := 0xFFFF, txn := 0 } else c

/-- Refuse a command: the reply alone (R40). -/
def State.refuse (k : CmdSpec) (c : CmdHdr) (st : Status) (detail : Nat) (s : State) : State :=
  s.reply (if st = .eCrc && c.ch = .uart then 0 else k.opcode) (refusalHdr c st) st (if st = .eState then k.legal else 0) detail .empty 0

/-- A command that fails inside the device (R40, R302, R402): source 79 fires, and the reply names it. -/
def State.refuseInternal (k : CmdSpec) (c : CmdHdr) (s : State) : State := (s.fireSrc 79 0xFFFF 0xFFFF).refuse k c .eInternal 79

/-- Reply OK with data. -/
def State.ok (k : CmdSpec) (c : CmdHdr) (data : ReplyData) (len : Nat) (s : State) : State :=
  s.reply k.opcode c .ok 0 0 data len

/-- Serve one command: check it, restart the idle clock it names, and refuse it or run its body. -/
def State.serve (k : CmdSpec) (c : CmdHdr) (bad : Option Nat) (body : State → State) (s : State) : State :=
  match s.admission k c bad with
  | .wait => s
  | .refuse st d => (if c.crcOk then s.touchTxn c.txn else s).refuse k c st d
  | .run => body (s.touchTxn c.txn)

end Sys2Proof.Machine
end

