-- ==== Sys2Proof/Machine/Commit.lean ====
section
/-! DEFINITION. What a commit is checked for (R349): the rules that join fields or objects, capacities, density and
liveness floors. Each rule lists the objects that take part in a failure, by staging opcode and OBJ_ID. A rule binds every object
that the set defines; where it speaks of enabled objects, or of a lane, a quad or a source in use, it binds those (log entry 20). -/

namespace Sys2Proof.Machine

open Sys2Proof

/-- A staging opcode and OBJ_ID. -/
abbrev ObjId := Nat × Nat

/-- Whether `a` comes before `b` in the order of R349. -/
def objBefore (a b : ObjId) : Bool := decide (a.1 < b.1) || (decide (a.1 = b.1) && decide (a.2 < b.2))

/-- The first of a list of objects (R349). -/
def firstObj : List ObjId → Option ObjId
  | [] => none
  | a :: t => match firstObj t with
    | none => some a
    | some b => if objBefore b a then some b else some a

/-- The object that a refusal names: the first that the transaction staged, or else the first of all (R349). -/
def namedObj (staged bad : List ObjId) : Option ObjId :=
  match firstObj (bad.filter (fun o => staged.any (fun q => decide (q = o)))) with
  | some o => some o
  | none => firstObj bad

/-- The two orders of two different entries. -/
def pairsOf {α : Type} : List α → List (α × α)
  | [] => []
  | a :: t => t.map (fun b => (a, b)) ++ pairsOf t

/-- Objects of the pairs of a list that satisfy `f`. -/
def clash {α : Type} (op : Nat) (f : Nat × α → Nat × α → Bool) (l : List (Nat × α)) : List ObjId :=
  ((pairsOf l).filter (fun p => f p.1 p.2)).foldl (fun acc p => (op, p.1.1) :: (op, p.2.1) :: acc) []

/-- Objects of a list that fail a check. -/
def failing {α : Type} (op : Nat) (f : Nat × α → Bool) (l : List (Nat × α)) : List ObjId :=
  (l.filter (fun e => !f e)).map (fun e => (op, e.1))

/-! ### Levels (R126, R232, R339; the standards' tables are PRESUMED, log entry 10) -/

/-- Level codes that name an H.265 level (R339). -/
def hevcLevels : List Nat := [30, 60, 63, 90, 93, 120, 123, 150, 153]

/-- Whether a level code names a level of the codec: 0 and 2 take H.265 levels, 1 H.264 levels (R339). -/
def levelNamed (avc : Bool) (level : Nat) : Bool := if avc then levelCodes.contains level else hevcLevels.contains level

/-- H.265 limits of a level, main tier: luma samples per second, bit/s, and CPB bits. -/
def hevcLimits (level : Nat) : Nat × Nat × Nat :=
  if level ≤ 30 then (552960, 128000, 350000) else if level ≤ 60 then (3686400, 1500000, 1500000)
  else if level ≤ 63 then (7372800, 3000000, 3000000) else if level ≤ 90 then (16588800, 6000000, 6000000)
  else if level ≤ 93 then (33177600, 10000000, 10000000) else if level ≤ 120 then (66846720, 12000000, 12000000)
  else if level ≤ 123 then (133693440, 20000000, 20000000) else if level ≤ 150 then (267386880, 25000000, 25000000)
  else (534773760, 40000000, 40000000)

/-- H.264 limits of a level, High profile: macroblocks per second, bit/s, and CPB bits. -/
def avcLimits (level : Nat) : Nat × Nat × Nat :=
  if level ≤ 30 then (1485, 80000, 218750) else if level ≤ 33 then (3000, 240000, 625000)
  else if level ≤ 36 then (6000, 480000, 1250000) else if level ≤ 39 then (11880, 960000, 2500000)
  else if level ≤ 60 then (11880, 2500000, 2500000) else if level ≤ 63 then (19800, 5000000, 5000000)
  else if level ≤ 66 then (20250, 5000000, 5000000) else if level ≤ 90 then (40500, 12500000, 12500000)
  else if level ≤ 93 then (108000, 17500000, 17500000) else if level ≤ 96 then (216000, 25000000, 25000000)
  else if level ≤ 120 then (245760, 25000000, 31250000) else if level ≤ 123 then (245760, 62500000, 78125000)
  else if level ≤ 126 then (522240, 62500000, 78125000) else if level ≤ 150 then (589824, 168750000, 168750000)
  else (983040, 300000000, 300000000)

/-- H.264 macroblocks of the largest picture of a level. -/
def avcPicture (level : Nat) : Nat :=
  if level ≤ 30 then 99 else if level ≤ 60 then 396 else if level ≤ 63 then 792 else if level ≤ 90 then 1620
  else if level ≤ 93 then 3600 else if level ≤ 96 then 5120 else if level ≤ 123 then 8192 else if level ≤ 126 then 8704
  else if level ≤ 150 then 22080 else 36864

/-- The side of a CTU, or of a macroblock in H.264 (R239). -/
def ctuSide (c : EncoderCfg) : Nat := if c.codec = 2 then 16 else 64

/-- CTU rows of a picture. -/
def encRows (c : EncoderCfg) : Nat := roundUp (ctuSide c) c.height / ctuSide c

/-- CTU columns of a picture, C of R239. -/
def encCols (c : EncoderCfg) : Nat := roundUp (ctuSide c) c.width / ctuSide c

/-- The skip size of one row: 24 + ⌈C ÷ 4⌉ (R241). -/
def skipSize (c : EncoderCfg) : Nat := 24 + (encCols c + 3) / 4

/-- A rate ÷ f in 1/600,000 bit: what a stream of `bps` carries in one picture period (R241). -/
def perPicture (rate : Nat) (c : EncoderCfg) (bps : Nat) : Nat := bps * (wallRateHz rate).2 * c.div * (600000 / (wallRateHz rate).1)

/-- ⌊ rate ÷ (8 f) ⌋ (R241). -/
def ratePerPicture (rate : Nat) (c : EncoderCfg) (bps : Nat) : Nat := perPicture rate c bps / 4800000

/-- ⌊ENC_RATE ÷ (8f)⌋ holds 1,024 bytes and the skip size of every row (R241). -/
def rateHolds (rate : Nat) (c : EncoderCfg) : Bool :=
  decide (1024 + skipSize c * encRows c ≤ ratePerPicture rate c c.rate)

/-- The level's limit on a picture's area, and on each side: √(8 × the largest area), in samples or macroblocks (R232). -/
def sizeFits (avc : Bool) (level w h : Nat) : Bool :=
  let w := if avc then roundUp 16 w / 16 else w
  let h := if avc then roundUp 16 h / 16 else h
  let most := if avc then avcPicture level else hevcPicture level
  decide (w * h ≤ most) && decide (w * w ≤ 8 * most) && decide (h * h ≤ 8 * most)

/-- An encoder's picture size, picture rate, bit rates and buffer within its level, and its QP limits (R232, R241). -/
def encoderOk (rate : Nat) (c : EncoderCfg) : Bool :=
  let hz := wallRateHz rate
  let avc := decide (c.codec = 2)
  let size := if avc then roundUp 16 c.width / 16 * (roundUp 16 c.height / 16) else c.width * c.height
  let lim := if avc then avcLimits c.level else hevcLimits c.level
  levelNamed avc c.level && sizeFits avc c.level c.width c.height && rateHolds rate c &&
  decide (size * hz.1 ≤ lim.1 * hz.2 * c.div) && decide (c.rate ≤ lim.2.1) &&
  (decide (c.rc = 0) || (decide (c.rate ≤ c.maxRate) && decide (c.maxRate ≤ lim.2.1))) && decide (c.hrdBits ≤ lim.2.2) &&
  decide (c.qpMin ≤ c.qpMax) && (decide (c.codec = 1) || (decide (0 ≤ c.qpMin) && decide (0 ≤ c.qpMax)))

/-! ### Regions (R235) -/

/-- The rectangle that a region reads. -/
def regionRead (r : RegionCfg) : Box := ⟨r.x, r.y, r.x + r.w, r.y + r.h⟩

/-- The rectangle that a region covers in the picture. -/
def regionDest (r : RegionCfg) : Box := ⟨r.px, r.py, r.px + r.w / 2 ^ r.scale, r.py + r.h / 2 ^ r.scale⟩

/-- Enabled regions inside their heads and the picture, and apart in the picture. -/
def regionsOk (l : Layout) (c : EncoderCfg) : Bool :=
  let rs := c.regions.filter (fun r => r.enable)
  rs.all (fun r => (activeBox (l.head r.head)).covers (regionRead r) && (Box.mk 0 0 c.width c.height).covers (regionDest r)) &&
  (pairsOf rs).all (fun p => !((regionDest p.1).meet (regionDest p.2)).some)

/-! ### Sources, flows and contexts (R86, R91, R95, R99, R119, R217) -/

/-- The lower flow of a pair. -/
def lowerFlow (i : Nat) (c : FlowCfg) : Nat := if c.pair = 0xFFFF then i else min i c.pair

/-- An enabled flow of type 3 and the source that it names name each other. -/
def flowNames (l : Layout) (e : Nat × FlowCfg) : Bool :=
  !e.2.enable || decide (e.2.type ≠ 3) || !srcDefined l e.2.target ||
    (decide ((l.source e.2.target).kind = 1) && decide ((l.source e.2.target).origin = lowerFlow e.1 e.2))

/-- An enabled context and the source that it names name each other. -/
def contextNames (l : Layout) (e : Nat × ContextCfg) : Bool :=
  !e.2.enable || !srcDefined l e.2.source ||
    (decide ((l.source e.2.source).kind = 2) && decide ((l.source e.2.source).origin = e.1))

/-- A source whose origin is an enabled flow or context is the one that this names. -/
def sourceNamed (l : Layout) (e : Nat × SourceCfg) : Bool :=
  if e.2.kind = 1 then
    let f := l.flows.get {} e.2.origin
    !f.enable || (decide (f.type = 3) && decide (f.target = e.1))
  else if e.2.kind = 2 then
    let c := l.contexts.get {} e.2.origin
    !c.enable || decide (c.source = e.1)
  else true

/-- Both objects of a flow, or a context, and its source that fail to name each other. -/
def namingFails (l : Layout) : List ObjId :=
  (l.flows.filter (fun e => !flowNames l e)).foldl (fun a e => (0x202, e.1) :: (0x201, e.2.target) :: a) [] ++
  (l.contexts.filter (fun e => !contextNames l e)).foldl (fun a e => (0x205, e.1) :: (0x201, e.2.source) :: a) [] ++
  (l.sources.filter (fun e => !sourceNamed l e)).foldl
    (fun a e => (0x201, e.1) :: ((if e.2.kind = 1 then 0x202 else 0x205), e.2.origin) :: a) []

/-- Two sources with one origin (R86). Host surfaces have none. -/
def sameOrigin (a b : Nat × SourceCfg) : Bool :=
  decide (a.2.kind = b.2.kind) && inRange 1 3 a.2.kind && decide (a.2.origin = b.2.origin)

/-- The format fields of a flow. -/
def flowFormat (c : FlowCfg) : List Nat := [c.sampling, c.packing, c.sender, c.width, c.height, c.rateNum, c.rateDen]

/-- A FLOW_PAIR that R95 allows: none, or a pair that names each other. -/
def pairOk (l : Layout) (e : Nat × FlowCfg) : Bool :=
  decide (e.2.pair = 0xFFFF) ||
    (let o := l.flows.get {} e.2.pair
     decide (e.2.pair ≠ e.1) && decide (o.pair = e.1) && decide (o.type = e.2.type) && decide (o.target = e.2.target) &&
       decide (flowFormat o = flowFormat e.2) && decide (o.pdMaxUs = e.2.pdMaxUs))

/-- Whether a flow takes any SSRC: type 4 ignores the field (R90). -/
def anySsrc (c : FlowCfg) : Bool := c.ssrcAny || decide (c.type = 4)

/-- Two enabled entries that could match one packet with equal precedence (R91). -/
def matchClash (a b : Nat × FlowCfg) : Bool :=
  a.2.enable && b.2.enable && decide (a.2.mac = b.2.mac) && decide (a.2.vlan = b.2.vlan) && decide (a.2.dstAddr = b.2.dstAddr) &&
  decide (a.2.dstPort = b.2.dstPort) && decide (a.2.srcAny = b.2.srcAny) && (a.2.srcAny || decide (a.2.srcAddr = b.2.srcAddr)) &&
  decide (anySsrc a.2 = anySsrc b.2) && (anySsrc a.2 || decide (a.2.ssrc = b.2.ssrc))

/-- A flow's own joined fields: the frame rate of type 3, the index range of type 4 (R99, R217). -/
def flowOk (e : Nat × FlowCfg) : Bool :=
  (decide (e.2.type ≠ 3) || decide (e.2.rateNum ≤ 60 * e.2.rateDen)) &&
    (decide (e.2.type ≠ 4) || decide (e.2.pfIndexBase + e.2.pfIndexCount ≤ 8388608))

/-- Two enabled point flows whose index ranges overlap (R217). -/
def rangeClash (a b : Nat × FlowCfg) : Bool :=
  a.2.enable && b.2.enable && decide (a.2.type = 4) && decide (b.2.type = 4) &&
  decide (a.2.pfIndexBase < b.2.pfIndexBase + b.2.pfIndexCount) && decide (b.2.pfIndexBase < a.2.pfIndexBase + a.2.pfIndexCount)

/-- A flow whose type does not match the codec of the context it feeds (R119). -/
def codecFails (l : Layout) : List ObjId :=
  (l.flows.filter (fun e => e.2.enable && decide (e.2.type < 3) && (l.contexts.get {} e.2.target).enable &&
    decide ((l.contexts.get {} e.2.target).codec ≠ e.2.type))).foldl (fun a e => (0x202, e.1) :: (0x205, e.2.target) :: a) []

/-! ### Lanes (R198, R202, R268, R318, R320, R321) -/

/-- A quad's mode in a set. -/
def quadMode (l : Layout) (q : Nat) : Nat := (l.quads.get {} q).mode

/-- Lane ranges of enabled users: object, first lane, lanes. -/
def laneUsers (l : Layout) : List (ObjId × Nat × Nat) :=
  (l.heads.filter (fun e => e.2.enable)).map (fun e => ((0x206, e.1), e.2.lane0, e.2.lanes)) ++
  (l.dprxs.filter (fun e => e.2.enable)).map (fun e => ((0x204, e.1), e.2.lane0, e.2.lanes)) ++
  (l.macs.filter (fun e => e.2.enable)).map (fun e => ((0x203, e.1),
    if (l.quads.get {} (quadOf e.2.lane)).ethRate = 2 then (4 * quadOf e.2.lane, 4) else (e.2.lane, 1))) ++
  (l.desks.filter (fun e => e.2.enable)).map (fun e => ((0x20E, e.1), e.2.lane, 1))

/-- Users that share a lane. -/
def laneClash (l : Layout) : List ObjId :=
  ((pairsOf (laneUsers l)).filter (fun p => decide (p.1.2.1 < p.2.2.1 + p.2.2.2) && decide (p.2.2.1 < p.1.2.1 + p.1.2.2))).foldl
    (fun a p => p.1.1 :: p.2.1 :: a) []

/-- Usable payload of a lane in kbit/s (R202). -/
def payloadKbps : Nat → Nat
  | 0 => 2133000 | 1 => 4266000 | 2 => 6399000 | 3 => 9600000 | 4 => 12960000 | _ => 19200000

/-- Whether the head's link carries its pixels (R202). -/
def linkFits (rate : Nat) (c : HeadCfg) : Bool :=
  let hz := wallRateHz rate
  decide (hTotal c * vTotal c * hz.1 * (1 + c.mult) * 3 * c.bpc ≤ c.lanes * payloadKbps c.linkRate * 1000 * hz.2)

/-- A head's own joined fields and its lanes (R71, R76, R143, R186, R198, R202); the quad's mode binds an enabled head. -/
def headOk (l : Layout) (e : Nat × HeadCfg) : Bool :=
  let c := e.2
  (decide (c.mult = 0) || decide (c.phase ≤ 2047)) && decide (80 ≤ c.hFp + c.hSync + c.hBp) && decide (8 ≤ c.vFp + c.vSync + c.vBp) &&
  decide (hTotal c ≤ 16383) && decide (vTotal c ≤ 8191) && decide (128 * c.lBegin < vTotal c) && decide (c.lBind < c.lBegin) &&
  (decide (c.ribbon = 0) || decide (416 ≤ c.hActive)) && decide (c.lane0 % c.lanes = 0) &&
  (!c.enable || decide (quadMode l (quadOf c.lane0) = 2)) && linkFits l.dev.wallRate c

/-- Heads of different link rates in one quad (R202). -/
def rateClash (a b : Nat × HeadCfg) : Bool :=
  a.2.enable && b.2.enable && decide (quadOf a.2.lane0 = quadOf b.2.lane0) && decide (a.2.linkRate ≠ b.2.linkRate)

/-- A DPRX port's lanes (R321); the quad's mode binds an enabled port. -/
def dprxOk (l : Layout) (e : Nat × DprxCfg) : Bool :=
  decide (e.2.lane0 % e.2.lanes = 0) && (!e.2.enable || decide (quadMode l (quadOf e.2.lane0) = 3))

/-- A MAC's lane: in an Ethernet quad; at 100GBASE-R4 only ETH0 or ETH4, from the quad's first lane, alone in its group
(R320). -/
def macOk (l : Layout) (e : Nat × MacCfg) : Bool :=
  let big := fun (m : Nat × MacCfg) => m.2.enable && decide ((l.quads.get {} (quadOf m.2.lane)).ethRate = 2)
  !e.2.enable || (decide (quadMode l (quadOf e.2.lane) = 4) &&
    (if big e then decide (e.1 % 4 = 0) && decide (e.2.lane % 4 = 0)
     else !l.macs.any (fun m => decide (m.1 / 4 = e.1 / 4) && big m)))

/-- A desk's joined fields and its lane (R268); the quad's mode binds an enabled desk. -/
def deskOk (l : Layout) (e : Nat × DeskCfg) : Bool :=
  decide (e.2.hoverThresh < e.2.touchThresh) && (!e.2.enable || decide (quadMode l (quadOf e.2.lane) = 5))

/-- Quads whose mode, rate or FEC changes while a user of the set that is replaced holds them (R318). -/
def quadFails (base l : Layout) : List ObjId :=
  (List.range 24).foldr (fun q a =>
    let x := base.quads.get {} q
    let y := l.quads.get {} q
    if (x.mode ≠ y.mode || x.ethRate ≠ y.ethRate || x.ethFec ≠ y.ethFec) && quadUsed base q then (0x20F, q) :: a else a) []

/-! ### Windows (R86, R143, R171, R195) -/

/-- A window's own joined fields (R143, R171). -/
def windowOk (e : Nat × WindowCfg) : Bool :=
  let w := e.2
  decide (w.staleMs ≤ w.deadMs) && decide (w.srcW ≤ 16 * w.dstW) && decide (w.dstW ≤ 16 * w.srcW) &&
    decide (w.srcH ≤ 16 * w.dstH) && decide (w.dstH ≤ 16 * w.srcH)

/-- Two enabled windows of one head and layer that overlap (R143). -/
def layerClash (a b : Nat × WindowCfg) : Bool :=
  a.2.enable && b.2.enable && decide (a.2.head = b.2.head) && decide (a.2.layer = b.2.layer) &&
    ((windowBox a.2).meet (windowBox b.2)).some

/-- Whether a head's line period is shorter than 1 µs (R195). -/
def lineTooShort (rate : Nat) (c : HeadCfg) : Bool :=
  decide (1000000 * (wallRateHz rate).2 < (wallRateHz rate).1 * (1 + c.mult) * vTotal c)

/-- Class-0 windows on a head with L_BIND 2 or a line period below 1 µs, with their heads; the overlay window of a head
is one of them (R143, R195). -/
def class0Fails (l : Layout) : List ObjId :=
  let bad := fun h => decide ((l.head h).lBind = 2) || lineTooShort l.dev.wallRate (l.head h)
  (l.windows.filter (fun e => decide ((l.source e.2.source).cls = 0) && bad e.2.head)).foldl
    (fun a e => (0x206, e.2.head) :: (0x207, e.1) :: (0x201, e.2.source) :: a) [] ++
  (l.heads.filter (fun e => decide (e.2.overlay = 1) && decide ((l.source (overlaySource e.1)).cls = 0) && bad e.1)).foldl
    (fun a e => (0x206, e.1) :: (0x201, overlaySource e.1) :: a) []

/-! ### Glyphs (R222) -/

/-- A threshold as the instance compares it. -/
def threshOf (kind n : Nat) : Int := if kind = 2 || n < 2147483648 then n else (n : Int) - 4294967296

/-- Strictly rising numbers. -/
def rising : List Int → Bool
  | a :: b :: t => decide (a < b) && rising (b :: t)
  | _ => true

/-- A glyph instance's rules. -/
def glyphOk (l : Layout) (e : Nat × GlyphCfg) : Bool :=
  let g := e.2
  rising ((g.thresh.take g.nth).map (threshOf g.kind)) && (activeBox (l.head g.head)).covers (glyphRect l g) &&
    decide ((g.kind = 0) = (g.digits = 0))

/-! ### Domains, pulses, access (R257, R265, R388, R390) -/

/-- Two enabled domains on one port, transport, VLAN and number (R257). -/
def domainClash (a b : Nat × DomainCfg) : Bool :=
  a.2.enable && b.2.enable && decide (a.2.mac = b.2.mac) && decide (a.2.transport = b.2.transport) && decide (a.2.vlan = b.2.vlan) &&
    decide (a.2.domainNum = b.2.domainNum)

/-- A pulse output's joined fields (R265): width within the period, and a mode-3 delay within the wall frame. -/
def pulseOk (rate : Nat) (e : Nat × PulseCfg) : Bool :=
  decide (e.1 < 2) || ((decide (e.2.mode ≠ 2) || decide (e.2.width + 8 ≤ e.2.period)) &&
    (decide (e.2.mode ≠ 3) || decide ((e.2.start + 1) * (wallRateHz rate).1 ≤ 1000000000 * (wallRateHz rate).2)))

/-- Two enabled access entries that share a byte and a master (R390). -/
def accessClash (a b : Nat × AccessCfg) : Bool :=
  a.2.enable && b.2.enable && decide (a.2.base < b.2.limit) && decide (b.2.base < a.2.limit) && decide (a.2.masters &&& b.2.masters ≠ 0)

/-! ### The checks in order (R39, R349) -/

/-- Check 4: objects that break a rule refused with E_PARAM. -/
def paramFails (base l : Layout) : List ObjId :=
  failing 0x201 (fun e => decide (e.1 < 984) || decide (e.2.kind = 0)) l.sources ++ clash 0x201 sameOrigin l.sources ++ namingFails l ++
  failing 0x202 (pairOk l) l.flows ++ clash 0x202 matchClash l.flows ++ failing 0x202 flowOk l.flows ++
  clash 0x202 rangeClash l.flows ++ codecFails l ++ laneClash l ++
  failing 0x203 (macOk l) l.macs ++ failing 0x204 (dprxOk l) l.dprxs ++
  failing 0x205 (fun e => levelNamed (decide (e.2.codec = 1)) e.2.maxLevel) l.contexts ++
  failing 0x206 (headOk l) l.heads ++ clash 0x206 rateClash l.heads ++ class0Fails l ++
  failing 0x207 windowOk l.windows ++ clash 0x207 layerClash l.windows ++
  failing 0x208 (fun e => encoderOk l.dev.wallRate e.2 && regionsOk l e.2) l.encoders ++
  failing 0x209 (glyphOk l) l.glyphs ++ failing 0x20E (deskOk l) l.desks ++ quadFails base l ++
  clash 0x210 domainClash l.domains ++ failing 0x211 (pulseOk l.dev.wallRate) l.pulses ++
  failing 0x213 (fun e => decide (e.2.base < e.2.limit)) (l.access.filter (fun e => e.2.enable)) ++ clash 0x213 accessClash l.access

/-- DETAIL of an E_PARAM found at commit (R349). -/
def commitDetail (o : ObjId) : Nat := 0xFFFF * 281474976710656 + o.1 * 4294967296 + o.2

/-- Whether any set in force or scheduled enables a head (R70). -/
def State.headsAnywhere (s : State) : Bool :=
  !s.lay.enabledHeads.isEmpty || s.splice.versions.any (fun v => !(s.layoutAhead v.frame).enabledHeads.isEmpty)

/-- Check 5: WALL_RATE changes only in CONFIGURING, with no head enabled anywhere (R70). -/
def rateChangeOk (s : State) (base l : Layout) : Bool :=
  decide (l.dev.wallRate = base.dev.wallRate) ||
    (decide (s.dev = .configuring) && !s.headsAnywhere && l.enabledHeads.isEmpty)

/-- Check 7: objects that name a source which is not defined, with that source (R86). -/
def missing (l : Layout) : List (ObjId × Nat) :=
  ((l.flows.filter (fun e => e.2.enable && decide (e.2.type = 3) && !srcDefined l e.2.target)).map (fun e => ((0x202, e.1), e.2.target))) ++
  ((l.contexts.filter (fun e => e.2.enable && !srcDefined l e.2.source)).map (fun e => ((0x205, e.1), e.2.source))) ++
  ((l.windows.filter (fun e => e.2.enable && !srcDefined l e.2.source)).map (fun e => ((0x207, e.1), e.2.source)))

/-- The source that E_NOT_FOUND names. -/
def missingId (staged : List ObjId) (l : Layout) : Option Nat :=
  (namedObj staged ((missing l).map (fun m => m.1))).bind (fun o => (List.find? (fun (m : ObjId × Nat) => decide (m.1 = o)) (missing l)).map (fun m => m.2))

/-! ### Capacity (R119, R200, R229, R233, R297) -/

/-- The first head whose pixel rate is too high, or at which the running sum passes 20 Gpixel/s (R200). -/
def pixelFails (l : Layout) : Option Nat :=
  let hz := wallRateHz l.dev.wallRate
  let load := fun h => hTotal (l.head h) * vTotal (l.head h) * (1 + (l.head h).mult) * hz.1
  match List.find? (fun h => decide (1200000000 * hz.2 < load h)) l.enabledHeads with
  | some h => some h
  | none => (l.enabledHeads.foldl (fun (a : Nat × Option Nat) h =>
      let n := a.1 + load h
      (n, if a.2.isSome then a.2 else if 20000000000 * hz.2 < n then some h else none)) (0, none)).2

/-- The drawing windows of a set: head, first wall line on the circle of 4,096 (R227). -/
def drawWindows (l : Layout) : List (Nat × Nat) :=
  (l.heads.filter (fun e => e.2.enable && decide (e.2.overlay = 1))).foldl (fun a e =>
    a ++ (halves e.2).map (fun k => (e.1, ((rowBeginPos e.2 1 k 0 - 512) % 4096).toNat))) []

/-- Enabled instances of a head, and their box pixels. -/
def drawLoad (l : Layout) (h : Nat) : Nat × Nat :=
  l.glyphs.foldl (fun a g => if g.2.enable && g.2.head = h then (a.1 + 1, a.2 + (glyphBox l g.2).1 * (glyphBox l g.2).2) else a) (0, 0)

/-- The overlay engine's capacity (R229). -/
def overlayFits (l : Layout) : Bool :=
  let hz := wallRateHz l.dev.wallRate
  let ws := drawWindows l
  decide (ws.foldl (fun n w => n + (drawLoad l w.1).1) 0 ≤ 2097152) &&
  ws.all (fun p =>
    let together := ws.filter (fun w => decide ((p.2 + 4096 - w.2) % 4096 < 512))
    decide (together.foldl (fun n w => n + (drawLoad l w.1).2) 0 * 8 * hz.1 ≤ 16000000000 * hz.2) &&
    decide (together.foldl (fun n w => n + (drawLoad l w.1).1) 0 ≤ 524288))

/-- Bytes of one buffer, whole 4 KB pages (R295). -/
def bufBytes (format w h : Nat) : Nat := roundUp 4096 (pitchOf format w * storedLines format h)

/-- Bytes of a context's pool and output buffers (R119). -/
def poolBytes (c : ContextCfg) : Nat :=
  let f := if c.codec = 2 then 10 else if c.outDepth = 8 then 1 else 2
  poolSize c * bufBytes f c.maxWidth c.maxHeight +
    (if c.outScale = 0 then 0 else c.extraBufs * bufBytes f ((c.maxWidth + 2 ^ c.outScale - 1) / 2 ^ c.outScale) ((c.maxHeight + 2 ^ c.outScale - 1) / 2 ^ c.outScale))

/-- Format of the frames that a type-3 flow stores (R99). -/
def flowStored (c : FlowCfg) : Nat := if c.sampling = 0 then 3 else if c.sampling = 1 then 5 else 4

/-- Bytes of a source's buffers, where the settings give a frame's size. -/
def sourceBytes (l : Layout) (c : SourceCfg) : Nat :=
  if c.kind = 2 then (let x := l.contexts.get {} c.origin; if x.enable then poolBytes x else 0)
  else if c.kind = 1 then (let f := l.flows.get {} c.origin; c.buffers * bufBytes (flowStored f) f.width f.height)
  else if c.kind = 4 then c.buffers * bufBytes c.surfFormat c.surfWidth c.surfHeight
  else 0

/-- Bytes of a head's tile-row slots (R155). -/
def slotBytes (c : HeadCfg) : Nat := 2 * tileRows c * tileCols c * 16384

/-- Bytes of a head's TPR arrays (R155, R161). -/
def tprArrayBytes (c : HeadCfg) : Nat := 2 * tileRows c * tileCols c * 128

/-- Bytes of the point table (R215). -/
def pointTableBytes : Nat := 134217728

/-- Whether the point table lies in the reserve while it is enabled: some overlay source is class 0 (R215). -/
def tableAlarm (l : Layout) : Bool := (List.range 32).any (fun h => decide ((l.source (overlaySource h)).cls = 0))

/-- The items of a set that hold memory, each with whether it belongs in the reserve and its bytes: source buffers, pools and
surfaces, seal rings, tile-row slots, TPR arrays and the point table (R23, R105, R119, R155, R215, R226, R296, R297). What a
captured screen or a test pattern takes depends on its content (R23). -/
def memoryItems (l : Layout) : List (Bool × Nat) :=
  (l.sources.filter (fun e => decide (e.1 < 984) && decide (e.2.kind ≠ 0))).map (fun e => (decide (e.2.cls = 0), sourceBytes l e.2 + 4096)) ++
  (List.range 40).map (fun i => (decide ((l.source (984 + i)).cls = 0), 4096)) ++
  (l.heads.filter (fun e => e.2.enable && decide (e.2.overlay = 1))).map (fun e =>
    (decide ((l.source (overlaySource e.1)).cls = 0), 3 * bufBytes 7 e.2.hActive e.2.vActive)) ++
  (l.heads.filter (fun e => e.2.enable)).map (fun e => (false, slotBytes e.2)) ++
  (l.heads.filter (fun e => e.2.enable)).map (fun e => (true, roundUp 4096 (tprArrayBytes e.2))) ++ [(tableAlarm l, pointTableBytes)]

/-- Bytes that a set holds: of what belongs in the reserve, and of the rest. -/
def memoryUse (l : Layout) : Nat × Nat :=
  (memoryItems l).foldl (fun a e => if e.1 then (a.1 + e.2, a.2) else (a.1, a.2 + e.2)) (0, 0)

/-- Whether a set fits: class-0 items in the reserve of 3.875 GiB while it is enabled, the rest in the general
region of 58.125 GiB (R119, R297). -/
def memoryFits (l : Layout) : Bool :=
  let u := memoryUse l
  if l.dev.memReserve = 1 then decide (u.1 ≤ 4160749568) && decide (u.2 ≤ 62411243520) else decide (u.1 + u.2 ≤ 66571993088)

/-- Encode placement at commit: no engine above its capacity, and no more than 4,150,000,000 pixel/s in all (R233). -/
def encodeFits (s : State) (l : Layout) : Bool :=
  let order := loadOrder l
  let r := placeAll order (idleEngines s)
  engineFit r.2 && decide (r.1.length = order.length) && decide (order.foldl (fun n c => n + c.2) 0 ≤ 4 * engineCap)

/-- Check 8: the unit that E_CAPACITY names. -/
def capacityFails (s : State) (l : Layout) : Option Nat :=
  match pixelFails l with
  | some h => some h
  | none =>
    if !braidFits l then some 128
    else if !overlayFits l then some 129
    else if !encodeFits s l then some 131
    else if !memoryFits l then some 132
    else none

/-! ### Policy (R172, R222) -/

/-- The floors of a class: stale, dead and freeze limits in ms (R172). -/
def floors : Nat → Nat × Nat × Nat
  | 0 => (250, 2000, 1000) | 1 => (1000, 10000, 5000) | _ => (10000, 60000, 30000)

/-- The floor that a window's limit lies beyond, the first in the order stale, dead, freeze. -/
def windowFloor (l : Layout) (w : WindowCfg) : Option Nat :=
  let f := floors (l.source w.source).cls
  if f.1 < w.staleMs then some f.1
  else if f.2.1 < w.deadMs then some f.2.1
  else if f.2.2 < w.freezeMs then some f.2.2
  else none

/-- The floor that an instance's stale limit lies beyond (R222). -/
def glyphFloor (l : Layout) (g : GlyphCfg) : Option Nat :=
  let f := (floors (l.source (overlaySource g.head)).cls).1
  if f < g.staleMs then some f else none

/-- Check 9: the floor that E_POLICY gives, of the first object beyond one. -/
def policyFails (staged : List ObjId) (l : Layout) : Option Nat :=
  let ws := l.windows.filterMap (fun e => (windowFloor l e.2).map (fun f => ((0x207, e.1), f)))
  let gs := l.glyphs.filterMap (fun e => (glyphFloor l e.2).map (fun f => ((0x209, e.1), f)))
  (namedObj staged ((ws ++ gs).map (fun m => m.1))).bind
    (fun o => (List.find? (fun (m : ObjId × Nat) => decide (m.1 = o)) (ws ++ gs)).map (fun m => m.2))

/-! ### The verdict -/

/-- What validation answers. -/
inductive Verdict where
  | refuse (st : Status) (detail legal : Nat)
  | accept (frame mask : Nat)
  deriving DecidableEq, Repr

/-- Objects that a transaction stages, as single objects (R349). -/
def stagedIds (t : Txn) : List ObjId :=
  t.staged.foldr (fun o a => (match o.obj with
    | .glyphs f cs => (List.range cs.length).map (fun i => (0x209, f + i))
    | .atlas f ms => (List.range ms.length).map (fun i => (0x20B, f + i))
    | x => [stagedKey x]) ++ a) []

/-- The first staged object that a commit applied after its staging changed (R57). -/
def conflictOf (s : State) (t : Txn) : Option ObjId :=
  firstObj ((t.staged.filter (fun o => (stagedKeys o.obj).any (fun k => decide (o.gen < s.splice.changed.get 0 k)))).map
    (fun o => stagedKey o.obj))

/-- The latest frame for which a version is scheduled. -/
def State.lastVersion (s : State) : Nat := (s.splice.versions.getLast?.map (fun v => v.frame)).getD 0

/-- The wall frame of the latest commit that is scheduled (R56). Internal versions are no commits. -/
def State.lastCommit (s : State) : Nat :=
  ((s.splice.versions.filter (fun v => !v.txns.isEmpty)).getLast?.map (fun v => v.frame)).getD 0

/-- The wall frame a commit asks for: 0 asks for the earliest acceptable one (R56). -/
def State.commitFrame (s : State) (f : Nat) : Nat := if f = 0 then max (s.currentFrame + 2) s.lastCommit else f

/-- Whether a set changes a field of an enabled head that R75 and R198 apply in two sets: HEAD_MULT, or any of R198's but
HEAD_CSPACE and HEAD_URGENT_LINES. -/
def retimed (a b : HeadCfg) : Bool :=
  a.enable && b.enable &&
    decide ({ a with phase := b.phase, cspace := b.cspace, urgentLines := b.urgentLines, lBegin := b.lBegin, lBind := b.lBind, bg := b.bg,
                     overlay := b.overlay, ribbon := b.ribbon } ≠ b)

/-- The heads that a transaction stages with settings that need two sets, for wall frame `f` (R75). -/
def State.redone (s : State) (f : Nat) (objs : List StagedObj) : List (Nat × HeadCfg) :=
  let base := s.layoutAhead (f - 1)
  ((s.layoutAhead f).applyAll objs).heads.filter (fun e => retimed (base.head e.1) e.2 && objs.any (fun o => decide (stagedKey o = (0x206, e.1))))

/-- Whether the store takes a commit for `f`, which may need a second version for `f` + 1 (R75, R81). -/
def State.storeHolds (s : State) (f : Nat) (objs : List StagedObj) : Bool :=
  let need := f :: (if (s.redone f objs).isEmpty then [] else [f + 1])
  decide ((need.filter (fun g => !s.splice.versions.any (fun v => decide (v.frame = g)))).length + s.splice.versions.length ≤ 4)

/-- An entry of the access table that a set locks and the transaction stages (R390). -/
def lockFails (base : Layout) (t : Txn) : Bool :=
  t.staged.any (fun o => match o.obj with
    | .access i _ => (base.access.get {} i).lock
    | _ => false)

/-- Validate a transaction for wall frame `f` (R56, R57, R349), in the order of R39. -/
def State.validate (s : State) (t : Txn) (f : Nat) : Verdict :=
  let fr := s.commitFrame f
  let base := s.layoutAhead fr
  let l := base.applyAll (t.staged.map (fun o => o.obj))
  let ids := stagedIds t
  if s.currentFrame + 65536 < fr then .refuse .eParam 0 0
  else match namedObj ids (paramFails base l) with
  | some o => .refuse .eParam (commitDetail o) 0
  | none =>
    if !rateChangeOk s base l then .refuse .eState 0 0x08
    else if fr < s.currentFrame + 2 then .refuse .eLate (s.commitFrame 0) 0
    else if fr < s.lastCommit then .refuse .eOrder s.lastCommit 0
    else if !s.storeHolds fr (t.staged.map (fun o => o.obj)) then .refuse .eTxnLimit 4 0
    else match conflictOf s t with
    | some o => .refuse .eConflict o.2 0
    | none => match missingId ids l with
      | some i => .refuse .eNotFound i 0
      | none =>
        if lockFails (s.layoutAhead (fr - 1)) t then .refuse .eLocked 0 0
        else match capacityFails s l with
        | some u => .refuse .eCapacity u 0
        | none => match tooDense l with
          | some d => .refuse .eDensity d 0
          | none => match policyFails ids l with
            | some f => .refuse .ePolicy f 0
            | none => .accept fr (commitBoundMask l s)

end Sys2Proof.Machine
end

