-- ==== Sys2Proof/Machine/Compose.lean ====
section
/-! DEFINITION. The strands at work: a tile's pixels and provenance (R147, R152 to R155, R161, R162), the arbiter (R163 to
R168), and the end of a pass (R31, R156). -/

namespace Sys2Proof.Machine

open Sys2Proof

/-! ### A tile's pixels (R147, R152, R153, R154, R228) -/

/-- What a pass has selected for a contributor; a source whose block came back as an error counts as unsealed (R302). -/
def Pass.input (p : Pass) (errs : List Nat) (h : Nat) : Layer → Option (Seal × Nat)
  | .background => none
  | .window _ w => if hasNat w.source errs then none else
      ((List.find? (fun (e : Nat × Option (Seal × Nat)) => decide (e.1 = w.source)) p.inputs).map (fun e => e.2)).getD none
  | .overlay => if hasNat (overlaySource h) errs then none else p.ovl

/-- The frame that an input names. -/
def State.inputBuf (s : State) : Option (Seal × Nat) → Option FrameBuf
  | none => none
  | some x => some ((s.srcRt x.1.source).bufs.get {} x.2)

/-- The key of every overlay surface (R226). -/
def overlayKey : Rgb := (1, 0, 1)

/-- Whether head pixel (x, y) lies in the box of an enabled instance of head `h`. -/
def inGlyphBox (l : Layout) (h : Nat) (x y : Int) : Bool :=
  l.glyphs.any (fun g => g.2.enable && decide (g.2.head = h) && (glyphRect l g.2).has x y)

/-- The weight out of 1,023 and the colour that a contributor gives a pixel, or none where it does not contribute (R147,
R152, R154, R228). -/
def paint (l : Layout) (h : Nat) (f : Option FrameBuf) (x y : Int) : Layer → Option (Nat × Rgb)
  | .background => some (1023, rgbOfWord (l.head h).bg)
  | .window _ w =>
    if (windowBox w).has x y then
      let c := windowPixel l.scaler w f x y
      if w.blend = 0 then some (1023, c)
      else if w.blend = 2 && decide (c = rgbOfWord w.key) then none
      else some (w.alpha, c)
    else none
  | .overlay =>
    match f with
    | some f => let c := rgbOf (fun i => f.raw i x.toNat y.toNat); if c = overlayKey then none else some (1023, c)
    | none => if inGlyphBox l h x y then some (1023, (0, 0, 0)) else none

/-- A pixel under way: its colour so far, and the entries that contribute to it with nonzero weight, topmost first. -/
structure Stack where
  colour : Rgb := (0, 0, 0)
  entries : List Nat := []
  deriving DecidableEq, Repr

/-- One contributor is laid over the pixel (R152, R154). -/
def Stack.lay (k : Nat) (s : Stack) : Option (Nat × Rgb) → Stack
  | none => s
  | some p => if p.1 = 1023 then { colour := p.2, entries := [k] } else { colour := blend p.1 p.2 s.colour, entries := k :: s.entries }

/-- Contributors `ys`, numbered from `k`, laid over a pixel. -/
def stackFrom (paintOf : Layer → Option (Nat × Rgb)) : Nat → List Layer → Stack → Stack
  | _, [], s => s
  | k, y :: t, s => stackFrom paintOf (k + 1) t (s.lay k (paintOf y))

/-- The 64 lines of 64 pixels of a tile; those beyond the active area are none (R154). -/
def tilePixels (l : Layout) (h row col : Nat) (ins : List (Layer × Option FrameBuf)) : List (List (Option Stack)) :=
  (List.range 64).map (fun j => (List.range 64).map (fun i =>
    let x := 64 * col + i
    let y := 64 * row + j
    if x < (l.head h).hActive && y < (l.head h).vActive then
      some (stackFrom (fun y' => paint l h (((List.find? (fun (e : Layer × Option FrameBuf) => decide (e.1 = y')) ins).map (fun e => e.2)).getD none) x y y')
        0 (ins.map (fun e => e.1)) {})
    else none))

/-- The word that is stored for a pixel (R153, R154). -/
def pixelOf : Option Stack → Word
  | none => pixelWord 0 (0, 0, 0)
  | some s => pixelWord (s.entries.headD 0) s.colour

/-- C_UNDER of entry `k`: every other entry beneath one of its pixels with nonzero weight (R154). -/
def underOf (k : Nat) (ps : List (List (Option Stack))) : List Nat :=
  ps.foldl (fun a line => line.foldl (fun a p => match p with
    | none => a
    | some s => if s.entries.head? = some k then s.entries.tail.foldl (fun a e => insertSorted e a) a else a) a) []

/-! ### The provenance record (R28, R155, R161, R162) -/

/-- A contributor's entry. The background's, and one with NO_SEAL, carry neither sequence nor fraction nor class (log entry 31). -/
def contribOf (h : Nat) (ps : List (List (Option Stack))) (k : Nat) (y : Layer) (x : Option Seal) : Contrib :=
  let base : Contrib := match y with
    | .background => { source := 0xFFFE, window := 0xFFFF, background := true }
    | .window id w => { source := w.source, window := id }
    | .overlay => { source := overlaySource h, window := overlayWindow h }
  let base := { base with under := underOf k ps }
  match y, x with
  | .background, _ => base
  | _, none => { base with noSeal := true }
  | _, some x => { base with seq := x.seq, capture := x.capture, concealed := x.concealed, frozen := x.frozen,
                             repeated := x.repeated, fraction := x.fraction, cls := x.cls }

/-- The entries of a tile, numbered from `k`. -/
def contribsFrom (h : Nat) (ps : List (List (Option Stack))) : Nat → List (Layer × Option Seal) → List Contrib
  | _, [] => []
  | k, e :: t => contribOf h ps k e.1 e.2 :: contribsFrom h ps (k + 1) t

/-- The device address of band `b` of tile column `col` in slot `slot` of row `k`, in the ring's placement `g` (R155). -/
def bandAddr (k slot g col b : Nat) : Nat := pageAddr false (Config.slotPage k slot g) + 16384 * col + 2048 * b

/-- How often a head's tile-row ring has taken new slots, for rows of head frame `f` (R313). -/
def State.ringGen (s : State) (h f : Nat) : Nat := (s.splice.ringMoves.filter (fun e => decide (e.1 = h) && decide (e.2 ≤ f))).length

/-- The bytes of band `b` (R155). -/
def bandBytes (px : List (List Word)) (b : Nat) : List Byte :=
  (((px.drop (8 * b)).take 8).map (fun line => (line.map (fun w => leBytes 4 w.toNat)).flatten)).flatten

/-- The band check value (R28). -/
def bandCrc (k slot g col frame h : Nat) (px : List (List Word)) (b : Nat) : Word :=
  foldCrc (bandAddr k slot g col b) (frame % 4294967296) h (bandBytes px b)

/-- A tile's result for slot `slot` as a strand computes it (R161). -/
def State.tileResult (s : State) (k col slot : Nat) (p : Pass) (errs : List Nat) (holder : Nat) (unchecked reworked : Bool) : TileResult :=
  let h := k / 128
  let row := k % 128
  let r := s.row k
  let l := s.layoutFor r.frame
  let ys := tileLayers l h row col
  let ins := ys.map (fun y => (y, p.input errs h y))
  let ps := tilePixels l h row col (ins.map (fun e => (e.1, s.inputBuf e.2)))
  let px := ps.map (fun line => line.map pixelOf)
  { pixels := px, tag := p.tag, order := p.order, passDone := false,
    tpr := { bandCrc := (List.range 8).map (bandCrc k slot (s.ringGen h r.frame) col r.frame h px),
             contribs := contribsFrom h ps 0 (ins.map (fun e => (e.1, e.2.map (fun x => x.1)))),
             wallFrame := r.frame, head := h, half := r.half, col := col, row := row,
             unchecked := unchecked, reworked := reworked, holder := holder } }

/-- The slot that a tile is written to: the one that does not hold its newest completed result, or slot 0 (R157). -/
def RowRt.writeSlot (r : RowRt) (col : Nat) : Nat := if r.newest (fun _ => true) col = some 1 then 1 else 0

/-! ### Strands (R164 to R168) -/

/-- The strand that is not `x`. -/
def otherStrand (x : Nat) : Nat := if x = 0 then 1 else 0

/-- Set what strand `x` is doing. -/
def Braid.setStrand (x : Nat) (v : StrandState) (b : Braid) : Braid := if x = 0 then { b with strandA := v } else { b with strandB := v }

/-- Whether a strand computes and compares tiles. -/
def StrandState.compares : StrandState → Bool
  | .comparing => true
  | .probation _ => true
  | _ => false

/-- Whether a strand is on probation. -/
def StrandState.onProbation : StrandState → Bool
  | .probation _ => true
  | _ => false

/-- The moments at which strand `x` left the comparison. -/
def Braid.leaves (b : Braid) (x : Nat) : List Nat := if x = 0 then b.leavesA else b.leavesB

/-- Record a moment at which strand `x` left the comparison. -/
def Braid.noteLeave (x now : Nat) (b : Braid) : Braid :=
  if x = 0 then { b with leavesA := now :: b.leavesA } else { b with leavesB := now :: b.leavesB }

/-- Strand `x` is fenced until a chip reset (R168); with both fenced the Braid is lost. -/
def State.strandFence (x : Nat) (s : State) : State :=
  let s := ({ s with braid := s.braid.setStrand x .fenced }).fenceUnit (44 + x) (44 + x)
  if s.isFenced 44 && s.isFenced 45 then s.fireSrc 47 128 0xFFFF else s

/-- Strand `x` leaves the comparison and starts self-test (R164). -/
def State.strandLeave (x : Nat) (s : State) : State := { s with braid := (s.braid.noteLeave x s.wallNs).setStrand x .selfTest }

/-- A strand that has left the comparison three times within 86,400 s is fenced (R168). -/
def State.strikeStrand (s : State) (x : Nat) : State :=
  if decide (s.braid.strand x = .selfTest) && decide (3 ≤ ((s.braid.leaves x).filter (fun t => decide (s.wallNs ≤ t + dayNs))).length) then
    s.strandFence x else s

/-- The strands that a tile's mismatch and flags are charged to: those that raised a flag, or else, for a mismatch, the non-holder on
probation or the holder (R164). -/
def Braid.charged (b : Braid) (both mismatch flagA flagB : Bool) : List Nat :=
  let fl := [0, 1].filter (fun x => (if x = 0 then flagA else flagB) && (both || decide (b.hold = x)))
  if !fl.isEmpty then fl
  else if both && mismatch then [if (b.strand (otherStrand b.hold)).onProbation then otherStrand b.hold else b.hold]
  else []

/-- What a tile's mismatch and flags set off: Bowline's non-maskable events, and the third strike of a strand that left (R164, R168). -/
def State.reportStrands (charged : List Nat) (s : State) : State :=
  [0, 1].foldl State.strikeStrand (charged.foldl (fun s x => s.fireSrc (44 + x) (44 + x) 0xFFFF) s)

/-- A tile is decided, unless it is rendered again: a take-back that is due comes now (R167). -/
def State.tileBoundary (s : State) : State := if s.braid.retry.isSome then s else s.takeBackNow

/-- Corrected errors of the strands that rendered the tile are counted (R163). -/
def Braid.noteCorrected (both : Bool) (na nb : Nat) (b : Braid) : Braid :=
  { b with corrA := if both || decide (b.hold = 0) then b.corrA + na else b.corrA, corrB := if both || decide (b.hold = 1) then b.corrB + nb else b.corrB }

/-- What the arbiter decides about a tile (R164). -/
inductive TileVerdict where
  | write (leaves : Option Nat)
  | move (from_ : Nat)
  | retry
  deriving DecidableEq, Repr

/-- The table of R164 for holder `hold`, where both strands compare. -/
def Braid.judge (b : Braid) (mismatch flagA flagB : Bool) : TileVerdict :=
  let hold := b.hold
  let other := otherStrand hold
  let hf := if hold = 0 then flagA else flagB
  let of := if hold = 0 then flagB else flagA
  if hf && of then .retry
  else if hf then .move hold
  else if of then .write (some other)
  else if !mismatch then .write none
  else if (b.strand other).onProbation then .write (some other)
  else .move hold

/-- With a single strand, a flag of it renders the tile again (R164). -/
def Braid.judgeSingle (b : Braid) (flagA flagB : Bool) : TileVerdict := if (if b.hold = 0 then flagA else flagB) then .retry else .write none

/-- The holder writes the front tile of the running pass (R157, R161, R165). -/
def State.writeTile (k col : Nat) (errs : List Nat) (both : Bool) (s : State) : State :=
  let r := s.row k
  match r.running with
  | none => s
  | some p =>
    let slot := r.writeSlot col
    let t := s.tileResult k col slot p errs s.braid.hold (!both) (decide (s.braid.rework = some (k, col)))
    let s := if both then s else s.count 0x04 0 4 1
    let s := s.modRow k (fun r => { r with
      slot0 := if slot = 0 then r.slot0.put col t else r.slot0
      slot1 := if slot = 0 then r.slot1 else r.slot1.put col t
      running := some { p with todo := p.todo.tail, wrote := p.wrote ++ [(slot, col)] } })
    { s with braid := { s.braid with retry := none, rework := if s.braid.rework = some (k, col) then none else s.braid.rework } }

/-- A tile that fails twice: its pass is abandoned, and the Braid fault fires (R164). -/
def State.abandonPass (k : Nat) (s : State) : State :=
  let s := (s.count 0x03 (k / 128) 3 1).modRow k (fun r => { r with running := none })
  let s := { s with braid := { s.braid with current := none, retry := none, rework := none } }
  s.releaseAll.schedule.fireSrc 46 128 0xFFFF

/-- The arbiter's verdict takes effect on tile `col` of row `k`. -/
def State.applyVerdict (k col : Nat) (errs : List Nat) (both : Bool) (v : TileVerdict) (s : State) : State :=
  match v with
  | .write none => s.writeTile k col errs both
  | .write (some x) => (s.writeTile k col errs both).strandLeave x
  | .move x => ({ s with braid := { s.braid with switching := some (otherStrand x), rework := some (k, col), retry := none } }).strandLeave x
  | .retry => if s.braid.retry = some (k, col) then s.abandonPass k else { s with braid := { s.braid with retry := some (k, col) } }

/-- Mismatches and flags of a tile (R164). Only strands that compute raise flags. -/
def Braid.troubles (b : Braid) (both mismatch flagA flagB : Bool) : Nat :=
  (if both && mismatch then 1 else 0) + (if flagA && (both || b.hold = 0) then 1 else 0) + (if flagB && (both || b.hold = 1) then 1 else 0)

/-- TILE_COMPUTED (R163 to R165): the front tile of the running pass is decided. It waits while the hold moves, and
nothing is composed while both strands are fenced. `corrA` and `corrB` are the strands' corrected errors. -/
def State.tileComputed (h row : Nat) (mismatch flagA flagB : Bool) (corrA corrB : Nat) (errs : List Nat) (s : State) : State :=
  let k := rowKey h row
  let b := s.braid
  if !s.writersRun || b.current ≠ some k || b.switching.isSome || (b.strand b.hold = .fenced) then s
  else
    match ((s.row k).running.map (fun p => p.todo)).getD [] with
    | [] => s
    | col :: _ =>
      let both := b.strandA.compares && b.strandB.compares
      let n := b.troubles both mismatch flagA flagB
      let s := s.count 0x04 0 0 n
      let s := { s with braid := { s.braid.noteCorrected both corrA corrB with disagreed := b.disagreed || decide (n ≠ 0) } }
      ((s.applyVerdict k col errs both (if both then b.judge mismatch flagA flagB else b.judgeSingle flagA flagB)).reportStrands
        (b.charged both mismatch flagA flagB)).tileBoundary

/-- STRAND_SWITCH (R165): the move of STRAND_HOLD completes; the pass resumes at the failed tile. -/
def State.strandSwitch (s : State) : State :=
  match s.braid.switching with
  | none => s
  | some x => (({ s with braid := { s.braid with hold := x, switching := none } }).count 0x04 0 1 1).event 0x0009 x s.raster.frame

/-- STRAND_SELFTEST_DONE (R166, R168): a strand that passes waits for wall line 0; one that fails is fenced. -/
def State.selftestDone (x : Nat) (pass : Bool) (s : State) : State :=
  if s.braid.strand x ≠ .selfTest then s
  else if pass then { s with braid := s.braid.setStrand x .passed }
  else ((s.count 0x04 0 3 1).fireSrc (44 + x) (44 + x) 0xFFFF).strandFence x

/-- One strand at wall line 0 (R166): a passed one joins on probation, and an agreeing frame counts for a probation strand. The
answer says whether it leaves probation. -/
def strandFrame (disagreed : Bool) : StrandState → StrandState × Bool
  | .passed => (.probation 0, false)
  | .probation n => if disagreed then (.probation 0, false) else if 600 ≤ n + 1 then (.comparing, true) else (.probation (n + 1), false)
  | x => (x, false)

/-- The strands at wall line 0 (R166, R167): when the preferred strand leaves probation, it takes the hold back at the next tile
boundary, which is now where no tile is in progress. -/
def State.strandsLine0 (s : State) : State :=
  let a := strandFrame s.braid.disagreed s.braid.strandA
  let b := strandFrame s.braid.disagreed s.braid.strandB
  let pref := s.lay.dev.strandPref
  let left := if pref = 0 then a.2 else b.2
  let s := { s with braid := { s.braid with strandA := a.1, strandB := b.1, disagreed := false } }
  let busy := (s.braid.current.bind (fun k => (s.row k).running)).elim false (fun p => !p.todo.isEmpty)
  if left && decide (s.braid.hold ≠ pref) then
    let s := { s with braid := { s.braid with takeBack := true } }
    if busy then s else s.takeBackNow
  else s

/-! ### The end of a pass (R31, R156) -/

/-- Mark a written tile as of a completed pass. -/
def markDone (col : Nat) (t : Tab TileResult) : Tab TileResult := t.map (fun e => if e.1 = col then (e.1, { e.2 with passDone := true }) else e)

/-- The tiles that a pass wrote count as completed. -/
def RowRt.complete (p : Pass) (r : RowRt) : RowRt :=
  p.wrote.foldl (fun r w => if w.1 = 0 then { r with slot0 := markDone w.2 r.slot0 } else { r with slot1 := markDone w.2 r.slot1 }) { r with running := none }

/-- PASS_COMPLETE (R156): every tile of the pass is written; a pending recomposition of the row may start. -/
def State.passComplete (h row : Nat) (s : State) : State :=
  let k := rowKey h row
  if s.braid.current ≠ some k || !s.writersRun then s
  else match (s.row k).running with
    | none => s
    | some p =>
      if !p.todo.isEmpty then s
      else
        let s := (s.count 0x03 h 0 1).modRow k (RowRt.complete p)
        let s := if p.first then s else s.count 0x03 h 1 1
        ({ s with braid := { s.braid with current := none } }).releaseAll.schedule

/-! ### The rows -/

/-- TILE_COMPUTED. -/
def execTileComputed (dt : Nat) (head row : Nat) (mismatch : Bool) (strandA strandB : StrandObs) (readErrors : List Nat) (s : State) :
    Host.Outcome State Fault Refusal :=
  .next ((s.advance dt).tileComputed head row mismatch strandA.flag strandB.flag strandA.corrected strandB.corrected readErrors)

/-- STRAND_SWITCH. -/
def execStrandSwitch (dt : Nat) (s : State) : Host.Outcome State Fault Refusal := .next (s.advance dt).strandSwitch

/-- PASS_COMPLETE. -/
def execPassComplete (dt : Nat) (head row : Nat) (s : State) : Host.Outcome State Fault Refusal := .next ((s.advance dt).passComplete head row)

/-- STRAND_SELFTEST_DONE. -/
def execStrandSelftestDone (dt : Nat) (strand : Nat) (pass : Bool) (s : State) : Host.Outcome State Fault Refusal :=
  .next ((s.advance dt).selftestDone strand pass)

end Sys2Proof.Machine
end

