-- ==== Sys2Proof/Machine/Judge.lean ====
section
/-! DEFINITION. The Stopper's judgement and what it draws: policy tables (R172 to R174), the TPR and band checks (R176,
R177), the age checks (R178, R179), the patterns (R180 to R182), captions and ribbon (R184 to R186, R474), and the STARTING
pattern (R207). -/

namespace Sys2Proof.Machine

open Sys2Proof

/-! ### Policy (R172 to R174) -/

/-- The clipped rectangle of a window (R173). -/
def clippedRect (c : HeadCfg) (w : WindowCfg) : Rect :=
  { x := (max w.dstX 0).toNat, y := (max w.dstY 0).toNat, w := clipLen w.dstX w.dstW c.hActive, h := clipLen w.dstY w.dstH c.vActive }

/-- A window's line as Bowline writes it, every limit at most its floor (R172, R173). -/
def policyLine (l : Layout) (id : Nat) (w : WindowCfg) : PolicyEntry :=
  let f := floors (l.source w.source).cls
  { window := id, source := w.source, rect := clippedRect (l.head w.head) w, staleMs := min w.staleMs f.1, deadMs := min w.deadMs f.2.1,
    freezeMs := min w.freezeMs f.2.2, caption := w.caption, corner := w.captionCorner, scale := w.captionScale }

/-- `n` wall frame periods, rounded up to whole ms (R174). -/
def wallPeriodsMs (rate n : Nat) : Nat := (n * 1000 * (wallRateHz rate).2 + ((wallRateHz rate).1 - 1)) / (wallRateHz rate).1

/-- The line of the overlay window (R174). -/
def overlayLine (l : Layout) (h : Nat) : PolicyEntry :=
  let c := l.head h
  let f := wallPeriodsMs l.dev.wallRate 3
  { window := overlayWindow h, source := overlaySource h, rect := { x := 0, y := 0, w := c.hActive, h := c.vActive }, staleMs := f,
    deadMs := wallPeriodsMs l.dev.wallRate 30, freezeMs := f, caption := 0, corner := 0, scale := 1 }

/-- The policy table of head `h` under a set (R173). -/
def policyOf (l : Layout) (h : Nat) : List PolicyEntry :=
  (headWindows l h).map (fun e => policyLine l e.1 e.2) ++ (if (l.head h).overlay = 1 then [overlayLine l h] else [])

/-- Whether Bowline had to replace a limit by its floor (R173). -/
def floored (l : Layout) (h : Nat) : Bool := (headWindows l h).any (fun e => (windowFloor l e.2).isSome)

/-- The line of a window. -/
def lineOf (pol : List PolicyEntry) (w : Nat) : Option PolicyEntry := List.find? (fun (p : PolicyEntry) => decide (p.window = w)) pol

/-! ### Marker sets (R178 to R180) -/

/-- Markers in the order in which R180 treats them. -/
def allMarkers : List Marker := [.unverified, .dead, .concealed, .frozen, .stale]

/-- Whether a set holds a marker. -/
def hasMark (m : Marker) (l : List Marker) : Bool := l.any (fun x => decide (x = m))

/-- The union of two marker sets, in the order of R180. -/
def unionMarks (a b : List Marker) : List Marker := allMarkers.filter (fun m => hasMark m a || hasMark m b)

/-- The markers that a pixel takes from its set: UNVERIFIED or DEAD alone, or the others together (R180). -/
def shownMarks (l : List Marker) : List Marker :=
  if hasMark .unverified l then [.unverified] else if hasMark .dead l then [.dead] else l

/-- Checker P: the age T_CHECK − C_CAPTURE, never below zero, against a limit in ms (R178, R187). -/
def exceedsP (t c ms : Nat) : Bool := decide (ms * 1000000 < t - c)

/-- Checker Q: C_CAPTURE + limit against T_CHECK (R178, R187). -/
def exceedsQ (t c ms : Nat) : Bool := decide (c + ms * 1000000 < t)

/-- m[k]: the markers of a contributor entry at T_CHECK `t`, with LAST_ADVANCE of each source (R178); `exceeds` is the checker's
age compare. -/
def judgeEntry (exceeds : Nat → Nat → Nat → Bool) (pol : List PolicyEntry) (t : Nat) (advance : Nat → Nat) (c : Contrib) : List Marker :=
  if c.background then []
  else if c.noSeal then [.dead]
  else match lineOf pol c.window with
    | none => [.unverified]
    | some p => allMarkers.filter (fun m => match m with
        | .unverified => false
        | .dead => exceeds t c.capture p.deadMs
        | .concealed => c.concealed
        | .frozen => c.frozen
        | .stale => exceeds t c.capture p.staleMs || exceeds t (advance c.source) p.freezeMs)

/-- The set by which a pixel of entry `k` is judged (R179); a slot that names an unused entry is UNVERIFIED. -/
def entrySet (cs : List Contrib) (ms : List (List Marker)) (k : Nat) : List Marker :=
  if cs.length ≤ k then [.unverified]
  else ((cs.getD k {}).under).foldl (fun a i => unionMarks a (ms.getD i [])) (ms.getD k [])

/-! ### TPR and band checks (R176, R177) -/

/-- Whether a used entry names a window that the policy does not know, or another source than its own (R176). -/
def badEntry (pol : List PolicyEntry) (c : Contrib) : Bool :=
  !c.background && decide (c.source ≠ 0xFFFF) &&
    (match lineOf pol c.window with | none => true | some p => decide (p.source ≠ c.source))

/-- Whether a tile fails the TPR check, apart from a read error (R176). -/
def tprFails (pol : List PolicyEntry) (h row col f half : Nat) (t : Tpr) : Bool :=
  decide (t.wallFrame ≠ f) || decide (t.half ≠ half) || decide (t.head ≠ h) || decide (t.col ≠ col) || decide (t.row ≠ row) ||
    t.contribs.any (badEntry pol)

/-- The pixels of a band as fetched: an error response gives zero bytes (R205, R302). -/
def bandOf (zeroed : Bool) (t : TileResult) (b : Nat) : List (List Word) :=
  ((t.pixels.drop (8 * b)).take 8).map (fun line => if zeroed then line.map (fun _ => 0#32) else line)

/-- Whether band `b` of a tile fails its check (R177). -/
def bandFails (k slot g col f h : Nat) (zeroed : Bool) (t : TileResult) (b : Nat) : Bool :=
  let bytes := ((bandOf zeroed t b).map (fun line => (line.map (fun w => leBytes 4 w.toNat)).flatten)).flatten
  decide (foldCrc (bandAddr k slot g col b) (f % 4294967296) h bytes ≠ t.tpr.bandCrc.getD b 0#32)

/-- The verdict on one tile of a band row: failed, or the marker set of each of its entries (R176 to R179), with the
pixels of the band. -/
structure TileView where
  failed : Bool := true
  contribs : List Contrib := []
  sets : List (List Marker) := []
  band : List (List Word) := []
  deriving DecidableEq, Repr

/-- PROV_SLOT of a pixel word. -/
def slotOf (w : Word) : Nat := w.toNat / 1073741824

/-- The colour of a pixel word. -/
def colourOf (w : Word) : Rgb := rgbOfWord (w.toNat % 1073741824)

/-- The set of the pixel whose word is `w` (R179). -/
def TileView.setOf (v : TileView) (w : Word) : List Marker :=
  if v.failed || decide (v.contribs.length ≤ slotOf w) then [.unverified] else v.sets.getD (slotOf w) []

/-- One checker's verdict on a tile of a band row (R187): the TPR check, the band check, and the markers m[k] of each entry. -/
structure Checked where
  tprFail : Bool := false
  crcFail : Bool := false
  marks : List (List Marker) := []
  deriving DecidableEq, Repr

/-- The bit of TR_MARKS of each marker decides whether a faulty checker gets it wrong (R187). -/
def flipMarks (mask : Nat) (ms : List Marker) : List Marker := allMarkers.filter (fun m => hasMark m ms != mask.testBit (markBit m))

/-- What a checker's fault makes of its verdict. The TPR check is decided with band 0 (R176). -/
def Checked.disturb (b : Nat) (v : Checked) (f : CheckFault) : Checked :=
  if f.entry = 4 then { v with tprFail := v.tprFail != (decide (b = 0) && f.mask.testBit 0), crcFail := v.crcFail != f.mask.testBit 1 }
  else { v with marks := (List.range v.marks.length).map (fun k => if k = f.entry then flipMarks f.mask (v.marks.getD k []) else v.marks.getD k []) }

/-- A tile that fails a check is not judged any further (R180). -/
def Checked.settle (v : Checked) : Checked := if v.tprFail || v.crcFail then { v with marks := [] } else v

/-- The unit's verdict is the union of its checkers' (R188). -/
def Checked.union (p q : Checked) : Checked :=
  let n := max p.marks.length q.marks.length
  { tprFail := p.tprFail || q.tprFail, crcFail := p.crcFail || q.crcFail,
    marks := (List.range n).map (fun k => unionMarks (p.marks.getD k []) (q.marks.getD k [])) }

/-- The view of a tile from the unit's verdict (R178 to R180). -/
def viewOf (v : Checked) (t : TileResult) (band : List (List Word)) : TileView :=
  let cs := t.tpr.contribs
  if v.tprFail || v.crcFail then {}
  else { failed := false, contribs := cs, band := band, sets := (List.range cs.length).map (entrySet cs v.marks) }

/-! ### Patterns (R181, R182) -/

/-- The mean with a palette colour (R181). -/
def mixWith (k v : Rgb) : Rgb := ((v.1 + k.1 + 1) / 2, (v.2.1 + k.2.1 + 1) / 2, (v.2.2 + k.2.2 + 1) / 2)

/-- One marker drawn on a pixel at (x, y) with frame count `n` (R181). -/
def drawMark (pal : List Nat) (n x y : Nat) (v : Rgb) : Marker → Rgb
  | .unverified => paletteAt pal 5
  | .dead => deadPixel pal x y
  | .concealed => if x % 8 < 2 && y % 8 < 2 then paletteAt pal 3 else v
  | .frozen => if (x + n / 4) % 64 < 16 then mixWith (paletteAt pal 4) v else v
  | .stale => if (x + y + n) % 8 < 2 then mixWith (paletteAt pal 0) v else v

/-- A pixel with its patterns (R180). -/
def markPixel (pal : List Nat) (n x y : Nat) (set : List Marker) (v : Rgb) : Rgb :=
  (shownMarks set).foldl (drawMark pal n x y) v

/-! ### Captions (R184, R185, R474) -/

/-- The seven rows of a glyph of the built-in font, by character code (R474). -/
def fontRows : Nat → List Nat
  | 48 => [0x0E, 0x11, 0x13, 0x15, 0x19, 0x11, 0x0E]
  | 49 => [0x04, 0x0C, 0x04, 0x04, 0x04, 0x04, 0x0E]
  | 50 => [0x0E, 0x11, 0x01, 0x02, 0x04, 0x08, 0x1F]
  | 51 => [0x1F, 0x02, 0x04, 0x02, 0x01, 0x11, 0x0E]
  | 52 => [0x02, 0x06, 0x0A, 0x12, 0x1F, 0x02, 0x02]
  | 53 => [0x1F, 0x10, 0x1E, 0x01, 0x01, 0x11, 0x0E]
  | 54 => [0x06, 0x08, 0x10, 0x1E, 0x11, 0x11, 0x0E]
  | 55 => [0x1F, 0x01, 0x02, 0x04, 0x08, 0x08, 0x08]
  | 56 => [0x0E, 0x11, 0x11, 0x0E, 0x11, 0x11, 0x0E]
  | 57 => [0x0E, 0x11, 0x11, 0x0F, 0x01, 0x02, 0x0C]
  | 46 => [0x00, 0x00, 0x00, 0x00, 0x00, 0x0C, 0x0C]
  | 58 => [0x00, 0x0C, 0x0C, 0x00, 0x0C, 0x0C, 0x00]
  | 45 => [0x00, 0x00, 0x00, 0x1F, 0x00, 0x00, 0x00]
  | 62 => [0x08, 0x04, 0x02, 0x01, 0x02, 0x04, 0x08]
  | 104 => [0x10, 0x10, 0x16, 0x19, 0x11, 0x11, 0x11]
  | 109 => [0x00, 0x00, 0x1A, 0x15, 0x15, 0x11, 0x11]
  | 115 => [0x00, 0x00, 0x0E, 0x10, 0x0E, 0x01, 0x1E]
  | _ => [0, 0, 0, 0, 0, 0, 0]

/-- Whether (col, row) is a glyph pixel of a character (R474). -/
def glyphBit (ch col row : Nat) : Bool := decide (col < 5) && (((fontRows ch).getD row 0).testBit (4 - col))

/-- The decimal digits of a number as character codes. The fuel bounds the number of digits. -/
def decimal : Nat → Nat → List Nat
  | 0, _ => []
  | n + 1, v => if v < 10 then [48 + v] else decimal n (v / 10) ++ [48 + v % 10]

/-- Two decimal digits. -/
def twoDigits (v : Nat) : List Nat := [48 + v / 10 % 10, 48 + v % 10]

/-- The caption text for an age in ms, or for no seal (R185). -/
def captionText : Option Nat → List Nat
  | none => [45, 45, 45, 45]
  | some a =>
    if a < 1000 then decimal 4 a ++ [32, 109, 115]
    else if a < 60000 then decimal 4 (a / 1000) ++ [46, 48 + a / 100 % 10, 32, 115]
    else if a < 3600000 then decimal 4 (a / 60000) ++ [58] ++ twoDigits (a / 1000 % 60)
    else if a < 360000000 then decimal 4 (a / 3600000) ++ [58] ++ twoDigits (a / 60000 % 60) ++ [58] ++ twoDigits (a / 1000 % 60)
    else [62, 57, 57, 32, 104]

/-- The pixel that a caption draws at (x, y), if it lies in the box (R184). -/
def captionPixel (pal : List Nat) (k : Caption) (x y : Nat) : Option Rgb :=
  let u : Int := (x : Int) - k.x
  let c := k.text.length
  if c = 0 || u < 0 || (((6 * c + 1) * k.scale : Nat) : Int) ≤ u || y < k.y || k.y + 9 * k.scale ≤ y then none
  else
    let i := u.toNat / k.scale
    let j := (y - k.y) / k.scale
    if 1 ≤ i && 1 ≤ j && glyphBit (k.text.getD ((i - 1) / 6) 0) ((i - 1) % 6) (j - 1) then some (paletteAt pal 6) else some (paletteAt pal 7)

/-- The top line of a window's caption box (R184). -/
def captionTop (p : PolicyEntry) : Int :=
  if p.corner < 2 then p.rect.y + 4 else ((p.rect.y + p.rect.h : Nat) : Int) - 4 - 9 * p.scale

/-- The left edge of the box of `c` characters (R184). -/
def captionLeft (p : PolicyEntry) (c : Nat) : Int :=
  if p.corner % 2 = 0 then p.rect.x + 4 else ((p.rect.x + p.rect.w : Nat) : Int) - 4 - ((6 * c + 1) * p.scale : Nat)

/-- The tile columns of a window from its caption's corner inwards. -/
def captionCols (p : PolicyEntry) : List Nat :=
  let a := p.rect.x / 64
  let cols := (List.range ((p.rect.x + p.rect.w + 63) / 64 - a)).map (fun i => a + i)
  if p.corner % 2 = 0 then cols else cols.reverse

/-- The entry of a window in a tile. -/
def entryOf (w : Nat) (cs : List Contrib) : Option Nat := cs.findIdx? (fun c => decide (c.window = w) && !c.background)

/-- The window's entry in the first tile from the corner inwards that is not UNVERIFIED and has one; its age is the caption's (R184; which
tile's age counts where they differ is log entry 32). -/
def captionEntry (views : List TileView) (p : PolicyEntry) : Option Contrib :=
  (captionCols p).findSome? (fun i =>
    let v := views.getD i {}
    if v.failed then none else (entryOf p.window v.contribs).map (fun k => v.contribs.getD k {}))

/-- The caption of a window in the band row that holds its top line: the age at `t`, and whether it is drawn (R184, R185).
`views` are the band row's tiles by column. -/
def captionFor (t : Nat) (views : List TileView) (p : PolicyEntry) : Option Caption :=
  match captionEntry views p with
    | none => none
    | some c =>
      let text := captionText (if c.noSeal then none else some ((t - c.capture) / 1000000))
      let x := captionLeft p text.length
      let w : Int := ((6 * text.length + 1) * p.scale : Nat)
      let marked := ((List.range views.length).any (fun (i : Nat) =>
        let u := views.getD i {}
        decide (x < 64 * (i : Int) + 64) && decide (64 * (i : Int) < x + w) &&
          (match entryOf p.window u.contribs with | none => false | some e => !u.failed && !(u.sets.getD e []).isEmpty)))
      if p.caption = 2 || (p.caption = 1 && marked) then some { x := x, y := (captionTop p).toNat, scale := p.scale, text := text } else none

/-! ### Ribbon (R186) -/

/-- The ribbon word (R186). -/
def ribbonWord (f h half : Nat) : Nat := f % 1099511627776 + 1099511627776 * h + 35184372088832 * half

/-- The pixel of the ribbon in its line `v` (0 to 3) at column `x` of a head `w` pixels wide (R186). -/
def ribbonPixel (pal : List Nat) (w f h half n v x : Nat) : Rgb :=
  let c := min 32 (w / 104)
  let one :=
    if v < 2 then
      let k := x / c
      if k = 0 then true
      else if k = 1 then false
      else if k < 50 then (ribbonWord f h half).testBit (k - 2)
      else if k < 98 then !(ribbonWord f h half).testBit (k - 50)
      else false
    else decide ((((x : Int) - ((n * c : Nat) : Int)) % ((16 * c : Nat) : Int)) < ((2 * c : Nat) : Int))
  if one then paletteAt pal 8 else paletteAt pal 9

/-- The ribbon line that active line `y` is, if any (R186). -/
def ribbonLine (mode height y : Nat) : Option Nat :=
  if mode = 1 && y < 4 then some y else if mode = 2 && height ≤ y + 4 then some (y + 4 - height) else none

/-! ### The STARTING pattern (R207) -/

/-- The head ID as an age caption at eight times scale 1 (R207). -/
def startingCaption (h : Nat) : Caption := { x := 32, y := 32, scale := 8, text := twoDigits h }

/-- A pixel of the STARTING pattern (R207). -/
def startingPixel (pal : List Nat) (h n x y : Nat) : Rgb :=
  match captionPixel pal (startingCaption h) x y with
  | some c => c
  | none => if ((x : Int) - ((2 * n : Nat) : Int)) % 256 < 8 then (1023, 1023, 1023) else (320, 320, 320)

end Sys2Proof.Machine
end

