-- ==== Sys2Proof/Machine/Stopper.lean ====
section
/-! DEFINITION. The Stopper at work on a head: band rows fetched and judged (R175 to R189, R204, R205), what leaves on the
link (R53, R180, R186, R203, R207), and the signatures of it (R192, R193). -/

namespace Sys2Proof.Machine

open Sys2Proof

/-! ### Band rows in the line buffer (R204) -/

/-- The number of band row `j` of head frame (f, half) in a head's `fetched` and `urgent`. -/
def bandKey (f half j : Nat) : Nat := (2 * f + half) * 1024 + j

/-- Band rows that the line buffer holds: 524,288 bytes of 32 × H_ACTIVE each (R204). -/
def lineBufferRows (c : HeadCfg) : Nat := 524288 / (32 * c.hActive)

/-- The head frame for which a tile row is bound or due, as the head's fetch sees it. -/
def State.bandFrame (s : State) (h j : Nat) : Nat × Nat :=
  let r := s.row (rowKey h (j / 8))
  let x := s.headRt h
  if frameLe x.frame x.half r.frame r.half then (r.frame, r.half) else (x.frame, x.half)

/-- Whether band row `j` of head frame `g` is next in order: bands of a frame are fetched in order, after those of the frame
before (R204). -/
def HeadRt.inOrder (r : HeadRt) (g : Nat × Nat) (j : Nat) : Bool :=
  decide (j = 0) || hasNat (bandKey g.1 g.2 (j - 1)) r.fetched || (decide (g = (r.frame, r.half)) && decide (j ≤ r.emitted))

/-- Whether the head still fetches the rows of head frame `g`: not after an underrun (R205), nor rows already emitted. -/
def HeadRt.fetches (r : HeadRt) (g : Nat × Nat) (j : Nat) : Bool :=
  decide (g ≠ (r.frame, r.half)) || (!r.abortedNow && decide (r.emitted ≤ j))

/-- BAND_ROW_FETCH_DONE (R204): a band row is complete in the line buffer. -/
def State.bandFetched (h j : Nat) (s : State) : State :=
  let x := s.headRt h
  let g := s.bandFrame h j
  let k := bandKey g.1 g.2 j
  let r := s.row (rowKey h (j / 8))
  if x.linked && x.startPos.isSome && !s.isFenced h && r.bound && decide ((r.frame, r.half) = g) && decide (j < bandRows x.cfg) &&
      x.fetches g j && x.inOrder g j && decide (x.fetched.length < lineBufferRows x.cfg) then
    s.modHead h (fun y => { y with fetched := insertSorted k y.fetched, urgent := removeNat k y.urgent })
  else s

/-- Wall time at which band row `j` of head frame `g` may turn urgent: HEAD_URGENT_LINES head lines before its deadline (R175, R204). -/
def State.urgentAt (s : State) (h : Nat) (g : Nat × Nat) (j : Nat) : Int :=
  let c := (s.layoutFor g.1).head h
  let p := headStartPos c g.1 g.2
  (lineStartNs s.lay.dev.wallRate (p / 4096) (p % 4096) : Int) + headLineNs s.lay.dev.wallRate c (blankBefore c + 8 * j) -
    headLineNs s.lay.dev.wallRate c c.urgentLines

/-- FETCH_URGENT (R204): a band row that is not complete HEAD_URGENT_LINES head lines before its deadline raises its head's fetch to
urgent until it completes. -/
def State.fetchUrgent (h j : Nat) (s : State) : State :=
  let x := s.headRt h
  let g := s.bandFrame h j
  let k := bandKey g.1 g.2 j
  if x.linked && x.startPos.isSome && !s.isFenced h && decide (j < bandRows x.cfg) && x.fetches g j && !hasNat k x.fetched && !hasNat k x.urgent &&
      decide (s.urgentAt h g j ≤ s.wallNs) then
    (s.modHead h (fun y => { y with urgent := insertSorted k y.urgent })).countHead h 3
  else s

/-! ### Judging a band row (R175 to R179, R188) -/

/-- LAST_ADVANCE of a source's status entry (R29, R178). -/
def State.lastAdvance (s : State) (i : Nat) : Nat := (s.srcRt i).status.lastAdvance

/-- The slot number that a tile's commit mark names (R159). -/
def RowRt.commitSlot (r : RowRt) (col : Nat) : Nat := r.commit.get 0 col - 1

/-- One checker's verdict on a tile: the TPR check, the band check, and the markers of its entries by the checker's own age compare,
with what a fault of the checker makes of them (R176 to R178, R187). -/
def State.checkTile (s : State) (pol : List PolicyEntry) (exceeds : Nat → Nat → Nat → Bool) (tprBad crcBad : Bool) (col b : Nat) (t : TileResult)
    (faults : List CheckFault) : Checked :=
  let v : Checked := { tprFail := tprBad, crcFail := crcBad, marks := t.tpr.contribs.map (judgeEntry exceeds pol s.wallNs s.lastAdvance) }
  ((faults.filter (fun f => decide (f.col = col))).foldl (Checked.disturb b) v).settle

/-- What a Stopper unit makes of one tile of a band row: the view drawn, the verdicts of its checkers, which checks fail, and whether the
checkers disagree. -/
structure Judged where
  view : TileView := {}
  p : Checked := {}
  q : Checked := {}
  tprFail : Bool := false
  crcFail : Bool := false
  disagree : Bool := false
  deriving DecidableEq, Repr

/-- The verdict on tile `col` in band `b` of tile row `row`: the union of its checkers' (R187, R188). The TPR check is decided with band
0 and lasts for the tile's 64 lines (R176); a tile with no committed result fails it. A tile that failed in an earlier band is drawn
UNVERIFIED and not judged again (R177). -/
def State.judgeAt (s : State) (pol : List PolicyEntry) (h row col f half b : Nat) (o : BandObs) : Judged :=
  let k := rowKey h row
  let r := s.row k
  match r.committed col with
  | none => { tprFail := true }
  | some t =>
    let lost := s.stop.tileFail.any (fun e => decide (e = (k, col)))
    let earlier := decide (b ≠ 0) && (lost || s.stop.crcFail.any (fun e => decide (e = (k, col))))
    let zero := hasNat col o.zeroed || hasNat col o.lbufErrors
    let tprBad := if b = 0 then hasNat col o.tprErrors || hasNat col o.tprReserved || tprFails pol h row col f half t.tpr else lost
    let crcBad := hasNat col o.lbufErrors || bandFails k (r.commitSlot col) (s.ringGen h f) col f h zero t b
    let p := s.checkTile pol exceedsP tprBad crcBad col b t o.faultP
    let q := s.checkTile pol exceedsQ tprBad crcBad col b t o.faultQ
    let u := p.union q
    { view := if earlier then {} else viewOf u t (bandOf zero t b), p := p, q := q, tprFail := u.tprFail, crcFail := !u.tprFail && u.crcFail,
      disagree := !earlier && decide (p ≠ q) }

/-- The markers of an entry as bits, as checker P stores them (R187). -/
def markBits (ms : List Marker) : Nat := ms.foldl (fun a m => a + 2 ^ markBit m) 0

/-- The markers of an entry as one-hot codes, as checker Q stores them (R187). -/
def markCodes (ms : List Marker) : List Nat := ms.map (fun m => 2 ^ markBit m)

/-- The words of the active pixels of a tile's band; the lines of a ribbon that is drawn are neither judged nor marked (R186). -/
def activeWords (c : HeadCfg) (live : Bool) (col band : Nat) (v : TileView) : List Word :=
  (((List.range (min 8 (c.vActive - 8 * band))).filter (fun i => !live || (ribbonLine c.ribbon c.vActive (8 * band + i)).isNone)).map
    (fun i => (v.band.getD i []).take (c.hActive - 64 * col))).flatten

/-- Markers that at least one pixel of a tile band takes (R194). -/
def takenMarks (c : HeadCfg) (live : Bool) (col band : Nat) (v : TileView) : List Marker :=
  if v.failed then [] else (activeWords c live col band v).foldl (fun a w => unionMarks a (shownMarks (v.setOf w))) []

/-- Whether a band of a tile holds a pixel whose PROV_SLOT names an unused entry. -/
def badSlot (c : HeadCfg) (live : Bool) (col band : Nat) (v : TileView) : Bool :=
  !v.failed && (activeWords c live col band v).any (fun w => decide (v.contribs.length ≤ slotOf w))

/-- Whether a tile band shows a line of a rectangle that is not a ribbon line. -/
def meetsBand (c : HeadCfg) (live : Bool) (q : Rect) (col band : Nat) : Bool :=
  decide (q.x < 64 * col + 64) && decide (64 * col < q.x + q.w) &&
  (List.range (min 8 (c.vActive - 8 * band))).any (fun i =>
    decide (q.y ≤ 8 * band + i) && decide (8 * band + i < q.y + q.h) && (!live || (ribbonLine c.ribbon c.vActive (8 * band + i)).isNone))

/-- The markers drawn on the pixels of window `w` in a tile band (R281). -/
def windowMarks (c : HeadCfg) (live : Bool) (col band : Nat) (v : TileView) (p : PolicyEntry) : List Marker :=
  if v.failed then (if meetsBand c live p.rect col band then [.unverified] else [])
  else match entryOf p.window v.contribs with
    | none => []
    | some k => (activeWords c live col band v).foldl (fun a w => if slotOf w = k then unionMarks a (shownMarks (v.setOf w)) else a) []

/-- Counter index of a marker (R194). -/
def markCounter : Marker → Option Nat
  | .stale => some 3 | .dead => some 4 | .concealed => some 5 | .frozen => some 6 | .unverified => none

/-- Count the markers that a tile band takes. -/
def State.countMarks (h : Nat) (ms : List Marker) (s : State) : State :=
  ms.foldl (fun s m => match markCounter m with | none => s | some i => s.count 0x06 h i 1) s

/-- What judging a band row records: failures, counters, the windows' markers, captions that begin in it, and the checkers' verdict
stores (R176, R177, R184, R187, R194, R281). -/
def State.recordBand (h band : Nat) (pol : List PolicyEntry) (vs : List Judged) (s : State) : State :=
  let k := rowKey h (band / 8)
  let c := (s.headRt h).cfg
  let live := decide (s.emission h = .live)
  let cols := List.range vs.length
  let at_ := fun (i : Nat) => vs.getD i {}
  let tf := cols.filter (fun i => (at_ i).tprFail)
  let cf := cols.filter (fun i => (at_ i).crcFail)
  let here := fun (e : Nat × Nat) => decide (e.1 = k)
  let newTf := if band % 8 = 0 then s.stop.tileFail.filter (fun e => !here e) ++ tf.map (fun i => (k, i)) else s.stop.tileFail
  let oldCf := if band % 8 = 0 then s.stop.crcFail.filter (fun e => !here e) else s.stop.crcFail
  let newCf := oldCf ++ (cf.filter (fun i => !oldCf.any (fun e => decide (e = (k, i))))).map (fun i => (k, i))
  let marks := pol.foldl (fun m p => m.set [] p.window
    (cols.foldl (fun a i => unionMarks a (windowMarks c live i band (at_ i).view p)) (m.get [] p.window))) s.stop.marksNow
  let caps := pol.foldl (fun m p => if p.caption ≠ 0 && decide (captionTop p / 8 = band) then
    m.set {} p.window ((captionFor s.wallNs (vs.map (fun v => v.view)) p).getD {}) else m) s.stop.captions
  let s := { s with stop := { s.stop with
    tileFail := newTf, crcFail := newCf, marksNow := marks, captions := caps
    units := s.stop.units.modify {} (stopUnitOf h) (fun x => { x with
      storeP := cols.map (fun i => (i, (at_ i).p.marks.map markBits)), storeQ := cols.map (fun i => (i, (at_ i).q.marks.map markCodes)) }) } }
  let s := if band % 8 = 0 then s.count 0x06 h 0 tf.length else s
  let s := s.count 0x06 h 1 cf.length
  let s := if cols.any (fun i => badSlot c live i band (at_ i).view) then s.count 0x06 h 2 1 else s
  cols.foldl (fun s i => s.countMarks h (takenMarks c live i band (at_ i).view)) s

/-! ### What leaves on the link (R53, R180, R186, R203, R205, R207) -/

/-- The pixel at (x, y) of a judged band row, with patterns and caption (R180, R184). -/
def judgedPixel (pal : List Nat) (n : Nat) (caps : Tab Caption) (vs : List TileView) (x y : Nat) : Rgb :=
  let v := vs.getD (x / 64) {}
  let w := (v.band.getD (y % 8) []).getD (x % 64) 0#32
  let base := markPixel pal n x y (v.setOf w) (colourOf w)
  if v.failed || decide (v.contribs.length ≤ slotOf w) then base
  else
    let e := v.contribs.getD (slotOf w) {}
    if e.background then base
    else (captionPixel pal (caps.get {} e.window) x y).getD base

/-- The pixel at (x, y) as the head emits it. -/
def emittedPixel (pal : List Nat) (h : Nat) (r : HeadRt) (caps : Tab Caption) (vs : List TileView) (e : Emission) (x y : Nat) : Rgb :=
  match e with
  | .dead => deadPixel pal x y
  | .starting => startingPixel pal h r.n x y
  | .abort => paletteAt pal 5
  | _ =>
    match ribbonLine r.cfg.ribbon r.cfg.vActive y with
    | some v => ribbonPixel pal r.cfg.hActive r.frame h r.half r.n v x
    | none => judgedPixel pal r.n caps vs x y

/-- The active lines of a band row. -/
def bandLines (c : HeadCfg) (band : Nat) : List Nat := (List.range (min 8 (c.vActive - 8 * band))).map (fun i => 8 * band + i)

/-- The emitted lines of a band row. -/
def emittedBand (pal : List Nat) (h : Nat) (r : HeadRt) (caps : Tab Caption) (vs : List TileView) (e : Emission) (band : Nat) : List (List Rgb) :=
  (bandLines r.cfg band).map (fun y => (List.range r.cfg.hActive).map (fun x => emittedPixel pal h r caps vs e x y))

/-- Whether a head sends active lines. -/
def Emission.draws : Emission → Bool
  | .starting => true
  | .dead => true
  | .live => true
  | .abort => true
  | _ => false

/-! ### Signatures (R192, R193) -/

/-- The signature unit of a head. -/
def sigUnitOf (h : Nat) : Nat := h / 4

/-- Apply `f` to the signature unit of head `h`. -/
def State.modSig (h : Nat) (f : SigUnit → SigUnit) (s : State) : State :=
  { s with stop := { s.stop with sigs := s.stop.sigs.modify {} (sigUnitOf h) f } }

/-- The register that a signature of head `h` starts from (R192). -/
def signStart (h : Nat) : Word := crcRun 0xFFFFFFFF#32 (foldPrefix 0 0 h)

/-- A signature from its register. -/
def signEnd (w : Word) : Word := w ^^^ 0xFFFFFFFF#32

/-- The full-screen DEAD pattern's signature (R193). -/
def deadSignature (pal : List Nat) (h : Nat) (c : HeadCfg) : Word :=
  signEnd (signLines (signStart h) ((List.range c.vActive).map (fun y => (List.range c.hActive).map (fun x => deadPixel pal x y))))

/-- A probe at the end of its head's frame (R192): the sample, and whether it fails. -/
def Probe.sample (p : Probe) : Probe × Bool :=
  match p.acc with
  | none => (p, false)
  | some w =>
    let v := signEnd w
    let run := if decide (0 < p.equalRun) && decide (p.latest = v) then p.equalRun + 1 else 1
    let bad := if p.cfg.mode = 1 then decide (v ≠ p.cfg.expect) else decide (p.cfg.mode = 2) && decide (p.cfg.n ≤ run)
    ({ p with acc := none, latest := v, equalRun := run, failures := p.failures + (if bad then 1 else 0) }, bad)

/-- The probes of head `h` end their frame; each failure fires the group's source (R192, R193). -/
def State.endProbes (h : Nat) (s : State) : State :=
  let u := s.stop.sigs.get {} (sigUnitOf h)
  let bad := (u.probes.filter (fun e => decide (e.2.cfg.head = h) && e.2.sample.2)).length
  let s := s.modSig h (fun u => { u with probes := u.probes.map (fun e => if e.2.cfg.head = h then (e.1, e.2.sample.1) else e) })
  (List.range bad).foldl (fun s _ => s.fireSrc (160 + sigUnitOf h) h 0xFFFF) s

/-- The whole-frame signature of head `h` ends: a LIVE head with a ribbon must not repeat it, and in SAFE it must be that of
the DEAD pattern (R193). -/
def State.endSignature (h : Nat) (s : State) : State :=
  let u := s.stop.sigs.get {} (sigUnitOf h)
  let r := s.headRt h
  match List.find? (fun (e : Nat × Word) => decide (e.1 = h)) u.signing with
  | none => s
  | some e =>
    let v := signEnd e.2
    let compared := decide (r.state = .live) && r.begunLive && decide (r.cfg.ribbon ≠ 0)
    let stuck := compared && (u.last.find? h).any (fun w => decide (w = v))
    let wrong := decide (s.dev = .safe) && decide (s.emission h = .dead) && r.begunDead && decide (v ≠ deadSignature s.boot.palette h r.cfg)
    let s := s.modSig h (fun u => { u with signing := u.signing.erase h, last := if compared then u.last.put h v else u.last.erase h })
    let s := if stuck then s.fireSrc (168 + sigUnitOf h) h 0xFFFF else s
    if wrong then s.fireSrc 176 h 0xFFFF else s

/-- The markers of a head frame whose last band row is judged become the record of R281. -/
def State.frameEnd (h : Nat) (s : State) : State :=
  let pol : List PolicyEntry := s.stop.policy.get [] h
  { s with stop := { s.stop with
      marksLast := pol.foldl (fun m (p : PolicyEntry) => m.set [] p.window (s.stop.marksNow.get [] p.window)) s.stop.marksLast
      marksNow := pol.foldl (fun m (p : PolicyEntry) => m.set [] p.window []) s.stop.marksNow } }

/-- The lines of the latest band row have left (R192, R193, R205): those with the abort colour are counted, and all of them enter the
signatures, which end with the frame's last line. -/
def State.passLines (h : Nat) (s : State) : State :=
  let r := s.headRt h
  if r.lit.isEmpty then s
  else
    let s := if r.litAbort then s.count 0x05 h 2 r.lit.length else s
    let s := (s.modSig h (SigUnit.take h r.glassBand r.lit)).modHead h (fun x => { x with lit := [], litAbort := false })
    if r.glassBand + 1 = bandRows r.cfg then (s.endProbes h).endSignature h else s

/-- Heads whose latest lines have all had their time (log entry 117). -/
def State.linesPass (s : State) : State :=
  s.heads.foldl (fun s e =>
    let r := s.headRt e.1
    if headLineNs s.lay.dev.wallRate r.cfg r.lit.length ≤ 2 * (s.time.upTicks - r.litAt) then s.passLines e.1 else s) s

/-! ### A head frame begins (R52, R71, R199, R206, R207) -/

/-- The signatures of a head's new frame begin, and its probes take new settings (R192, R379). -/
def State.startSignatures (h : Nat) (s : State) : State :=
  s.modSig h (fun u =>
    let probe := fun (p : Probe) =>
      let p := match p.next with
        | some c => if c.head = h then { p with cfg := c, next := none, equalRun := 0 } else p
        | none => p
      if p.cfg.head = h && p.cfg.mode ≠ 0 then { p with acc := some (signStart h) } else if p.cfg.head = h then { p with acc := none } else p
    { u with
      signing := if u.armed = some h then u.signing.put h (signStart h) else u.signing.erase h
      armed := if u.armed = some h then none else u.armed
      probes := u.probes.map (fun e => (e.1, probe e.2)) })

/-- Whether the rehearsal of the head frame that ends has passed (R206). -/
def HeadRt.rehearsed (r : HeadRt) : Bool :=
  r.allInTime && decide (bandRows r.cfg ≤ r.emitted) &&
    (List.range (tileRows r.cfg)).all (fun k => hasNat (boundKey r.frame r.half k) r.boundRows)

/-- The head's state at a frame start (R52, R206, R207). -/
def State.headStateAtStart (h : Nat) (fresh : Bool) (s : State) : State :=
  let r := s.headRt h
  match r.state with
  | .down => if r.hpd && (fresh || r.hpdWasLow) && !s.isFenced h then s.headTrain h else s
  | .training => s
  | .starting =>
    if r.idle then s.modHead h (fun x => { x with idle := false })
    else if s.dev = .safe then s
    else if r.rehearsed then s.modHead h (fun x => { x with state := .live })
    else s.countHead h 4
  | .live => s
  | .aborted => s.modHead h (fun x => { x with state := .live })

/-- The head frame begins (R71, R199): its place, its attributes on the link (R203, R208, R214), and its pixel strobe (R201). -/
def State.beginFrame (h f half pos : Nat) (s : State) : State :=
  let r := s.headRt h
  let n := if r.linked && !r.idle then (r.n + 1) % 65536 else r.n
  let live := decide (r.state = .live)
  let dead := decide (s.emission h = .dead)
  let msa := if (s.emission h).draws then some (s.msaOf r.cfg) else none
  let s := if live then s.countHead h 0 else s
  (s.modHead h (fun x => { x with
    n := n, frame := f, half := half, startPos := some pos, begunLive := live, begunDead := dead, emitted := 0, allInTime := true, abortedNow := false
    fetched := x.fetched.filter (fun k => decide (2 * f + half ≤ k / 1024)), urgent := x.urgent.filter (fun k => decide (2 * f + half ≤ k / 1024))
    boundRows := x.boundRows.filter (fun k => decide (2 * f + half ≤ k / 128)), msa := msa })).strobeStart h

/-- Without the raster, in SAFE, a head goes on from frame to frame on its own timing (R69). -/
def State.ownFrame (h band : Nat) (s : State) : State :=
  let x := s.headRt h
  match x.startPos with
  | none => s
  | some pos =>
    if s.raster.run || decide (s.dev ≠ .safe) || decide (band ≠ 0) || !(decide (bandRows x.cfg ≤ x.emitted) || x.idle) then s
    else (((s.passLines h).headStateAtStart h false).beginFrame h x.frame x.half pos).startSignatures h

/-! ### BAND_ROW_EMIT -/

/-- Checker disagreements of a band row (R188): counted, and the unit's source fires for each. -/
def State.noteDisagree (h n : Nat) (s : State) : State :=
  if n = 0 then s
  else
    let u := stopUnitOf h
    let s := s.count 0x07 u 0 n
    let s := { s with stop := { s.stop with units := s.stop.units.modify {} u (fun x => { x with disagreed := true }) } }
    (List.range n).foldl (fun s _ => s.fireSrc (48 + u) (46 + u) 0xFFFF) s

/-- An underrun (R205): the head enters ABORTED and drops what it holds of the frame. -/
def State.underrun (h : Nat) (s : State) : State :=
  let x := s.headRt h
  let rest := x.fetched.filter (fun k => decide (k / 1024 ≠ 2 * x.frame + x.half))
  (s.modHead h (fun y => { y with state := .aborted, abortedNow := true, fetched := rest, urgent := [] })).countHead h 1

/-- A band row reaches its deadline in time: it is judged if the head is in STARTING or LIVE (R175, R206). -/
def State.judgeBand (h band : Nat) (o : BandObs) (s : State) : List Judged :=
  let x := s.headRt h
  (List.range (tileCols x.cfg)).map (fun col => s.judgeAt (s.stop.policy.get [] h) h (band / 8) col x.frame x.half (band % 8) o)

/-- The lines of a band row as the head is to send them (R53, R205, R207). -/
def State.emitLines (h band : Nat) (vs : List TileView) (s : State) : State :=
  let x := s.headRt h
  let e := s.emission h
  let lines := emittedBand s.boot.palette h x s.stop.captions vs e band
  s.modHead h (fun y => { y with glassBand := band, lit := lines, litAt := s.time.upTicks, litAbort := decide (e = .abort) })

/-- Line buffer errors are counted, and one that is not correctable is a fault of the head (R205, R213). -/
def State.lineBuffer (h : Nat) (o : BandObs) (s : State) : State :=
  let s := s.count 0x05 h 11 o.lbufCorrected
  if o.lbufErrors.isEmpty then s else (s.count 0x05 h 12 o.lbufErrors.length).fireSrc h 0xFFFF h

/-- Whether band row `band` is the next that the head sends. -/
def State.bandDue (s : State) (h band : Nat) : Bool :=
  let x := s.headRt h
  x.startPos.isSome && decide (band = x.emitted) && decide (band < bandRows x.cfg) && (s.emission h).draws

/-- The head's next band row is judged, if it is in the line buffer, and its lines leave next (R175 to R189, R204, R205). -/
def State.sendBand (h band : Nat) (o : BandObs) (s : State) : State :=
  let x := s.headRt h
  let key := bandKey x.frame x.half band
  let inTime := hasNat key x.fetched
  let judges := inTime && (decide (s.emission h = .live) || decide (s.emission h = .starting))
  let s := if !inTime && decide (x.state = .live) then s.underrun h else s
  let s := if !inTime then s.modHead h (fun y => { y with allInTime := false }) else s
  let vs := if judges then s.judgeBand h band o else []
  let s := if judges then s.recordBand h band (s.stop.policy.get [] h) vs else s
  let s := s.emitLines h band (vs.map (fun v => v.view))
  let s := s.modHead h (fun y => { y with emitted := band + 1, fetched := removeNat key y.fetched, urgent := removeNat key y.urgent })
  let s := if band + 1 = bandRows x.cfg then s.frameEnd h else s
  let s := s.noteDisagree h (vs.filter (fun v => v.disagree)).length
  if inTime then s.lineBuffer h o else s

/-- BAND_ROW_EMIT (R175 to R189, R204, R205): the deadline of band row `band`. The lines of the one before have left. -/
def State.bandEmit (h band : Nat) (o : BandObs) (s : State) : State :=
  let s := s.ownFrame h band
  if !s.bandDue h band then s
  else
    let s := s.passLines h
    if !s.bandDue h band then s else s.sendBand h band o

/-! ### The rows -/

/-- BAND_ROW_FETCH_DONE. -/
def execBandRowFetchDone (dt : Nat) (head band : Nat) (s : State) : Host.Outcome State Fault Refusal := .next ((s.advance dt).bandFetched head band)

/-- FETCH_URGENT. -/
def execFetchUrgent (dt : Nat) (head band : Nat) (s : State) : Host.Outcome State Fault Refusal := .next ((s.advance dt).fetchUrgent head band)

/-- BAND_ROW_EMIT. -/
def execBandRowEmit (dt : Nat) (head band : Nat) (obs : BandObs) (s : State) : Host.Outcome State Fault Refusal :=
  .next ((s.advance dt).bandEmit head band obs)

end Sys2Proof.Machine
end

