-- ==== Sys2Proof/Machine/Encoding.lean ====
section
/-! DEFINITION. The encoders: pictures and what they read (R234 to R240), rate control (R241 to R245), encode seals (R246),
packets and their launch (R247 to R249), and restarts (R250). -/

namespace Sys2Proof.Machine

open Sys2Proof

/-! ### Rows, columns and budgets (R239, R241) -/

/-- The budget B of a picture; `e` is the bucket E in 1/600,000 bit (R241). -/
def encBudget (rate : Nat) (c : EncoderCfg) (e : Nat) : Nat :=
  if c.rc = 0 then ratePerPicture rate c c.rate
  else min (ratePerPicture rate c c.maxRate) ((c.hrdBits * 600000 + perPicture rate c c.rate - e) / 4800000)

/-- The bucket after a picture of `size` bytes (R241). -/
def bucketAfter (rate : Nat) (c : EncoderCfg) (e size : Nat) : Nat := e + 4800000 * size - perPicture rate c c.rate

/-- The columns that picture `k` of a cycle intra-codes; none while the cycle's end is put off (R239, R245, R252). -/
def refreshCols (c : EncoderCfg) (k : Nat) : List Nat :=
  (List.range (encCols c)).filter (fun x => decide (k * encCols c / c.refreshN ≤ x) && decide (x < (k + 1) * encCols c / c.refreshN))

/-- The least number between `lo` and `lo + w` whose sixth power times `den` is at least `num`, by halving `w`. -/
def rootUp (num den : Nat) : Nat → Nat → Nat → Nat
  | 0, lo, w => lo + w
  | n + 1, lo, w =>
    let m := lo + w / 2
    if num ≤ m ^ 6 * den then rootUp num den n lo (w / 2) else if w = 0 then lo else rootUp num den n (m + 1) (w - w / 2 - 1)

/-- ⌈size × 2^(d ÷ 6)⌉, at least the skip size: the floor estimate of a row (R243). -/
def floorEstimate (c : EncoderCfg) (size : Nat) (qp : Int) : Nat :=
  let d := qp - c.qpMax
  let up := 2 ^ d.toNat
  let top := size * 2 ^ ((d.toNat + 5) / 6)
  max (skipSize c) (rootUp (size ^ 6 * up) (2 ^ (-d).toNat) (top.log2 + 2) 0 top)

/-- The sum of the floor estimates of the rows from `r` on (R243). -/
def floorSum (c : EncoderCfg) (prev : List (Nat × Int)) (r : Nat) : Nat :=
  ((List.range (encRows c)).filter (fun j => decide (r ≤ j))).foldl (fun a j =>
    let p := prev.getD j (0, 0)
    a + floorEstimate c p.1 p.2) 0

/-! ### Picture times (R236, R247, R248) -/

/-- The wall line at which pictures start: ENC_START_LINE, or the bind line of the first tile row of region 0 (R232). -/
def encStartLine (l : Layout) (c : EncoderCfg) : Nat :=
  if c.startLine ≠ 0xFFFF then c.startLine
  else
    let g := c.regions.getD 0 {}
    (rowBindPos (l.head g.head) 0 0 (g.y / 64) % 4096).toNat

/-- The wall time in ns at which a picture starts. -/
def EncPic.startNs (p : EncPic) : Nat := lineStartNs p.rate (p.start / 4096) (p.start % 4096)

/-- The launch time in ns of packet `i` of `m` of row `r`: L0 + r × Δ + i × Δ ÷ m, rounded up to whole ns (R248). -/
def launchAt (c : EncoderCfg) (p : EncPic) (r i m : Nat) : Nat :=
  let hz := wallRateHz p.rate
  let den := 4096 * hz.1 * encRows c * m
  let num := p.start * 1000000000 * hz.2 * encRows c * m + 4096 * c.div * 1000000000 * hz.2 * ((1 + r) * m + i)
  (num + (den - 1)) / den

/-- The RTP timestamp of a picture: the floor of its exact start in the active domain at 90 kHz (R247). -/
def State.rtpStamp (s : State) (p : EncPic) : Nat :=
  let hz := wallRateHz p.rate
  let num : Int := ((p.start * 1000000000 * hz.2 * nsUnit : Nat) : Int) + s.time.resid * (4096 * hz.1 : Nat)
  ((num * 9 / (((4096 * hz.1 * nsUnit : Nat) : Int) * 100000)) % 4294967296).toNat

/-! ### What the encoder reads (R235 to R237) -/

/-- The head frames whose bind of a row may be the first at or after wall position `p`, earliest first. -/
def State.frameChoices (s : State) (h p : Nat) : List (Nat × Nat) :=
  [p / 4096 - 1, p / 4096, p / 4096 + 1, p / 4096 + 2].foldl (fun a f => a ++ (halves ((s.layoutFor f).head h)).map (fun x => (f, x))) []

/-- The first head frame of head `h` whose bind of tile row `row` falls at or after wall position `p` (R236). -/
def State.encFrame (s : State) (h row p : Nat) : Option (Nat × Nat) :=
  List.find? (fun (g : Nat × Nat) => decide ((p : Int) ≤ rowBindPos ((s.layoutFor g.1).head h) g.1 g.2 row)) (s.frameChoices h p)

/-- Where the raster stands to the window in which tile row `row` of head `h` is read for a picture that started at `p`: before its bind,
in the window, or after the end of the row's emission (R236). -/
inductive ReadWindow where
  | early | open_ | late
  deriving DecidableEq, Repr

/-- The read window of a tile row. -/
def State.encWindow (s : State) (h row p : Nat) : ReadWindow :=
  match s.encFrame h row p with
  | none => .late
  | some g =>
    let c := (s.layoutFor g.1).head h
    if (s.raster.pos : Int) < rowBindPos c g.1 g.2 row then .early
    else if (s.raster.pos : Int) ≤ pointPos c g.1 g.2 ((blankBefore c + min (64 * row + 64) c.vActive : Nat) : Int) then .open_ else .late

/-- Whether tile row `row` of head `h` is bound now for the head frame that a picture which started at `p` reads (R236). -/
def State.encReadable (s : State) (h row p : Nat) : Bool :=
  match s.encFrame h row p with
  | none => false
  | some g =>
    let r := s.row (rowKey h row)
    r.bound && decide ((r.frame, r.half) = g) && decide (s.encWindow h row p = .open_)

/-- The eight band verdicts of one tile, in order: a band that fails its check fails the rest of the tile (R176, R177, R237). -/
def State.encTile (s : State) (pol : List PolicyEntry) (h row col f half : Nat) : List TileView :=
  let k := rowKey h row
  let r := s.row k
  match r.committed col with
  | none => List.replicate 8 {}
  | some t =>
    if tprFails pol h row col f half t.tpr then List.replicate 8 {}
    else
      let bad := (List.range 8).findIdx (fun b => bandFails k (r.commitSlot col) (s.ringGen h f) col f h false t b)
      (List.range 8).map (fun b => if bad ≤ b then {} else viewOf { marks := t.tpr.contribs.map (judgeEntry exceedsP pol s.wallNs s.lastAdvance) } t (bandOf false t b))

/-- A head pixel as the encoder sees it: with its patterns, and whether it took a marker (R237). -/
def encPixel (pal : List Nat) (n : Nat) (tiles : List (List TileView)) (x y : Nat) : Rgb × Bool :=
  let v := (tiles.getD (x / 64) []).getD (y / 8 % 8) {}
  let w := (v.band.getD (y % 8) []).getD (x % 64) 0#32
  (markPixel pal n x y (v.setOf w) (colourOf w), !(v.setOf w).isEmpty)

/-- A mean rounded to nearest (R235). -/
def meanOf (vs : List Nat) : Nat := (2 * vs.foldl (fun a v => a + v) 0 + vs.length) / (2 * vs.length)

/-- One output pixel of a region: the mean of its input pixels, marked if any of them is (R235). -/
def blockMean (ps : List (Rgb × Bool)) : Rgb × Bool :=
  ((meanOf (ps.map (fun p => p.1.1)), meanOf (ps.map (fun p => p.1.2.1)), meanOf (ps.map (fun p => p.1.2.2))), ps.any (fun p => p.2))

/-- The part of the picture that region `g` draws from tile row `row`, with `f` giving the head's pixels (R235). -/
def regionPart (g : RegionCfg) (row : Nat) (f : Nat → Nat → Rgb × Bool) : EncPart :=
  let q := 2 ^ g.scale
  let top := max g.y (64 * row)
  let bottom := min (g.y + g.h) (64 * row + 64)
  { x := g.px, y := g.py + (top - g.y) / q
    lines := (List.range ((bottom - top) / q)).map (fun j => (List.range (g.w / q)).map (fun i =>
      blockMean ((List.range q).foldl (fun a v => a ++ (List.range q).map (fun u => f (g.x + q * i + u) (top + q * j + v))) []))) }

/-- Whether a region covers tile row `row`. -/
def regionHasRow (g : RegionCfg) (row : Nat) : Bool := g.enable && decide (g.y < 64 * row + 64) && decide (64 * row < g.y + g.h)

/-- The earliest capture time that tiles name, other than the background and NO_SEAL entries (R246). -/
def earliest (a : Option Nat) (tiles : List (List TileView)) : Option Nat :=
  tiles.foldl (fun a t => t.foldl (fun a v => v.contribs.foldl (fun (a : Option Nat) (c : Contrib) =>
    if c.background || c.noSeal then a else match a with | none => some c.capture | some m => some (min m c.capture)) a) a) a

/-- A tile row enters the picture: judged, or in the UNVERIFIED colour when it was not read in its window (R236, R237). -/
def State.encTake (c i row : Nat) (read : Bool) (s : State) : State :=
  let r := s.encRt c
  match r.pic with
  | none => s
  | some p =>
    let g := r.cfg.regions.getD i {}
    let fr := (s.encFrame g.head row p.start).getD (0, 0)
    let pol := policyOf (s.layoutFor fr.1) g.head
    let tiles := if read then (List.range (tileCols ((s.layoutFor fr.1).head g.head))).map (fun col => s.encTile pol g.head row col fr.1 fr.2) else []
    let part := regionPart g row (if read then encPixel s.boot.palette (r.picCount % 65536) tiles
      else fun _ _ => (paletteAt s.boot.palette 5, true))
    let p := { p with tilesRead := p.tilesRead ++ [(i, row)], parts := p.parts ++ [part], minCapture := earliest p.minCapture tiles }
    let s := s.modEnc c (fun r => { r with pic := some p })
    if read then s else s.count 0x0B c 5 1

/-- ENC_TILE_ROW_READ (R236, R237, R302): the encoder reads and judges a tile row for region `i`. -/
def State.encRead (c i row : Nat) (readOk : Bool) (s : State) : State :=
  let r := s.encRt c
  match r.pic with
  | none => s
  | some p =>
    let g := r.cfg.regions.getD i {}
    if !s.writersRun || p.idr || !regionHasRow g row || p.tilesRead.any (fun e => decide (e = (i, row))) || decide (s.encWindow g.head row p.start = .early) then s
    else s.encTake c i row (readOk && s.encReadable g.head row p.start)

/-- The tile rows that regions draw into CTU row `r` of the picture: region and tile row. -/
def rowNeeds (c : EncoderCfg) (r : Nat) : List (Nat × Nat) :=
  (List.range c.regions.length).foldl (fun a i =>
    let g := c.regions.getD i {}
    let q := 2 ^ g.scale
    a ++ ((List.range ((g.y + g.h + 63) / 64)).filter (fun row =>
      let top := max g.y (64 * row)
      let y := g.py + (top - g.y) / q
      regionHasRow g row && decide (y < ctuSide c * (r + 1)) && decide (ctuSide c * r < y + (min (g.y + g.h) (64 * row + 64) - top) / q))).map (fun row => (i, row))) []

/-- Tile rows of CTU row `r` that have not been read. -/
def EncPic.unread (c : EncoderCfg) (r : Nat) (p : EncPic) : List (Nat × Nat) :=
  (rowNeeds c r).filter (fun e => !p.tilesRead.any (fun x => decide (x = e)))

/-- Tile rows of the row in hand whose window has passed unread enter the picture in the UNVERIFIED colour (R236). -/
def State.encMissed (c : Nat) (s : State) : State :=
  let r := s.encRt c
  match r.pic with
  | none => s
  | some p =>
    if p.idr then s
    else ((p.unread r.cfg p.row).filter (fun e => decide (s.encWindow (r.cfg.regions.getD e.1 {}).head e.2 p.start = .late))).foldl
      (fun s e => s.encTake c e.1 e.2 false) s

/-! ### The order of rows on an engine (R233) -/

/-- Whether the next row of a context can be coded: a stream start, a skip-only row, or one whose tile rows have all been read or
missed. -/
def State.rowReady (s : State) (c : Nat) : Bool :=
  let r := s.encRt c
  match r.pic with
  | none => false
  | some p => p.idr || p.skipAll || (p.unread r.cfg p.row).all (fun e => decide (s.encWindow (r.cfg.regions.getD e.1 {}).head e.2 p.start = .late))

/-- The context whose row engine `e` is coding. -/
def State.codingOn (s : State) (e : Nat) : Option Nat :=
  let n := s.enc.coding.get 0 e
  if n = 0 || decide ((s.encRt (n - 1)).engine ≠ some e) || (s.encRt (n - 1)).pic.isNone then none else some (n - 1)

/-- When the launch slot of a context's next row begins. -/
def State.slotOf (s : State) (c : Nat) : Nat :=
  let r := s.encRt c
  match r.pic with
  | none => 0
  | some p => launchAt r.cfg p p.row 0 1

/-- The first of a list of contexts by slot, ties to the lower. -/
def State.firstSlot (s : State) (cs : List Nat) : Option Nat :=
  cs.foldl (fun b c => match b with
    | none => some c
    | some x => if s.slotOf c < s.slotOf x then some c else some x) none

/-- An engine that codes no row takes, of the rows that are ready, the one whose launch slot begins first (R233). -/
def State.encTurn (e : Nat) (s : State) : State :=
  match s.codingOn e with
  | some _ => s
  | none => match s.firstSlot ((s.enc.ctxs.map (fun x => x.1)).filter (fun c => decide ((s.encRt c).engine = some e) && s.rowReady c)) with
    | none => s
    | some c => { s with enc := { s.enc with coding := s.enc.coding.set 0 e (c + 1) } }

/-- Every engine that codes no row takes one. -/
def State.encTurns (s : State) : State := (List.range 4).foldl (fun s e => s.encTurn e) s

/-- The engine of context `c` has coded its row, or abandoned it. -/
def State.encFree (c : Nat) (s : State) : State :=
  (List.range 4).foldl (fun s e => if s.codingOn e = some c then { s with enc := { s.enc with coding := s.enc.coding.set 0 e 0 } } else s) s

/-! ### The samples that rows code (R237, R238) -/

/-- The picture's pixel at (x, y): of the region that covers it, or the fill colour. -/
def EncPic.pixel (p : EncPic) (c : EncoderCfg) (x y : Nat) : Rgb × Bool :=
  match List.find? (fun (q : EncPart) => decide (q.x ≤ x) && decide (x < q.x + (q.lines.getD 0 []).length) && decide (q.y ≤ y) && decide (y < q.y + q.lines.length)) p.parts with
  | none => (rgbOfWord c.fill, false)
  | some q => (q.lines.getD (y - q.y) []).getD (x - q.x) (rgbOfWord c.fill, false)

/-- Luma weights of red, green and blue in 1/10,000 (log entry 10). -/
def lumaWeights (matrix : Nat) : Int × Int × Int := if matrix = 0 then (2126, 7152, 722) else (2627, 6780, 593)

/-- Ten thousand times the luma of a sum of pixels. -/
def lumaSum (matrix : Nat) (c : Rgb) : Int :=
  let k := lumaWeights matrix
  k.1 * c.1 + k.2.1 * c.2.1 + k.2.2 * c.2.2

/-- A quotient rounded to nearest. -/
def nearest (num den : Int) : Nat := ((2 * num + den) / (2 * den)).toNat

/-- A limited-range sample: offset + scale × num ÷ den, in 8 or 10 bits (R237). -/
def sampleOf (ten : Bool) (offset scale num den : Int) : Nat :=
  if ten then nearest (offset * den + scale * num) den else nearest (offset * den + scale * num) (4 * den)

/-- The luma sample of a pixel. -/
def lumaSample (ten : Bool) (matrix : Nat) (c : Rgb) : Nat := sampleOf ten 64 876 (lumaSum matrix c) 10230000

/-- The chroma samples of the sum of four pixels. -/
def chromaSamples (ten : Bool) (matrix : Nat) (c : Rgb) : Nat × Nat :=
  let k := lumaWeights matrix
  let y := lumaSum matrix c
  (sampleOf ten 512 448 (10000 * (c.2.2 : Int) - y) (4092 * (10000 - k.2.2)), sampleOf ten 512 448 (10000 * (c.1 : Int) - y) (4092 * (10000 - k.1)))

/-- The sum of two pixels. -/
def addRgb (a b : Rgb) : Rgb := (a.1 + b.1, a.2.1 + b.2.1, a.2.2 + b.2.2)

/-- Picture lines of CTU row `r`. -/
def rowLines (c : EncoderCfg) (r : Nat) : List Nat := (List.range (min (ctuSide c) (c.height - ctuSide c * r))).map (fun i => ctuSide c * r + i)

/-- The samples of a CTU row enter the picture's sample planes: the regions' pixels, or the flat picture of a stream start. -/
def EncPic.takeRow (c : EncoderCfg) (r : Nat) (p : EncPic) : EncPic :=
  let ten := decide (c.codec = 1)
  let flat := if ten then 512 else 128
  let ys := if p.idr then List.range c.height else rowLines c r
  let even := ys.filter (fun y => decide (y % 2 = 0))
  let quad := fun (x y : Nat) => addRgb (addRgb (p.pixel c (2 * x) y).1 (p.pixel c (2 * x + 1) y).1) (addRgb (p.pixel c (2 * x) (y + 1)).1 (p.pixel c (2 * x + 1) (y + 1)).1)
  { p with
    luma := p.luma ++ ys.map (fun y => (List.range c.width).map (fun x => if p.idr then flat else lumaSample ten c.matrix (p.pixel c x y).1))
    cb := p.cb ++ even.map (fun y => (List.range (c.width / 2)).map (fun x => if p.idr then flat else (chromaSamples ten c.matrix (quad x y)).1))
    cr := p.cr ++ even.map (fun y => (List.range (c.width / 2)).map (fun x => if p.idr then flat else (chromaSamples ten c.matrix (quad x y)).2)) }

/-- Picture pixels that took a marker (R246). -/
def EncPic.marked (p : EncPic) : Nat := p.parts.foldl (fun a q => q.lines.foldl (fun a l => a + (l.filter (fun x => x.2)).length) a) 0

/-! ### NAL units (R238 to R240, R242, R246; the standards' syntax is log entry 10) -/

/-- A NAL unit header, by the types of H.265 and H.264; in H.264 with its nal_ref_idc. -/
def nalHeader (c : EncoderCfg) (hevc avc : Nat) : List Byte :=
  if c.codec = 2 then [BitVec.ofNat 8 avc] else [BitVec.ofNat 8 (2 * hevc), 1#8]

/-- Emulation prevention: after two zero bytes a byte up to 3 is preceded by 3. -/
def escapeNal : Nat → List Byte → List Byte
  | _, [] => []
  | z, b :: t =>
    if decide (2 ≤ z) && decide (b.toNat ≤ 3) then 3#8 :: b :: escapeNal (if b = 0#8 then 1 else 0) t
    else b :: escapeNal (if b = 0#8 then z + 1 else 0) t

/-- The low `n` bits of a number, most significant first. -/
def bitsMsb : Nat → Nat → List Bool
  | 0, _ => []
  | n + 1, v => v.testBit n :: bitsMsb n v

/-- An unsigned Exp-Golomb code. -/
def expGolomb (v : Nat) : List Bool := List.replicate (v + 1).log2 false ++ bitsMsb ((v + 1).log2 + 1) (v + 1)

/-- Bits as bytes, most significant first; the last byte is filled with a one and zeros unless it is full. The fuel is their number. -/
def packMsb : Nat → List Bool → List Byte
  | 0, _ => []
  | n + 1, bs =>
    if bs.isEmpty then []
    else
      let b := if bs.length < 8 then bs ++ true :: List.replicate (7 - bs.length) false else bs.take 8
      BitVec.ofNat 8 (b.foldl (fun a x => 2 * a + (if x then 1 else 0)) 0) :: packMsb n (bs.drop 8)

/-- An SEI NAL unit with one message. -/
def seiNal (c : EncoderCfg) (type : Nat) (payload : List Byte) : List Byte :=
  nalHeader c 39 0x06 ++ escapeNal 0 ([BitVec.ofNat 8 type, BitVec.ofNat 8 payload.length] ++ payload ++ [0x80#8])

/-- The recovery point SEI of a cycle: recovery count ENC_REFRESH_N − 1, exact_match_flag 1, broken_link_flag 0 (R240). -/
def recoverySei (c : EncoderCfg) : List Byte :=
  let n := c.refreshN - 1
  let bits := if c.codec = 2 then expGolomb n ++ [true, false, false, false] else expGolomb (if n = 0 then 0 else 2 * n - 1) ++ [true, false]
  seiNal c 6 (packMsb bits.length bits)

/-- The UUID of the provenance SEI (R240). -/
def provenanceUuid : List Byte :=
  [0x7A#8, 0x2C#8, 0x91#8, 0xE4#8, 0x0B#8, 0x66#8, 0x4D#8, 0x18#8, 0xA3#8, 0xF0#8, 0x5C#8, 0x2E#8, 0x8D#8, 0x71#8, 0xB0#8, 0x94#8]

/-- The provenance SEI: the encode seal of the previous picture, or zeros on the stream's first two pictures (R240, R246). -/
def provenanceSei (r : EncRt) : List Byte :=
  seiNal r.cfg 5 (provenanceUuid ++ (match r.seals with
    | x :: _ => if r.streamPics < 2 then zeroBytes 64 else sealBytes x
    | [] => zeroBytes 64))

/-- The parameter set NAL units: VPS, SPS and PPS, or SPS and PPS (R240). -/
def paramNals (c : EncoderCfg) (ps : List (List Byte)) : List (List Byte) :=
  let hs := if c.codec = 2 then [nalHeader c 0 0x67, nalHeader c 0 0x68] else [nalHeader c 32 0, nalHeader c 33 0, nalHeader c 34 0]
  hs.mapIdx (fun i h => h ++ ps.getD i [])

/-- The NAL units before the slices of a picture's first row: parameter sets with a stream's IDR and each cycle's first picture, which
also has a recovery point SEI, and the provenance SEI with every picture (R238, R240). -/
def headNals (r : EncRt) (p : EncPic) (o : RowObs) : List (List Byte) :=
  if p.row ≠ 0 then []
  else
    (if p.idr || decide (r.k = 0) then paramNals r.cfg o.params else []) ++ (if !p.idr && decide (r.k = 0) then [recoverySei r.cfg] else []) ++
      [provenanceSei r]

/-- The slice segments of a row: one, or one for each row of a stream's flat IDR picture, IDR_N_LP or nal_unit_type 5; every other slice
is of a P picture (R238, R240). A skip-only row never exceeds its skip size (R241). -/
def sliceNals (c : EncoderCfg) (p : EncPic) (o : RowObs) (skip : Bool) : List (List Byte) :=
  let h := if p.idr then nalHeader c 20 0x65 else nalHeader c 1 0x41
  (List.range (if p.idr then encRows c else 1)).map (fun i =>
    let n := h ++ o.slices.getD i []
    if skip then n.take (skipSize c) else n)

/-! ### Packets (R247, R248) -/

/-- The chunks of a list, `n` to each. The fuel is its length. -/
def chunks {α : Type} (n : Nat) : Nat → List α → List (List α)
  | 0, _ => []
  | k + 1, l => if l.isEmpty then [] else l.take n :: chunks n k (l.drop n)

/-- One of `m` fragments of a NAL unit: FU header, with the payload header of type 49 or the FU indicator of type 28 (R247). -/
def fragmentOf (c : EncoderCfg) (n : List Byte) (m i : Nat) (body : List Byte) : List Byte :=
  let b := (n.getD 0 0#8).toNat
  let se := (if i = 0 then 128 else 0) + (if i + 1 = m then 64 else 0)
  if c.codec = 2 then [BitVec.ofNat 8 (b / 32 * 32 + 28), BitVec.ofNat 8 (se + b % 32)] ++ body
  else [BitVec.ofNat 8 (b / 128 * 128 + 98 + b % 2), n.getD 1 0#8, BitVec.ofNat 8 (se + b / 2 % 64)] ++ body

/-- RTP payloads of a NAL unit: one packet if it fits, otherwise fragmentation units (R247). -/
def nalPackets (c : EncoderCfg) (n : List Byte) : List (List Byte) :=
  if n.length ≤ c.mtu then [n]
  else
    let hdr := if c.codec = 2 then 1 else 2
    let bs := chunks (c.mtu - hdr - 1) n.length (n.drop hdr)
    bs.mapIdx (fun i b => fragmentOf c n bs.length i b)

/-- An aggregation packet, type 48, or a STAP-A with the highest nal_ref_idc of its units (R247). -/
def aggregate (c : EncoderCfg) (ns : List (List Byte)) : List Byte :=
  (if c.codec = 2 then [BitVec.ofNat 8 ((ns.map (fun n => (n.getD 0 0#8).toNat / 32 * 32)).foldl max 0 + 24)] else [0x60#8, 1#8]) ++
    ns.flatMap (fun n => [BitVec.ofNat 8 (n.length / 256), BitVec.ofNat 8 n.length] ++ n)

/-- RTP payloads of the parameter sets and SEI of a picture: one aggregation packet where they fit (R247). -/
def headPackets (c : EncoderCfg) (ns : List (List Byte)) : List (List Byte) :=
  if 2 ≤ ns.length && decide ((aggregate c ns).length ≤ c.mtu) then [aggregate c ns] else ns.flatMap (nalPackets c)

/-- A filler data NAL unit of `n` bytes (R242). -/
def fillerNal (c : EncoderCfg) (n : Nat) : List Byte :=
  let hdr := nalHeader c 38 0x0C
  hdr ++ List.replicate (n - hdr.length - 1) 0xFF#8 ++ [0x80#8]

/-- A NAL unit with its 4-byte start code (R246). -/
def startCoded (n : List Byte) : List Byte := [0#8, 0#8, 0#8, 1#8] ++ n

/-- The low `n` bytes of a number in network order. -/
def netBytes (n v : Nat) : List Byte := (leBytes n v).reverse

/-- A packet from its RTP header on (R247). -/
def LaunchEntry.rtp (e : LaunchEntry) : List Byte :=
  [0x80#8, BitVec.ofNat 8 ((if e.marker then 128 else 0) + e.pt)] ++ netBytes 2 e.rtpSeq ++ netBytes 4 e.rtpTs ++ netBytes 4 e.ssrc ++ e.payload

/-- Bytes on the wire of a packet: Ethernet, IP, UDP and RTP headers, and the frame check (log entry 10). -/
def wireBytes (c : EncoderCfg) (second : Bool) (payload : Nat) : Nat :=
  payload + 38 + (if isIpv4 (if second then c.dstAddr2 else c.dstAddr) then 20 else 40) + (if c.vlan = 0xFFFF then 0 else 4)

/-- Insert a packet by launch time; of two for one time, that of the lower context goes first (R252). -/
def insertLaunch (e : LaunchEntry) : List LaunchEntry → List LaunchEntry
  | [] => [e]
  | f :: t => if e.at_ < f.at_ || (e.at_ = f.at_ && e.ctx < f.ctx) then e :: f :: t else f :: insertLaunch e t

/-- Queue a packet on a MAC, or drop it when the queue of 4,096 entries is full (R249). -/
def State.queuePacket (m : Nat) (e : LaunchEntry) (s : State) : State :=
  let q : List LaunchEntry := s.enc.queues.get [] m
  if 4096 ≤ q.length then s.count 0x0B e.ctx 9 1
  else { s with enc := { s.enc with queues := s.enc.queues.set [] m (insertLaunch e q) } }

/-- The addressing of a context's packets on a path (R232, R248). -/
def packetTo (c : EncoderCfg) (second : Bool) : Addressing :=
  { dst := if second then c.dstAddr2 else c.dstAddr, dstPort := c.dstPort, srcPort := c.srcPort, vlan := c.vlan, dscp := c.dscp, ttl := c.ttl }

/-- Queue packet `i` of the `ns.length` packets of row `r` on the context's MACs (R247, R248). -/
def State.queueOne (c r : Nat) (p : EncPic) (ns : List (List Byte)) (last : Bool) (i : Nat) (s : State) : State :=
  let x := s.encRt c
  let n := ns.getD i []
  let e : LaunchEntry := { ctx := c, at_ := launchAt x.cfg p r i ns.length, payload := n, len := wireBytes x.cfg false n.length, rtpSeq := x.rtpSeq,
                           rtpTs := s.rtpStamp p, marker := last && decide (i + 1 = ns.length), pt := x.cfg.pt, ssrc := x.cfg.ssrc, addr := packetTo x.cfg false, queuedAt := s.wallNs }
  let s := s.queuePacket x.cfg.mac e
  let s := if x.cfg.mac2 < 8 then s.queuePacket x.cfg.mac2 { e with second := true, len := wireBytes x.cfg true n.length, addr := packetTo x.cfg true } else s
  s.modEnc c (fun x => { x with rtpSeq := (x.rtpSeq + 1) % 65536 })

/-! ### Encode seals (R246) -/

/-- The seal of a picture whose last row has been coded (R246). -/
def State.encSealOf (s : State) (c : Nat) (p : EncPic) : Seal :=
  let r := s.encRt c
  let q := r.nextSeq.getD (s.raster.frame % 4294967296)
  { source := 1024 + c, concealed := decide (0 < p.marked), part := p.idr || !p.skipped.isEmpty, captSrc := 4, seq := q,
    capture := p.minCapture.getD p.startNs, arrival := p.startNs, sealTime := s.wallNs, payloadCrc := foldCrc 0 q (1024 + c) p.bytes,
    width := r.cfg.width, height := r.cfg.height, format := if r.cfg.codec = 1 then 2 else 1,
    fraction := (255 * p.marked + (r.cfg.width * r.cfg.height - 1)) / (r.cfg.width * r.cfg.height), origin := c, cls := r.cfg.cls }

/-- The refresh that skip-only rows leave for the next picture (R245). -/
def carryOf (c : EncoderCfg) (k : Nat) (p : EncPic) : List (Nat × Nat) :=
  if p.idr then []
  else p.skipped.foldl (fun a r => a ++ (refreshCols c k).map (fun x => (r, x)) ++ p.intra.filter (fun e => decide (e.1 = r))) []

/-- The refresh position and the cycle's delay after a picture at `k`: each carry puts the end of the cycle off by one picture (R239, R245,
R252). -/
def nextK (c : EncoderCfg) (k delay : Nat) (carry : Bool) : Nat × Nat :=
  let d := delay + (if carry then 1 else 0)
  if k + 1 < c.refreshN then (k + 1, d) else if d = 0 then (0, 0) else (c.refreshN, d - 1)

/-- A context that a set disables is IDLE (R234); its seals stay. -/
def State.encIdle (c : Nat) (s : State) : State := s.modEnc c (fun r => { seals := r.seals, rtpSeq := r.rtpSeq })

/-- A context between two pictures that a set has disabled becomes IDLE (R83, R234). -/
def State.encSettle (c : Nat) (s : State) : State :=
  if (s.lay.encoders.get {} c).enable || (s.encRt c).pic.isSome then s else s.encIdle c

/-- The last row of a picture is coded: its encode seal, and the state of the stream after it (R234, R238, R246). -/
def State.encSeal (c : Nat) (s : State) : State :=
  let r := s.encRt c
  match r.pic with
  | none => s
  | some p =>
    let x := s.encSealOf c p
    let carry := carryOf r.cfg r.k p
    let k := if p.idr then (0, 0) else nextK r.cfg r.k r.delay (!carry.isEmpty)
    let s := s.modEnc c (fun r => { r with
      state := .running, pic := none, k := k.1, delay := k.2, carried := carry, prevRows := p.sizes, picCount := r.picCount + 1, streamPics := r.streamPics + 1
      bucket := bucketAfter p.rate r.cfg r.bucket p.spent, nextSeq := some ((x.seq + 1) % 4294967296), seals := (x :: r.seals).take 8 })
    let s := s.count 0x0B c 0 1
    (if carry.isEmpty then s else s.count 0x0B c 4 1).encSettle c

/-! ### Rows (R241 to R245) -/

/-- The rows that a picture's completion needs: a stream start's picture is coded in the first slot (R238). -/
def EncPic.rows (c : EncoderCfg) (p : EncPic) : Nat := if p.idr then 1 else encRows c

/-- The filler that ends a row in CBR, or 0 (R241, R242). -/
def fillerSize (c : EncoderCfg) (p : EncPic) (size : Nat) : Nat :=
  let rows := p.rows c
  let goal := if p.row + 1 = rows then p.budget else if p.floor then 0 else (p.row + 1) * p.budget / rows
  let short := goal - (p.spent + size)
  if c.rc = 0 && decide (3 ≤ short) then short else 0

/-- Bytes of NAL units. -/
def nalBytes (ns : List (List Byte)) : Nat := ns.foldl (fun a n => a + n.length) 0

/-- The QP of a row: rate control's choice within the limits, and ENC_QP_MAX in floor mode (R242, R243). -/
def rowQp (c : EncoderCfg) (p : EncPic) (o : RowObs) : Int := if p.floor then c.qpMax else max c.qpMin (min o.qp c.qpMax)

/-- Whether the skip prediction of the CTU in column `x` of row `r` differs from its input by a mean of at most 16 in 8-bit units (R243). -/
def skipFits (c : EncoderCfg) (r : Nat) (o : RowObs) (x : Nat) : Bool :=
  decide (o.sad.getD x 0 ≤ 16 * (if c.codec = 1 then 4 else 1) * (min (ctuSide c) (c.width - ctuSide c * x) * (rowLines c r).length))

/-- How the CTUs of the row in hand are coded (R239, R243, R245): the refresh columns and those carried into the row are intra; in floor
mode every other CTU whose skip prediction fits is skip; a skip-only row is skip throughout. -/
def rowModes (r : EncRt) (p : EncPic) (o : RowObs) (skip : Bool) : RowModes :=
  let c := r.cfg
  let cols := List.range (encCols c)
  let due := refreshCols c r.k ++ ((p.intra.filter (fun e => decide (e.1 = p.row))).map (fun e => e.2))
  let intra := if skip then [] else if p.idr then cols else cols.filter (fun x => hasNat x due)
  { row := p.row, intra := intra
    skip := if skip then cols else if p.floor then cols.filter (fun x => !hasNat x intra && skipFits c p.row o x) else []
    clean := if p.idr then encCols c else min (encCols c) ((r.k + 1) * encCols c / c.refreshN), qp := rowQp c p o }

/-- What the parameter sets of a context's stream signal (R241). -/
def streamParams (c : EncoderCfg) : StreamParams :=
  { codec := c.codec, level := c.level, width := c.width, height := c.height, matrix := c.matrix, cbr := decide (c.rc = 0),
    bitRate := if c.rc = 0 then c.rate else c.maxRate, cpbBits := c.hrdBits }

/-- The NAL units of the row in hand, and their size. -/
def rowNals (r : EncRt) (p : EncPic) (o : RowObs) (skip : Bool) : List (List Byte) × List (List Byte) := (headNals r p o, sliceNals r.cfg p o skip)

/-- The size of the row in hand (R241). -/
def rowSize (r : EncRt) (p : EncPic) (o : RowObs) (skip : Bool) : Nat := nalBytes (rowNals r p o skip).1 + nalBytes (rowNals r p o skip).2

/-- The parameters that the parameter sets of the stream last signalled, once row `p.row` of picture `p` is out (R238, R240). -/
def sentParams (r : EncRt) (p : EncPic) : Option StreamParams := if p.row = 0 && (p.idr || decide (r.k = 0)) then some (streamParams r.cfg) else r.signalled

/-- A coded row is accepted: it is filled, packetised and queued, and rate control looks ahead (R239 to R243, R247, R248). -/
def State.acceptRow (c : Nat) (o : RowObs) (skip : Bool) (s : State) : State :=
  let r := s.encRt c
  match r.pic with
  | none => s
  | some p =>
    let n := rowNals r p o skip
    let size := rowSize r p o skip
    let fill := fillerSize r.cfg p size
    let filler := if fill = 0 then [] else [fillerNal r.cfg fill]
    let last := decide (p.row + 1 = p.rows r.cfg)
    let ns := headPackets r.cfg n.1 ++ (n.2 ++ filler).flatMap (nalPackets r.cfg)
    let spent := p.spent + size + fill
    let low := !p.floor && !p.skipAll && !skip && !last && decide (p.budget < spent + floorSum r.cfg r.prevRows (p.row + 1))
    let p' := { (p.takeRow r.cfg p.row) with
      row := p.row + 1, spent := spent, floor := p.floor || low, skipped := if skip then p.skipped ++ [p.row] else p.skipped
      sizes := p.sizes ++ [(size, rowQp r.cfg p o)], bytes := p.bytes ++ ((n.1 ++ n.2 ++ filler).map startCoded).flatten
      modes := p.modes ++ [rowModes r p o skip] }
    let s := s.modEnc c (fun r => { r with pic := some p', restart := r.restart || o.refError, signalled := sentParams r p })
    let s := if skip then s.count 0x0B c 2 1 else s
    let s := if low then s.count 0x0B c 1 1 else s
    let s := (List.range ns.length).foldl (fun s i => s.queueOne c p.row p ns last i) s
    if last then s.encSeal c else s

/-- Whether a row of `size` bytes would leave less than the skip size of the rows after it (R243). -/
def leavesTooLittle (c : EncoderCfg) (p : EncPic) (size : Nat) : Bool :=
  decide (p.budget < p.spent + size + skipSize c * (p.rows c - 1 - p.row))

/-- A row that the engine has coded is accepted, or discarded because it would leave too little, after which it and every later row is
coded skip-only. A row in normal coding that is so large begins floor mode (R242, R243; log entry 33). -/
def State.rowCoded (c : Nat) (o : RowObs) (s : State) : State :=
  let r := s.encRt c
  match r.pic with
  | none => s
  | some p =>
    if p.skipAll then s.acceptRow c o true
    else if leavesTooLittle r.cfg p (rowSize r p o false) && !p.idr then
      let s := s.modEnc c (fun r => { r with pic := some { p with floor := true, skipAll := true } })
      if p.floor then s else s.count 0x0B c 1 1
    else s.acceptRow c o false

/-- ENCODE_ROW_COMPLETE (R233, R242, R243): the engine of context `c` completes the row that it codes. -/
def State.rowComplete (c : Nat) (o : RowObs) (s : State) : State :=
  if !s.writersRun then s
  else
    let s := s.encTurns
    if (s.encRt c).engine.any (fun e => decide (s.codingOn e = some c)) then ((((s.encMissed c).rowCoded c o).encFree c).encTurns) else s

/-- ROW_LATE (R244): the row in hand is abandoned and coded skip-only. -/
def State.encRowLate (c : Nat) (o : RowObs) (s : State) : State :=
  match (s.encRt c).pic with
  | none => s
  | some p => if !s.writersRun || p.idr then s else (((((s.count 0x0B c 3 1).encMissed c).acceptRow c o true).encFree c).encTurns)

/-! ### Picture starts (R232, R234, R236, R238, R250) -/

/-- Whether a new version restarts the stream (R234, R250). -/
def restartsStream (a b : EncoderCfg) : Bool :=
  decide (a.codec ≠ b.codec) || decide (a.level ≠ b.level) || decide (a.width ≠ b.width) || decide (a.height ≠ b.height)

/-- Whether a new version changes rate or refresh settings, so that a new cycle begins (R240). -/
def restartsCycle (a b : EncoderCfg) : Bool :=
  decide (a.rc ≠ b.rc) || decide (a.rate ≠ b.rate) || decide (a.maxRate ≠ b.maxRate) || decide (a.hrdBits ≠ b.hrdBits) ||
    decide (a.refreshN ≠ b.refreshN)

/-- A context takes the version in force at a picture start (R83, R240, R250). -/
def State.encConfig (c : Nat) (s : State) : State :=
  let r := s.encRt c
  let new := s.lay.encoders.get {} c
  let s := if r.restart || (decide (r.state = .running) && restartsStream r.cfg new) then s.encRestart c else s
  s.modEnc c (fun x => { x with cfg := new, tag := s.splice.tag, k := if restartsCycle r.cfg new then 0 else min x.k new.refreshN, delay := if restartsCycle r.cfg new then 0 else x.delay })

/-- A picture of context `c` starts at the present wall line (R236, R238, R241). -/
def State.encPicture (c : Nat) (s : State) : State :=
  let s := s.encConfig c
  let r := s.encRt c
  let idr := decide (r.state = .starting)
  let bucket := if idr then 0 else r.bucket
  s.modEnc c (fun r => { r with
    bucket := bucket
    pic := some { start := s.raster.pos, rate := s.lay.dev.wallRate, budget := encBudget s.lay.dev.wallRate r.cfg bucket, idr := idr, intra := r.carried } })

/-- ENCODE_PICTURE_START (R232, R233, R236): every context whose pictures start at the present wall line and that has none in
hand begins one. -/
def State.encStarts (s : State) : State :=
  if !s.writersRun then s
  else (s.lay.encoders.foldl (fun s e =>
    let r := s.encRt e.1
    if e.2.enable && (decide (r.state = .starting) || decide (r.state = .running)) && r.pic.isNone &&
        decide (s.raster.frame % e.2.div = 0) && decide (encStartLine s.lay e.2 = s.raster.line) then s.encPicture e.1 else s) s).encTurns

/-! ### Launch (R249) -/

/-- The speed of a MAC in units of 100 Mb/s. -/
def macSpeed (l : Layout) (m : Nat) : Nat :=
  match (l.quads.get {} (quadOf (l.macs.get {} m).lane)).ethRate with
  | 0 => 100 | 1 => 250 | _ => 1000

/-- Wire time in ns of a packet with its preamble and interframe gap, rounded up. -/
def wireNs (l : Layout) (m len : Nat) : Nat := ((len + 20) * 80 + (macSpeed l m - 1)) / macSpeed l m

/-- When the MAC becomes idle. -/
def State.wireUntil (s : State) (m : Nat) : Nat := s.enc.wireUntil.get 0 m

/-- Replace a MAC's launch queue. -/
def State.setQueue (m : Nat) (q : List LaunchEntry) (s : State) : State := { s with enc := { s.enc with queues := s.enc.queues.set [] m q } }

/-- PACKET_LAUNCH (R249): the launch time of the first packet of a MAC's queue has come; it starts, or is dropped when the
link is down. A MAC that is still sending starts nothing. -/
def State.launch (m : Nat) (s : State) : State :=
  match (s.enc.queues.get [] m : List LaunchEntry) with
  | [] => s
  | e :: t =>
    if s.dev = .safe || s.wallNs < e.at_ then s
    else if !hasNat m s.ing.macUp then (s.setQueue m t).count 0x0B e.ctx 10 1
    else if s.wallNs < s.wireUntil m then s
    else
      let s := s.setQueue m t
      let s := { s with enc := { s.enc with wireUntil := s.enc.wireUntil.set 0 m (s.wallNs + wireNs s.lay m e.len) },
                        out := { s.out with launches := (m, e) :: s.out.launches } }
      let s := s.count 0x0B e.ctx 6 1
      if e.at_ < e.queuedAt then s.count 0x0B e.ctx 8 1 else s

/-- LAUNCH_SLIP (R249): a packet whose launch time has come while the MAC still sends an earlier timed packet is counted, and
starts at the end of that packet and its gap. -/
def State.launchSlip (m : Nat) (s : State) : State :=
  match (s.enc.queues.get [] m : List LaunchEntry) with
  | [] => s
  | e :: t =>
    if s.dev = .safe || !hasNat m s.ing.macUp || s.wallNs < e.at_ || s.wireUntil m ≤ s.wallNs then s
    else (s.setQueue m ({ e with at_ := s.wireUntil m } :: t)).count 0x0B e.ctx 7 1

/-! ### The rows -/

/-- ENCODE_ROW_COMPLETE. -/
def execEncodeRowComplete (dt : Nat) (ctx : Nat) (row : RowObs) (s : State) : Host.Outcome State Fault Refusal := .next ((s.advance dt).rowComplete ctx row)

/-- ROW_LATE. -/
def execRowLate (dt : Nat) (ctx : Nat) (row : RowObs) (s : State) : Host.Outcome State Fault Refusal := .next ((s.advance dt).encRowLate ctx row)

/-- ENC_TILE_ROW_READ. -/
def execEncTileRowRead (dt : Nat) (ctx region row : Nat) (readOk : Bool) (s : State) : Host.Outcome State Fault Refusal :=
  .next ((s.advance dt).encRead ctx region row readOk)

/-- PACKET_LAUNCH. -/
def execPacketLaunch (dt : Nat) (mac : Nat) (s : State) : Host.Outcome State Fault Refusal := .next ((s.advance dt).launch mac)

/-- LAUNCH_SLIP. -/
def execLaunchSlip (dt : Nat) (mac : Nat) (s : State) : Host.Outcome State Fault Refusal := .next ((s.advance dt).launchSlip mac)

end Sys2Proof.Machine
end

