-- ==== Sys2Proof/Machine/Records.lean ====
section
/-! DEFINITION. The byte layouts of the ring registers and the status mirror of BAR0 (R41, R43, R64). -/

namespace Sys2Proof.Machine

open Sys2Proof

/-! ### BAR0 (R41, R43, R64) -/

/-- RING_CTRL as it reads (R43). -/
def Ring.ctrl (r : Ring) : Nat := bitOf r.enable + 2 * r.size + 32 * r.cplSize + 512 * r.msixVec + 65536 * r.modUs

/-- RING_STATUS as it reads (R43). -/
def Ring.statusWord (r : Ring) : Nat := bitOf r.runs + 2 * bitOf r.ringErr + 4 * bitOf r.cplFull + 16 * r.errCause

/-- A ring block's 256 bytes (R43). -/
def ringBytes (r : Ring) : List Byte :=
  leBytes 8 r.base ++ leBytes 4 r.ctrl ++ leBytes 4 r.statusWord ++ leBytes 8 r.cplBase ++ leBytes 8 r.wbAddr ++ leBytes 224 0

/-- Whether a BAR0 offset lies in one of the four ranges of R41. -/
def barMapped (o : Nat) : Bool :=
  decide (o < 0x1000) || (decide (0x10000 ≤ o) && decide (o < 0x10000 + 19 * 256)) ||
    (decide (0x100000 ≤ o) && decide (o < 0x100000 + 19 * 4096)) || (decide (0x800000 ≤ o) && decide (o < 0x810000))

/-- The byte that BAR0 reads at an offset (R41, R43, R64): doorbells are write-only, and what holds no register reads 0. -/
def State.barByte (s : State) (o : Nat) : Byte :=
  if o < 0x1000 then Config.globalByte o
  else if 0x10000 ≤ o ∧ o < 0x10000 + 19 * 256 then (ringBytes (s.ring ((o - 0x10000) / 256))).getD ((o - 0x10000) % 256) 0#8
  else if 0x800000 ≤ o ∧ o < 0x80000C then
    (leBytes 4 s.mirror.devState ++ leBytes 4 s.mirror.heartbeat ++ leBytes 4 s.mirror.snapCount).getD (o - 0x800000) 0#8
  else if 0x801000 ≤ o ∧ o < 0x801A00 then (snapBytes s.mirror.snap).getD (o - 0x801000) 0#8
  else 0#8

/-- The byte that the control spaces read at an address: BAR0, or a register whose place the spec does not give (R386). -/
def State.controlByte (s : State) (a : Nat) : Byte :=
  if a < 0x1101000000 then s.barByte (a - 0x1100000000) else Config.controlByte a s.free

/-- Control space and privileged control space (R386). -/
def inControl (a : Nat) : Bool := decide (0x1100000000 ≤ a) && decide (a < 0x1110000000)

end Sys2Proof.Machine
end

