-- ==== Sys2Proof/Machine/Memory.lean ====
section
/-! DEFINITION. Sheave and Lashing: the address map (R290 to R294), what bytes memory holds, the access table (R386 to R395),
refresh and scrubbing (R299 to R308), and the regulators (R304, R305). -/

namespace Sys2Proof.Machine

open Sys2Proof

/-! ### The address map (R290, R292 to R294, R297) -/

/-- Device memory: 62 GiB from address 0 (R290). -/
def inMemory (a : Nat) : Bool := decide (a < 0xF80000000)

/-- The reserve window (R294). -/
def inWindow (a : Nat) : Bool := decide (0x800000000 ≤ a) && decide (a < 0x8F8000000)

/-- The interleave grain G in bytes (R292). -/
def Mem.grainBytes (m : Mem) : Nat := 256 * 2 ^ m.grain

/-- The fold h of R293. -/
def Mem.fold (m : Mem) (q : Nat) : Nat :=
  if m.hash then (q % 32) ^^^ (q / 2 ^ 5 % 32) ^^^ (q / 2 ^ 10 % 32) ^^^ (q / 2 ^ 15 % 32) ^^^ (q / 2 ^ 20 % 32) ^^^ (q / 2 ^ 25 % 32) else 0

/-- Channel and channel address of a general-region address, given as A_g (R293). -/
def Mem.general (m : Mem) (ag : Nat) : Nat × Nat :=
  let g := m.grainBytes
  let k := ag / g
  let q := k / 32
  let s := (k % 32) ^^^ m.fold q
  if s < 30 then (s, (q / 15 * 16 + q % 15) * g + ag % g)
  else (2 * (q % 15) + (s - 30), (q / 15 * 16 + 15) * g + ag % g)

/-- Channel and channel address of an address of the reserve window, given from the window's start (R294). -/
def Mem.reserve (m : Mem) (a : Nat) : Nat × Nat :=
  let g := m.grainBytes
  let k := a / g
  let q := k / 2
  (30 + ((k % 2) ^^^ (m.fold q % 2)), q * g + a % g)

/-- Channel and channel address of a device address; none beyond device memory (R290). -/
def Mem.place (m : Mem) (a : Nat) : Option (Nat × Nat) :=
  if !inMemory a then none
  else if inWindow a then some (m.reserve (a - 0x800000000))
  else if a < 0x800000000 then some (m.general a) else some (m.general (a - 0xF8000000))

/-! ### What memory holds -/

/-- PITCH of a buffer (R295, R313). -/
def FrameBuf.pitch (f : FrameBuf) : Nat := pitchOf f.format f.width + f.pitchUp

/-- Bytes that a buffer spans. -/
def FrameBuf.span (f : FrameBuf) : Nat := f.pitch * storedLines f.format f.height

/-- The source buffer that holds an address: source and index. -/
def State.bufferAt (s : State) (a : Nat) : Option (Nat × Nat) :=
  s.ing.sources.foldl (fun r e => match r with
    | some x => some x
    | none => (List.find? (fun (b : Nat × FrameBuf) => decide (b.2.addr ≤ a) && decide (a < b.2.addr + b.2.span)) e.2.bufs).map
        (fun b => (e.1, b.1))) none

/-- The slots of tile row `k` for its head frame: each with its base address (R155). -/
def State.slotBase (s : State) (k slot : Nat) : Nat := bandAddr k slot (s.ringGen (k / 128) (s.row k).frame) 0 0

/-- The tile row and slot that hold an address. -/
def State.slotAt (s : State) (a : Nat) : Option (Nat × Nat) :=
  s.braid.rows.foldl (fun r e => match r with
    | some x => some x
    | none =>
      let size := 16384 * tileCols ((s.layoutFor e.2.frame).head (e.1 / 128))
      (List.find? (fun (i : Nat) => decide (s.slotBase e.1 i ≤ a) && decide (a < s.slotBase e.1 i + size)) [0, 1]).map (fun i => (e.1, i))) none

/-- A byte of a slot, `off` bytes from its base (R153, R155). -/
def RowRt.slotByte (r : RowRt) (slot off : Nat) : Byte :=
  let t := ((if slot = 0 then r.slot0 else r.slot1).find? (off / 16384)).getD {}
  let w := (t.pixels.getD (off % 16384 / 256) []).getD (off % 256 / 4) 0#32
  BitVec.ofNat 8 (w.toNat / 256 ^ (off % 4))

/-- Where the TPR array of a row's slot begins: in the reserve while it is enabled (R155, R297). -/
def State.tprBase (s : State) (k slot : Nat) : Nat :=
  pageAddr (decide (s.lay.dev.memReserve = 1)) (Config.tprPage k slot (s.ringGen (k / 128) (s.row k).frame))

/-- The tile row and slot whose TPR array holds an address: 128 bytes for each tile column (R155, R161). -/
def State.tprAt (s : State) (a : Nat) : Option (Nat × Nat) :=
  s.braid.rows.foldl (fun r e => match r with
    | some x => some x
    | none =>
      let size := 128 * tileCols ((s.layoutFor e.2.frame).head (e.1 / 128))
      (List.find? (fun (i : Nat) => decide (s.tprBase e.1 i ≤ a) && decide (a < s.tprBase e.1 i + size)) [0, 1]).map (fun i => (e.1, i))) none

/-- A byte of a TPR array, `off` bytes from its base; a place that holds no record reads 0 (R161). -/
def RowRt.tprByte (r : RowRt) (slot off : Nat) : Byte :=
  match (if slot = 0 then r.slot0 else r.slot1).find? (off / 128) with
  | none => 0#8
  | some t => (tprBytes t.tpr).getD (off % 128) 0#8

/-- Where a source's seal ring begins: in the reserve for a class-0 source (R105). -/
def State.sealBase (s : State) (i : Nat) : Nat := pageAddr (s.alarmSide i) (Config.sealPage i)

/-- The source whose seal ring of eight seals holds an address (R105). -/
def State.sealAt (s : State) (a : Nat) : Option Nat :=
  (List.find? (fun (e : Nat × SourceRt) => decide (s.sealBase e.1 ≤ a) && decide (a < s.sealBase e.1 + 512)) s.ing.sources).map (fun e => e.1)

/-- A byte of a seal ring: the seal with sequence q lies at 64 × (q mod 8) (R105, R107, R108). -/
def SourceRt.ringByte (r : SourceRt) (off : Nat) : Byte :=
  match List.find? (fun (x : Seal) => decide (x.seq % 8 = off / 64)) r.seals with
  | none => 0#8
  | some x => (sealBytes x).getD (off % 64) 0#8

/-- Where the point table begins: in the reserve while it is enabled and some overlay source is class 0 (R215). -/
def State.pointBase (s : State) : Nat := pageAddr (decide (s.lay.dev.memReserve = 1) && tableAlarm s.lay) Config.pointPage

/-- A byte of the point table (R215). -/
def State.pointByte (s : State) (off : Nat) : Byte := (pointBytes (s.pts.table.get {} (off / 16))).getD (off % 16) 0#8

/-- Where the source status table begins in on-chip SRAM; R386 gives no address, and R29 no size of an entry, of which the model
takes 16 bytes (log entry 24). -/
def statusBase : Nat := 0x1000000000 + 16384 * (Config.statusPlace % 2048)

/-- Whether an address lies in the source status table (R29). -/
def inStatus (a : Nat) : Bool := decide (statusBase ≤ a) && decide (a < statusBase + 16384)

/-- A byte of the address space as a read without error returns it: a register, a source buffer's line, a slot's word, a tile
provenance record, a seal ring, the point table, or what has been written to the address. The bytes of a status entry have
no stated layout, and read as a register's whose place the spec does not give. -/
def State.byteAt (s : State) (a : Nat) : Byte :=
  if inControl a then s.controlByte a
  else if inStatus a then Config.controlByte a s.free
  else if s.pointBase ≤ a ∧ a < s.pointBase + pointTableBytes then s.pointByte (a - s.pointBase)
  else match s.sealAt a with
  | some i => (s.srcRt i).ringByte (a - s.sealBase i)
  | none => match s.tprAt a with
  | some x => (s.row x.1).tprByte x.2 (a - s.tprBase x.1 x.2)
  | none => match s.bufferAt a with
  | some x =>
    let f := (s.srcRt x.1).bufs.get {} x.2
    (f.lines.getD ((a - f.addr) / f.pitch) []).getD ((a - f.addr) % f.pitch) 0#8
  | none => match s.slotAt a with
    | some x => (s.row x.1).slotByte x.2 (a - s.slotBase x.1 x.2)
    | none => s.mem.bytes.get 0#8 a

/-- Replace entry `i` of a list, if it has one. -/
def setAt {α : Type} (i : Nat) (v : α) : List α → List α
  | [] => []
  | x :: t => match i with
    | 0 => v :: t
    | n + 1 => x :: setAt n v t

/-- The point record that 16 bytes hold (R215). -/
def pointOf (bs : List Byte) : PointEntry :=
  { value := leNat (bs.take 4), flags := leNat ((bs.drop 4).take 2), seq := leNat ((bs.drop 6).take 2), time := leNat ((bs.drop 8).take 8) }

/-- Write a byte of memory. Registers have operations of their own, and a seal ring keeps its seals (log entry 114). -/
def State.pokeByte (a : Nat) (b : Byte) (s : State) : State :=
  if inControl a || (s.sealAt a).isSome then s
  else if s.pointBase ≤ a ∧ a < s.pointBase + pointTableBytes then
    let o := a - s.pointBase
    { s with pts := { s.pts with table := s.pts.table.modify {} (o / 16) (fun e => pointOf (setAt (o % 16) b (pointBytes e))) } }
  else match s.bufferAt a with
  | some x => s.modSrc x.1 (fun rt => { rt with bufs := rt.bufs.modify {} x.2 (fun f =>
      { f with lines := setAt ((a - f.addr) / f.pitch) (setAt ((a - f.addr) % f.pitch) b (f.lines.getD ((a - f.addr) / f.pitch) [])) f.lines }) })
  | none => { s with mem := { s.mem with bytes := s.mem.bytes.set 0#8 a b } }

/-- Write bytes from an address on. -/
def State.pokeBytes : Nat → List Byte → State → State
  | _, [], s => s
  | a, b :: t, s => State.pokeBytes (a + 1) t (s.pokeByte a b)

/-! ### Lashing (R386 to R395) -/

/-- On-chip SRAM, retained memory and control space: the default map (R386). -/
def inDefaultMap (a : Nat) : Bool := decide (0x1000000000 ≤ a) && decide (a < 0x1002010000) || decide (0x1100000000 ≤ a) && decide (a < 0x1108000000)

/-- The debug masters (R387). -/
def isDebugMaster (m : Nat) : Bool := decide (m = 41) || decide (m = 42)

/-- Whether a master is privileged now (R387, R397). -/
def State.privileged (s : State) (m : Nat) : Bool := decide (m ≤ 12) || (isDebugMaster m && (!s.fuses.fieldLocked || s.auth.unlocked))

/-- Whether an entry holds an address (R391). -/
def accHolds (e : AccessCfg) (a : Nat) : Bool := e.enable && decide (e.base ≤ a) && decide (a < e.limit)

/-- Lashing's decision: allowed, or denied with the fault source that it raises (R391, R395). -/
inductive Lash where
  | allow
  | deny (source : Nat)
  deriving DecidableEq, Repr

/-- The right that an access needs. -/
def accRight (e : AccessCfg) (write : Bool) : Bool := if write then e.write else e.read

/-- Lashing decides an access by master `m` to `n` bytes from `a` (R391). -/
def State.lash (s : State) (m : Nat) (write : Bool) (a n : Nat) : Lash :=
  let c1 := s.lay.access.filter (fun e => accHolds e.2 a)
  let c2 := s.lay.access.filter (fun e => accHolds e.2 (a + n - 1))
  let e1 := c1.filter (fun e => e.2.masters.testBit m)
  let e2 := c2.filter (fun e => e.2.masters.testBit m)
  let plain := if isDebugMaster m then 65 else 64
  if isDebugMaster m && (!s.privileged m || (c1 ++ c2).any (fun e => e.2.lock)) then .deny 65
  else if decide (1 < e1.length) || decide (1 < e2.length) then .deny 67
  else match e1, e2 with
    | [x], [y] =>
      if x.1 ≠ y.1 then .deny plain
      else if !accRight x.2 write || (x.2.priv && !s.privileged m) then .deny plain else .allow
    | [], [] => if (c1 ++ c2).isEmpty && s.privileged m && inDefaultMap a && inDefaultMap (a + n - 1) then .allow else .deny plain
    | _, _ => .deny plain

/-- The privileged control space (R386). -/
def inPrivControl (a : Nat) : Bool := decide (0x1108000000 ≤ a) && decide (a < 0x1110000000)

/-- Protections wired behind Lashing, for masters other than the units that own what they protect: no write to the privileged
control space, to the source status table, to a slot or to its TPR array (R29, R163, R393). Where in the on-chip SRAM the status
table lies the spec leaves open: an open place (log entry 24). -/
def State.wired (s : State) (m a n : Nat) : Bool :=
  (decide (m ≠ 2) && decide (m ≠ 11) && decide (m ≠ 12) && (inPrivControl a || inPrivControl (a + n - 1))) ||
    inStatus a || inStatus (a + n - 1) || (s.slotAt a).isSome || (s.slotAt (a + n - 1)).isSome || (s.tprAt a).isSome || (s.tprAt (a + n - 1)).isSome

/-- FE_TYPE of an access (R407). -/
def accType (write : Bool) : Nat := if write then 2 else 1

/-- What memory does with an access that Lashing allows: a class-1 or class-2 request to the window of an enabled reserve is an
error and raises source 75 (R297), and so are requests to a fenced reserve channel (R298) and to addresses that hold nothing. -/
def State.memAccess (m : Nat) (write : Bool) (a n : Nat) (s : State) : Bool × State :=
  if inMemory a then
    if (inWindow a || inWindow (a + n - 1)) && decide (s.lay.dev.memReserve = 1) then
      (false, (s.count 0x13 0 0 1).fireAccess 75 m (accType write) a n)
    else
      let lost := fun (x : Nat) => match s.mem.place x with | none => true | some c => s.isFenced (50 + c.1)
      (!lost a && !lost (a + n - 1), s)
  else (inDefaultMap a || inPrivControl a, s)

/-- An access by master `m`: Lashing's decision, its fault, and what memory does (R391 to R395). The Bool says that the access
completes without error. -/
def State.access (m : Nat) (write : Bool) (a n : Nat) (s : State) : Bool × State :=
  match s.lash m write a n with
  | .deny src => (false, s.fireAccess src m (accType write) a n)
  | .allow => if write && s.wired m a n then (false, s.fireAccess 64 m 2 a n) else s.memAccess m write a n

/-! ### Refresh and temperature (R306 to R308) -/

/-- Apply `f` to a channel. -/
def State.modChan (c : Nat) (f : MemChannel → MemChannel) (s : State) : State := { s with mem := { s.mem with chans := s.mem.chans.modify {} c f } }

/-- REFRESH (R306, R308): all channels refresh, and the interval that MR4 asked for holds from here. -/
def State.refreshAll (s : State) : State :=
  if !s.mem.trained then s
  else
    let s := (List.range 32).foldl (fun s c => s.modChan c (fun x => { x with refreshes := x.refreshes + 1 })) s
    { s with mem := { s.mem with fast := s.mem.high } }

/-- TIME ticks of 1 s. -/
def secondTicks : Nat := 500000000

/-- MR4_POLL (R308): `rates` are the refresh rates that the devices ask for, as multiples of the base rate. -/
def State.mr4 (rates : List Nat) (s : State) : State :=
  if !s.mem.trained then s
  else
    let now := s.time.upTicks
    let since := s.mem.baseSince.getD now
    let s : State := if rates.any (fun r => decide (2 ≤ r)) then { s with mem := { s.mem with high := true, baseSince := none } }
      else { s with mem := { s.mem with baseSince := some since, high := s.mem.high && decide (now < since + secondTicks) } }
    (rates.filter (fun r => decide (2 < r))).foldl (fun s _ => s.fireSrc 73 0xFFFF 0xFFFF) s

/-! ### Scrubbing and arbitration (R301, R305) -/

/-- Data blocks of a channel: 1.9375 GiB in 64-byte blocks (R290, R299). -/
def chanBlocks : Nat := 32505856

/-- SCRUB (R299, R301): the next block of a channel is read, and written back if it was corrected; an uncorrectable block counts and reports. -/
def State.scrub (c : Nat) (read : ScrubRead) (s : State) : State :=
  if !s.mem.trained || decide (32 ≤ c) then s
  else
    let s := s.modChan c (fun x => { x with scrubNext := (x.scrubNext + 1) % chanBlocks })
    match read with
    | .clean => s
    | .corrected => (s.count 0x11 c 1 1).fireSrc 68 (50 + c) 0xFFFF
    | .uncorrectable => (s.count 0x11 c 2 1).fireSrc 69 (50 + c) 0xFFFF

/-- CLASS2_PROMOTION (R305): a class-2 request that has waited 20 µs at a channel is served as class 1. -/
def State.promote (c : Nat) (s : State) : State :=
  if c < 32 then s.modChan c (fun x => { x with promoted := x.promoted + 1 }) else s

/-! ### Regulators (R303, R304) -/

/-- The key of a port's bucket for class 1 or 2. -/
def bucketKey (port cls : Nat) : Nat := 4 * port + cls

/-- The refill rate in MB/s and the depth in bytes of a bucket (R304). -/
def State.bucketCfg (s : State) (port cls : Nat) : Nat × Nat :=
  let r := s.lay.regulators.get {} port
  if cls = 1 then (r.rate1, r.burst1) else (r.rate2, r.burst2)

/-- A bucket refilled up to now: one MB/s adds one 1/500 byte in each 2 ns tick. -/
def Bucket.refill (rate burst now : Nat) (b : Bucket) : Bucket :=
  { b with tokens := min (500 * burst) (b.tokens + rate * (now - b.stamp)), stamp := now }

/-- Remove the first entry equal to `n`. -/
def removeOne (n : Nat) : List Nat → List Nat
  | [] => []
  | x :: t => if x = n then t else x :: removeOne n t

/-- The traffic class of a request (R296, R303). -/
def State.reqClass (s : State) (port : Nat) : ReqItem → Nat
  | .source i => (s.lay.source i).cls
  | .context c => s.ctxClass c
  | .encoder c => (s.encRt c).cfg.cls
  | .fetch _ => 1
  | .table h => if decide (s.lay.dev.memReserve = 1) && tableAlarm s.lay then 0 else (s.lay.source (overlaySource h)).cls
  | .alarm => 0
  | .other => if port = 22 then 2 else 1

/-- Whether a request is urgent head fetch, which passes its bucket (R204, R304). -/
def State.passesBucket (s : State) : ReqItem → Bool
  | .fetch h => !(s.headRt h).urgent.isEmpty
  | _ => false

/-- REGULATOR_RELEASE (R304): a request of `size` bytes that waits at its port proceeds if its bucket holds enough, and draws
its size in whole blocks. A request that is not among those held has just been held, and REGU_HELD counts it, unless the
class is unregulated. Class 0 has no bucket, and urgent head fetch passes its own. -/
def State.regulate (port : Nat) (item : ReqItem) (size : Nat) (s : State) : State :=
  let cls := s.reqClass port item
  if 24 ≤ port || (cls ≠ 1 && cls ≠ 2) || s.passesBucket item then s
  else
    let n := roundUp 64 size
    let k := s.bucketCfg port cls
    let b := (s.mem.buckets.get {} (bucketKey port cls)).refill k.1 k.2 s.time.upTicks
    let new := !hasNat n b.held
    let s := if new && decide (k.1 ≠ 0) then s.count 0x12 port cls 1 else s
    let b : Bucket := if new then { b with held := b.held ++ [n] } else b
    let b : Bucket := if k.1 = 0 then { b with held := removeOne n b.held }
      else if 500 * n ≤ b.tokens then { b with tokens := b.tokens - 500 * n, held := removeOne n b.held } else b
    { s with mem := { s.mem with buckets := s.mem.buckets.set {} (bucketKey port cls) b } }

/-! ### The rows -/

/-- REFRESH. -/
def execRefresh (dt : Nat) (s : State) : Host.Outcome State Fault Refusal := .next (s.advance dt).refreshAll

/-- MR4_POLL. -/
def execMr4Poll (dt : Nat) (rates : List Nat) (s : State) : Host.Outcome State Fault Refusal := .next ((s.advance dt).mr4 rates)

/-- REGULATOR_RELEASE. -/
def execRegulatorRelease (dt : Nat) (port : Nat) (item : ReqItem) (size : Nat) (s : State) : Host.Outcome State Fault Refusal := .next ((s.advance dt).regulate port item size)

/-- CLASS2_PROMOTION. -/
def execClass2Promotion (dt : Nat) (channel : Nat) (s : State) : Host.Outcome State Fault Refusal := .next ((s.advance dt).promote channel)

/-- SCRUB. -/
def execScrub (dt : Nat) (channel : Nat) (read : ScrubRead) (s : State) : Host.Outcome State Fault Refusal := .next ((s.advance dt).scrub channel read)

end Sys2Proof.Machine
end

