-- ==== Sys2Proof/Machine/Heads.lean ====
section
/-! DEFINITION. Heads: their frame starts (R52, R53, R58, R74, R83, R199, R206, R207), and what happens on HPD, AUX
and in training (R209 to R212). -/

namespace Sys2Proof.Machine

open Sys2Proof

/-! ### Frame starts -/

/-- A head counts as started for the commits of frames up to `f`; the event follows once every head has (R58, R85). -/
def State.headStarted (h f : Nat) (s : State) : State :=
  let next := s.splice.awaiting.map (fun a => if a.frame ≤ f then { a with heads := removeNat h a.heads } else a)
  let done := next.filter (fun a => a.heads.isEmpty)
  let s := { s with splice := { s.splice with awaiting := next.filter (fun a => !a.heads.isEmpty) } }
  done.foldl (fun s a => s.event 0x0002 a.txn a.frame) s

/-- Marks and failures of a head's last frame go; a frame that was cut short leaves its record all the same (R281). -/
def State.stopperReset (h : Nat) (s : State) : State :=
  let pol : List PolicyEntry := s.stop.policy.get [] h
  let x := s.headRt h
  let cut := x.startPos.isSome && decide (x.emitted < bandRows x.cfg)
  let mine := fun (e : Nat × Nat) => decide (e.1 / 128 = h)
  { s with stop := { s.stop with
      tileFail := s.stop.tileFail.filter (fun e => !mine e)
      crcFail := s.stop.crcFail.filter (fun e => !mine e)
      captions := pol.foldl (fun m (p : PolicyEntry) => m.set {} p.window {}) s.stop.captions
      marksLast := if cut then pol.foldl (fun m (p : PolicyEntry) => m.set [] p.window (s.stop.marksNow.get [] p.window)) s.stop.marksLast
        else s.stop.marksLast
      marksNow := pol.foldl (fun m (p : PolicyEntry) => m.set [] p.window []) s.stop.marksNow } }

/-- Bowline writes the policy table of a head; a limit above its floor is a contained fault (R173). -/
def State.writePolicy (h : Nat) (l : Layout) (s : State) : State :=
  let s := { s with stop := { s.stop with policy := s.stop.policy.set [] h (policyOf l h) } }
  if floored l h then s.fireSrc 77 0xFFFF h else s

/-- Whether `h` is the lowest-numbered enabled head of its Stopper unit. -/
def lowestOfUnit (l : Layout) (h : Nat) : Bool :=
  (l.enabledHeads.filter (fun x => decide (stopUnitOf x = stopUnitOf h))).all (fun x => decide (h ≤ x))

/-- A fenced Stopper unit counts passing head frames, and returns after 600 (R190). -/
def State.unitFrame (h : Nat) (s : State) : State :=
  let u := stopUnitOf h
  if !s.isFenced (46 + u) || !lowestOfUnit s.lay h then s
  else
    let x := s.stop.units.get {} u
    let n := if x.testFail then 0 else x.passing + 1
    let s := { s with stop := { s.stop with units := s.stop.units.modify {} u (fun y => { y with passing := n, testFail := false }) } }
    if 600 ≤ n && !hasNat (46 + u) s.flt.untilReset then s.unfence (46 + u) else s

/-- The test rows that the unit's checkers judge in the vertical blanking of a head frame: each checker that fails is counted, and the
unit's source fires (R189). -/
def State.testRows (h : Nat) (fails : List (Nat × Nat)) (s : State) : State :=
  let u := stopUnitOf h
  let n := ((List.range 2).filter (fun c => fails.any (fun e => decide (e = (h, c))))).length
  if n = 0 then s
  else
    let s := s.count 0x07 u 1 n
    let s := { s with stop := { s.stop with units := s.stop.units.modify {} u (fun x => { x with testFail := true }) } }
    s.fireSrc (52 + u) (46 + u) 0xFFFF

/-- A set disables the head: DOWN, no raster, and nothing composed for it (R52, R160, R201). -/
def State.headOff (h : Nat) (s : State) : State :=
  let s := ((s.passLines h).headDown h).dropRows h
  s.modHead h (fun x => { x with startPos := none, begunLive := false, hpdWasLow := true, fetched := [], urgent := [], boundRows := [], emitted := 0,
                                 lit := [], cfg := { x.cfg with enable := false } })

/-- Head frame (f, half) of head `h` starts at wall position `pos` under the set `l`; `fails` are the failures of its test rows (R52,
R83, R189, R206). -/
def State.headStart (h f half pos : Nat) (l : Layout) (fails : List (Nat × Nat)) (s : State) : State :=
  let fresh := decide (half = 0) && !(s.headRt h).cfg.enable
  let s := ((((s.passLines h).headStarted h f).unitFrame h).testRows h fails).stopperReset h
  let s := if half = 0 then s.modHead h (fun x => { x with cfg := l.head h }) else s
  let s := if fresh then s.modHead h (fun x => { x with hpdWasLow := true }) else s
  let s := (s.headStateAtStart h fresh).beginFrame h f half pos
  let s := if half = 0 then s.writePolicy h l else s
  s.startSignatures h

/-! ### HPD and AUX (R209, R210, R212) -/

/-- A job joins a head's AUX queue, and begins where the channel is free. -/
def State.auxQueue (h : Nat) (j : AuxJob) (s : State) : State :=
  let free := (s.headRt h).aux.isEmpty
  let s := s.modHead h (fun x => { x with aux := x.aux ++ [(j, 0)] })
  if free then s.auxSend h else s

/-- The job in front has ended, and the next one begins. -/
def State.auxNext (h : Nat) (s : State) : State := (s.modHead h (fun x => { x with aux := x.aux.drop 1 })).auxSend h

/-- HPD_IRQ (R209): the head reads the sink's link status over AUX. -/
def State.hpdIrq (h : Nat) (s : State) : State := if (s.headRt h).hpd then (s.countHead h 8).auxQueue h .linkStatus else s

/-- HPD_UNPLUG (R209, R212): a link is lost, a head in training goes to DOWN, and nothing is held of the sink that is gone (log entry
116). -/
def State.hpdUnplug (h : Nat) (s : State) : State :=
  if !(s.headRt h).hpd then s
  else
    let s := (s.countHead h 9).modHead h (fun x => { x with hpd := false, hpdWasLow := true, aux := [], dpcdStatus := [], dpcdCaps := [], lttpr := [], edid := [] })
    if (s.headRt h).linked then s.headLinkLoss h
    else if (s.headRt h).state = .training then s.headDown h
    else s

/-- HPD has stayed high for 100 ms: it counts as asserted, and the capabilities are read (R209,
R210). -/
def State.hpdAsserted (h : Nat) (s : State) : State :=
  if (s.headRt h).hpd then s
  else (s.modHead h (fun x => { x with hpd := true })).auxQueue h .capabilities

/-- A training attempt fails (R211): the third sends the head to DOWN. -/
def State.attemptFail (h : Nat) (s : State) : State :=
  let r := s.headRt h
  if r.state ≠ .training || !r.attempting then s
  else if 2 ≤ r.attempts then (s.countHead h 6).headDown h
  else (s.modHead h (fun x => { x with attempting := false, attempts := x.attempts + 1 })).auxUntrain h

/-- AUX_REPLY (R210, R212): the job's data is kept; a link status that shows a loss sends the head to TRAINING. -/
def State.auxReply (h : Nat) (d : AuxData) (s : State) : State :=
  match (s.headRt h).aux with
  | [] => s
  | j :: _ =>
    let s := s.auxNext h
    match j.1 with
    | .linkStatus =>
      let s := s.modHead h (fun x => { x with dpcdStatus := d.status })
      if d.linkLost then s.headLinkLoss h else s
    | .capabilities => s.modHead h (fun x => { x with dpcdCaps := d.caps, lttpr := d.lttpr, edid := d.edid })
    | .train => s

/-- The AUX jobs of a head: with no other job, an attempt at training drives AUX itself. -/
def HeadRt.auxJobs (r : HeadRt) : List (AuxJob × Nat) :=
  match r.aux with
  | [] => if r.state = .training && r.attempting then [(.train, 0)] else []
  | l => l

/-- AUX_TIMEOUT (R210, R211): a transaction fails; it is tried twice more. -/
def State.auxTimeout (h : Nat) (s : State) : State :=
  match (s.headRt h).auxJobs with
  | [] => s
  | j :: t =>
    if j.2 < 2 then (s.modHead h (fun x => { x with aux := (j.1, j.2 + 1) :: t })).auxSend h
    else
      let s := ((s.countHead h 10).modHead h (fun x => { x with aux := t })).auxSend h
      if j.1 = .train then s.attemptFail h else s

/-! ### Training (R207, R211) -/

/-- Whether a head's lanes carry data: the quad's PLL is locked and no lane is in Rest (R318, R324). -/
def State.lanesReady (s : State) (c : HeadCfg) : Bool :=
  decide (s.lanes.pll.get .off (quadOf c.lane0) = .locked) && (headLanes c).all (fun ln => !(s.lane ln).rest)

/-- The repeaters that the LTTPR capabilities tell of: the third byte has one bit for each count from 1 (bit 7) to 8 (bit 0) (R208;
PRESUMED, log entry 116). -/
def repeatersOf (lttpr : List Byte) : Nat :=
  (((List.range 8).filter (fun i => (lttpr.getD 2 0#8).toNat = 2 ^ (7 - i))).map (fun i => i + 1)).getLastD 0

/-- How a successful training went: each repeater in turn from the source's side, then the sink, with the phases of the coding; FEC is
always on with 128b/132b and the TX FFE presets are 0 to 15 (R208, R331). -/
def State.trainedAs (s : State) (h : Nat) (presets : List Nat) : Trained :=
  let r := s.headRt h
  let wide := decide (3 ≤ r.cfg.linkRate)
  let n := repeatersOf r.lttpr
  let steps := if wide then [TrainPhase.laneEq, TrainPhase.cds] else [TrainPhase.clockRecovery, TrainPhase.channelEq]
  { coding128 := wide, fec := wide, repeaters := n
    phases := (((List.range n).map (fun i => i + 1)) ++ [0]).flatMap (fun d => steps.map (fun p => (d, p)))
    presets := if wide then (presets.take r.cfg.lanes).map (fun p => p % 16) else [], spread := s.spreads h }

/-- TRAINING_SUCCESS (R52, R207, R208): the head enters STARTING and sends idle until its next frame start. -/
def State.trainDone (h : Nat) (presets : List Nat) (s : State) : State :=
  let r := s.headRt h
  if r.state ≠ .training || !r.attempting || !r.hpd || !s.lanesReady r.cfg then s
  else ((s.modHead h (fun x => { x with
    state := .starting, idle := true, n := 0, attempting := false, attempts := 0
    rate := x.cfg.linkRate, lanes := x.cfg.lanes, trained := some (s.trainedAs h presets) })).auxUntrain h).countHead h 5

/-- TRAINING_RETRY (R211): the next attempt starts; without HPD it fails at once (R212). -/
def State.trainRetry (h : Nat) (s : State) : State :=
  let r := s.headRt h
  if r.state ≠ .training || r.attempting then s
  else if r.hpd then (s.modHead h (fun x => { x with attempting := true })).trainWrites h
  else s.headDown h

/-! ### The rows -/

/-- HPD_IRQ. -/
def execHpdIrq (dt : Nat) (head : Nat) (s : State) : Host.Outcome State Fault Refusal := .next ((s.advance dt).hpdIrq head)

/-- HPD_UNPLUG. -/
def execHpdUnplug (dt : Nat) (head : Nat) (s : State) : Host.Outcome State Fault Refusal := .next ((s.advance dt).hpdUnplug head)

/-- HPD_ASSERTED. -/
def execHpdAsserted (dt : Nat) (head : Nat) (s : State) : Host.Outcome State Fault Refusal := .next ((s.advance dt).hpdAsserted head)

/-- AUX_REPLY. -/
def execAuxReply (dt : Nat) (head : Nat) (data : AuxData) (s : State) : Host.Outcome State Fault Refusal := .next ((s.advance dt).auxReply head data)

/-- AUX_TIMEOUT. -/
def execAuxTimeout (dt : Nat) (head : Nat) (s : State) : Host.Outcome State Fault Refusal := .next ((s.advance dt).auxTimeout head)

/-- TRAINING_SUCCESS. -/
def execTrainingSuccess (dt : Nat) (r : TrainedHead) (s : State) : Host.Outcome State Fault Refusal := .next ((s.advance dt).trainDone r.head r.presets)

/-- TRAINING_ATTEMPT_FAIL: a step of the sequence fails, or the sink lacks what is committed (R211). -/
def execTrainingAttemptFail (dt : Nat) (head : Nat) (s : State) : Host.Outcome State Fault Refusal := .next ((s.advance dt).attemptFail head)

/-- TRAINING_ATTEMPT_TIMEOUT: the attempt passes 1 s (R211). -/
def execTrainingAttemptTimeout (dt : Nat) (head : Nat) (s : State) : Host.Outcome State Fault Refusal := .next ((s.advance dt).attemptFail head)

/-- TRAINING_RETRY. -/
def execTrainingRetry (dt : Nat) (head : Nat) (s : State) : Host.Outcome State Fault Refusal := .next ((s.advance dt).trainRetry head)

end Sys2Proof.Machine
end

