-- ==== Sys2Proof/Machine/Lanes.lean ====
section
/-! DEFINITION. Lanes and quads: Rest (R323 to R325), lost clock recovery, and the lane PLLs (R318, R333). -/

namespace Sys2Proof.Machine

open Sys2Proof

/-- TIME ticks of 10 ms: a longer Rest ends with a 4,096-UI burst (R324). -/
def longRestTicks : Nat := 5000000

/-- REST_EXIT_REQUEST (R324, R335): a lane that its user needs leaves Rest with a training burst. -/
def State.restExit (ln : Nat) (s : State) : State :=
  let r := s.lane ln
  if !r.rest || shouldRest s ln then s
  else
    let long := r.longNext || decide (longRestTicks < s.time.upTicks - r.restSince)
    let ui := if long then 4096 else 256
    let s := s.modLane ln (fun x => { x with rest := false, longNext := false, burstUi := ui })
    let s := { s with out := { s.out with bursts := (ln, ui) :: s.out.bursts } }
    if long then s.count 0x14 ln 4 1 else s

/-- LANE_IDLE_EXIT (R325): a receive lane of an enabled DPRX port sees the end of electrical idle. -/
def State.idleExit (ln : Nat) (s : State) : State :=
  if (s.lane ln).rest && s.lay.dprxs.any (fun e => e.2.enable && dprxHasLane e.2 ln) then s.modLane ln (fun x => { x with rest := false, longNext := false })
  else s

/-- CDR_LOSS (R334): a receive lane loses clock recovery outside Rest. -/
def State.cdrLoss (ln : Nat) (s : State) : State :=
  if (s.lane ln).rest || !(s.lane ln).cdrLocked then s else (s.modLane ln (fun x => { x with cdrLocked := false })).count 0x14 ln 2 1

/-- Set a quad's PLL. -/
def State.setPll (q : Nat) (p : PllState) (s : State) : State := { s with lanes := { s.lanes with pll := s.lanes.pll.set .off q p } }

/-- A quad's PLL. -/
def State.pll (s : State) (q : Nat) : PllState := s.lanes.pll.get .off q

/-- QUAD_PLL_LOCK (R318, R333): the PLL locks. -/
def State.pllLock (q : Nat) (s : State) : State :=
  if s.pll q = .locking || s.pll q = .lost then s.setPll q .locked else s

/-- A quad's PLL is lost (R333, R335): its lanes stop, its users lose their links, and its fault fires. -/
def State.pllLost (q : Nat) (s : State) : State :=
  let s := ((s.setPll q .lost).count 0x15 q 0 1).quadStop q
  let s := (List.range 4).foldl (fun s i => s.modLane (4 * q + i) (fun x => { x with longNext := x.longNext || x.rest, cdrLocked := false })) s
  s.fireSrc (80 + q) (80 + q) 0xFFFF

/-- QUAD_PLL_LOCK_TIMEOUT (R333): a PLL has not locked within 10 ms. -/
def State.pllTimeout (q : Nat) (s : State) : State := if s.pll q = .locking then s.pllLost q else s

/-- QUAD_PLL_UNLOCK (R333): a locked PLL loses lock. -/
def State.pllUnlock (q : Nat) (s : State) : State := if s.pll q = .locked then s.pllLost q else s

/-! ### The rows -/

/-- REST_EXIT_REQUEST. -/
def execRestExitRequest (dt : Nat) (lane : Nat) (s : State) : Host.Outcome State Fault Refusal := .next ((s.advance dt).restExit lane)

/-- LANE_IDLE_EXIT. -/
def execLaneIdleExit (dt : Nat) (lane : Nat) (s : State) : Host.Outcome State Fault Refusal := .next ((s.advance dt).idleExit lane)

/-- QUAD_PLL_LOCK. -/
def execQuadPllLock (dt : Nat) (quad : Nat) (s : State) : Host.Outcome State Fault Refusal := .next ((s.advance dt).pllLock quad)

/-- QUAD_PLL_LOCK_TIMEOUT. -/
def execQuadPllLockTimeout (dt : Nat) (quad : Nat) (s : State) : Host.Outcome State Fault Refusal := .next ((s.advance dt).pllTimeout quad)

/-- QUAD_PLL_UNLOCK. -/
def execQuadPllUnlock (dt : Nat) (quad : Nat) (s : State) : Host.Outcome State Fault Refusal := .next ((s.advance dt).pllUnlock quad)

/-- CDR_LOSS. -/
def execCdrLoss (dt : Nat) (lane : Nat) (s : State) : Host.Outcome State Fault Refusal := .next ((s.advance dt).cdrLoss lane)

end Sys2Proof.Machine
end

