-- ==== Sys2Proof/Machine/Snapshot.lean ====
section
/-! DEFINITION. The summary snapshot (R62, R63), and the device and firmware commands (R342 to R345, R51). -/

namespace Sys2Proof.Machine

open Sys2Proof

/-! ### The snapshot (R62 to R64) -/

/-- One head's part of the snapshot. -/
def snapHead (s : State) (h : Nat) : SnapHead :=
  let r := s.headRt h
  { state := r.state.code, hpd := r.hpd, fenced := s.isFenced h, ribbon := decide ((s.lay.head h).ribbon ≠ 0), lanes := r.lanes }

/-- A channel as SUM_TXN and the seal owner name it: the ring number, or 0xFFFF for the UART. -/
def chanCode : Channel → Nat
  | .ring n => n
  | .uart => 0xFFFF

/-- One open transaction's part of the snapshot. -/
def snapTxn (t : Txn) : SnapTxn :=
  { id := t.id, staged := t.staged.length, channel := chanCode t.channel, lastFrame := t.lastFrame }

/-- One domain's part: the offset is that of the other domain to it, the age in µs (R63). -/
def snapTd (s : State) (d : Nat) : SnapTd :=
  let x := s.time.domain d
  { status := x.state.code, active := decide (s.time.active = d), gm := x.gm,
    offset := if d = 0 then s.time.offset else ((s.time.td0.units : Int) - s.time.td1.units) / nsUnit,
    syncAgeUs := match x.lastSync with
      | none => Config.noSyncAge d
      | some t => (s.time.upTicks - t) / 500 }

/-- The latest commit accepted but not yet applied, and its frame (R63). Internal versions hold no transaction. -/
def lastScheduled (vs : List Version) : Nat × Nat :=
  vs.foldl (fun a v => match v.txns.getLast? with | none => a | some t => (t, v.frame)) (0, 0)

/-- Whether the Braid runs single-strand (R163 to R168): a strand that does not compose beside the holder. -/
def Braid.single (b : Braid) : Bool :=
  let out := fun x => match x with
    | StrandState.comparing => false
    | .probation _ => false
    | _ => true
  out b.strandA || out b.strandB

/-- The fields whose change raises the generation (R62). -/
def State.snapCore (s : State) : SnapCore :=
  { devState := s.dev.code
    boundVoidAny := !s.stop.bound.void.isEmpty
    singleStrand := s.braid.single
    reserveOn := decide (s.lay.dev.memReserve = 1)
    fieldLocked := s.fuses.fieldLocked
    bootId := s.bk.bootId
    startCount := s.bk.startCount
    committedTxn := s.splice.committedTxn
    committedFrame := s.splice.committedFrame
    scheduledTxn := (lastScheduled s.splice.versions).1
    scheduledFrame := (lastScheduled s.splice.versions).2
    heads := (List.range 32).map (snapHead s)
    txns := s.txns.open_.map snapTxn
    fenced := s.flt.fenced
    boundCond := condMask s.stop.bound.failing
    boundVoid := s.stop.bound.void
    tds := [snapTd s 0, snapTd s 1]
    firstErr := (List.range 3).map (fun c => s.flt.first.get {} c) }

/-- A snapshot's fields that do not count as changes, and the generation `g` (R62, R63). -/
def State.snapshot (s : State) (g frame line : Nat) : Snapshot :=
  { generation := g
    wallFrame := frame
    wallLine := line
    core := s.snapCore
    headCounts := (List.range 32).map (fun h => (s.counter 0x05 h 2, s.counter 0x05 h 1, s.counter 0x03 h 5))
    faultCounts := s.flt.srcs.map (fun e => (e.1, e.2.count))
    evtSeqs := (s.log.recs.take 64).map (fun e => e.seq) }

/-- Install a snapshot and write it to the mirror (R64). -/
def State.putSnapshot (x : Snapshot) (s : State) : State :=
  { s with snap := x, generation := x.generation, mirror := { s.mirror with snapCount := s.mirror.snapCount + 2, snap := x } }

/-- The snapshot of wall line 0: the generation rises by one when a field has changed (R62). -/
def State.wallSnapshot (s : State) : State :=
  s.putSnapshot (s.snapshot (if s.snapCore = s.snap.core then s.generation else s.generation + 1) s.raster.frame 0)

/-- The snapshot that SUMMARY takes where no raster runs: zero wall fields, a new generation (R62). -/
def State.commandSnapshot (s : State) : State := s.putSnapshot (s.snapshot (s.generation + 1) 0 0)

/-! ### Commands -/

/-- IDENTIFY (R338, R342). -/
def specIdentify : CmdSpec := { opcode := 0x0001, legal := 0x7E, exempt := true }

/-- The ordering code as sixteen ASCII bytes: OW96-IF-B1 for a field-locked part, OW96-IO-B1 for an open one (R22, R342). -/
def orderCode (locked : Bool) : List Int := [79, 87, 57, 54, 45, 73, if locked then 70 else 79, 45, 66, 49, 0, 0, 0, 0, 0, 0]

/-- IDENTIFY (R342). -/
def cmdIdentify (c : CmdHdr) (s : State) : State :=
  s.serve specIdentify c none (fun s => s.ok specIdentify c
    (.words (([0x5796, 0xB1, if s.fuses.fieldLocked then 1 else 0, 1, s.boot.fwVersion, s.boot.fwSlot, s.bk.strapChoice,
              s.fuses.dieId, s.bk.bootId] : List Int) ++ orderCode s.fuses.fieldLocked)) 64)

/-- SUMMARY (R338). -/
def specSummary : CmdSpec := { opcode := 0x0002, legal := 0x7E, exempt := true }

/-- SUMMARY (R62, R63): the latest snapshot, or one taken now where the raster does not run. -/
def cmdSummary (c : CmdHdr) (s : State) : State :=
  s.serve specSummary c none (fun s =>
    let s := if s.raster.started then s else s.commandSnapshot
    s.ok specSummary c (.summary s.snap) 2560)

/-- READ_LOG (R338). -/
def specReadLog : CmdSpec := { opcode := 0x0003, legal := 0x7E, len := 12, exempt := true }

/-- Records of `size` bytes after `fixed` bytes of reply data that fit the transport and the completion ring (R341). -/
def State.fits (s : State) (ch : Channel) (fixed size : Nat) : Nat :=
  match ch with
  | .uart => (4080 - 24 - fixed) / size
  | .ring n => (min 65532 ((s.ring n).cplSlots * 64 - 16) - 24 - fixed) / size

/-- READ_LOG (R343). -/
def cmdReadLog (c : CmdHdr) (logFrom max : Nat) (s : State) : State :=
  s.serve specReadLog c (firstBad [(8, inRange 1 2046 max)]) (fun s =>
    let recs := (s.log.recs.reverse.filter (fun e => decide (logFrom ≤ e.seq))).take (min max (s.fits c.ch 16 32))
    s.ok specReadLog c (.events ((recs.head?.map (fun e => e.seq)).getD s.log.next) recs.length recs) (16 + 32 * recs.length))

/-- RESET (R338). -/
def specReset : CmdSpec := { opcode := 0x0004, legal := 0x7E, exempt := true }

/-- The chip reset that RESET asks for follows its written reply (R51): where the completion ring cannot take the reply, the reset
waits for it. -/
def State.resetAfterReply (ch : Channel) (s : State) : State :=
  match ch with
  | .uart => s.chipReset .command
  | .ring n => if (s.ring n).held.isEmpty then s.chipReset .command else { s with bg := { s.bg with resetDue := some n } }

/-- A reset that waits for its reply on ring `n` follows once the ring holds no reply (R51). -/
def State.resetIfDue (n : Nat) (s : State) : State :=
  if s.bg.resetDue = some n && (s.ring n).held.isEmpty then s.chipReset .command else s

/-- RESET: the reply, then the chip reset (R51). -/
def cmdReset (c : CmdHdr) (s : State) : State :=
  s.serve specReset c none (fun s => (s.ok specReset c .empty 0).resetAfterReply c.ch)

/-- CLEAR_START_COUNT (R338). -/
def specClearStartCount : CmdSpec := { opcode := 0x0005, legal := 0x04 }

/-- The start record that is written next (R427, R438, R443). -/
def Flash.nextStart (f : Flash) (count reserved : Nat) : StartRec :=
  { seq := ((f.startRec.map (fun r => r.seq)).getD 0) + 1, count := count, txnReserved := reserved }

/-- Write the older copy of the start record, where flash is fitted (R427, R438, R443). -/
def State.writeStart (count reserved : Nat) (s : State) : State :=
  let r := s.flash.nextStart count reserved
  if s.flash.fitted then
    { s with flash := { s.flash with startRec := some r }, out := { s.out with flash := (startRecAt r.seq, startRecBytes r) :: s.out.flash } }
  else s

/-- START_COUNT and the start record become `n`; a record is written only where flash is fitted (R427, R438). -/
def State.setStartCount (n : Nat) (s : State) : State :=
  ({ s with bk := { s.bk with startCount := n } }).writeStart n ((s.flash.startRec.map (fun (r : StartRec) => r.txnReserved)).getD 0)

/-- CLEAR_START_COUNT (R344, R428). -/
def cmdClearStartCount (c : CmdHdr) (s : State) : State :=
  s.serve specClearStartCount c none (fun s => (s.setStartCount 0).ok specClearStartCount c .empty 0)

/-! ### Firmware load (R345, R429) -/

/-- FW_BEGIN (R338). -/
def specFwBegin : CmdSpec := { opcode := 0x0006, legal := 0x0C, len := 8 }

/-- The slot a load targets: the staging area in RECOVERY under a host or UART boot source, otherwise the flash image
that does not run (R345, R429). -/
def bootSource (strap : Nat) : BootSource :=
  if strap < 4 || 12 ≤ strap then .xspi else if strap < 8 then .pcie else .uart

/-- The target of FW_BEGIN. -/
def State.fwTarget (s : State) : Nat :=
  if s.dev = .recovery && bootSource s.bk.strapChoice ≠ .xspi && !s.bk.strapAmbig then 2
  else if s.boot.fwSlot = 0 && s.boot.cleatUp then 1 else if s.boot.fwSlot = 1 then 0
  else if s.flash.slotA.valid && s.flash.slotB.seq ≤ s.flash.slotA.seq then 1 else 0

/-- Write a slot's header. -/
def Flash.setSlot (f : Flash) (slot : Nat) (x : ImageSlot) : Flash :=
  if slot = 0 then { f with slotA := x } else if slot = 1 then { f with slotB := x } else { f with staged := x }

/-- A slot's header. -/
def Flash.slot (f : Flash) (slot : Nat) : ImageSlot := if slot = 0 then f.slotA else if slot = 1 then f.slotB else f.staged

/-- Mark a slot invalid; the staging area's mark is STAGE_VALID. -/
def State.voidSlot (slot : Nat) (s : State) : State :=
  { s with
    flash := s.flash.setSlot slot { s.flash.slot slot with valid := false }
    bk := if slot = 2 then { s.bk with stageValid := false } else s.bk }

/-- FW_BEGIN (R345): the slot is being written from here on and holds no valid image. -/
def cmdFwBegin (c : CmdHdr) (size : Nat) (s : State) : State :=
  s.serve specFwBegin c (firstBad [(0, decide (size % 4 = 0) && decide (size ≤ 8388608))]) (fun s =>
    if s.fw.open_ then s.refuse specFwBegin c .eBusy 0
    else
      let t := s.fwTarget
      ({ (s.voidSlot t) with fw := { open_ := true, slot := t, size := size, idleFrom := s.time.upTicks } }).ok
        specFwBegin c (.words [t]) 4)

/-- FW_DATA with `n` data bytes (R338). -/
def specFwData (n : Nat) : CmdSpec := { opcode := 0x0007, legal := 0x0C, len := 4 + n }

/-- FW_DATA (R345, R340): the write goes on in the background and FW_DATA_DONE replies. -/
def cmdFwData (c : CmdHdr) (offset : Nat) (data : List Byte) (s : State) : State :=
  s.serve (specFwData data.length) c none (fun s =>
    if !s.fw.open_ then s.refuse (specFwData data.length) c .eNotFound 0
    else
      let s := { s with fw := { s.fw with idleFrom := s.time.upTicks } }
      if offset ≠ s.fw.received || s.fw.size < s.fw.received + data.length then s.refuse (specFwData data.length) c .eParam 0
      else { s with
        fw := { s.fw with received := s.fw.received + data.length, data := s.fw.data ++ data }
        bg := { s.bg with fwData := s.bg.fwData ++ [c] } })

/-- FW_END (R338). -/
def specFwEnd : CmdSpec := { opcode := 0x0008, legal := 0x0C }

/-- FW_END (R345): `verifies` is the outcome of the CRC and signature checks over the received bytes. -/
def cmdFwEnd (c : CmdHdr) (verifies : Bool) (imgSeq version : Nat) (s : State) : State :=
  s.serve specFwEnd c none (fun s =>
    if !s.fw.open_ then s.refuse specFwEnd c .eNotFound 0
    else
      let slot := s.fw.slot
      if s.fw.received = s.fw.size && verifies then
        ({ s with
            fw := {}
            flash := s.flash.setSlot slot { valid := true, seq := imgSeq, version := version }
            bk := if slot = 2 then { s.bk with stageValid := true } else s.bk }).ok specFwEnd c (.words [slot, imgSeq]) 4
      else ({ (s.voidSlot slot) with fw := {} }).refuse specFwEnd c .eAuth 0)

/-- FW_LOAD_TIMEOUT (R345). -/
def State.fwTimeout (s : State) : State :=
  if s.fw.open_ then { (s.voidSlot s.fw.slot) with fw := {} } else s

/-! ### Memory map and palette (R183, R292, R346, R347) -/

/-- MEM_CONFIG (R338). -/
def specMemConfig : CmdSpec := { opcode := 0x0010, legal := 0x08, len := 4 }

/-- Whether a set defines a source or enables a head (R292). Sources 984 to 1023 are fixed (R86) and do not count. -/
def definesAny (l : Layout) : Bool :=
  l.sources.any (fun e => decide (e.1 < 984) && decide (e.2.kind ≠ 0)) || !l.enabledHeads.isEmpty

/-- Whether the set in force or any scheduled set defines a source or enables a head. -/
def State.definesNow (s : State) : Bool :=
  definesAny s.lay || (s.splice.versions.map (fun v => v.frame)).any (fun f => definesAny (s.layoutAhead f))

/-- MEM_CONFIG (R292, R346): the zero-fill runs in the background. -/
def cmdMemConfig (c : CmdHdr) (grain hash checkInit : Nat) (s : State) : State :=
  s.serve specMemConfig c
    (firstBad [(0, inRange 0 8 grain), (1, inRange 0 1 hash), (2, inRange 0 1 checkInit && (decide (checkInit = 1) || !s.fuses.fieldLocked))])
    (fun s =>
      if s.definesNow then s.refuse specMemConfig c .eState 0
      else { s with bg := { s.bg with memConfig := some (c, grain, hash, checkInit) } })

/-- PALETTE_PROGRAM (R338). -/
def specPalette : CmdSpec := { opcode := 0x0011, legal := 0x08, len := 44 }

/-- The largest component of a colour word. -/
def largest (w : Nat) : Nat := max (w / 1048576 % 1024) (max (w / 1024 % 1024) (w % 1024))

/-- The palette rules of R183, with the offset of the first entry that breaks one: a bright colour where one is asked,
and no two of entries 0, 1, 3, 4 and 5 alike. -/
def paletteBad (ws : List Nat) : Option Nat := firstBad
  (eachField 0 4 colourOk ws ++
   [0, 1, 3, 4, 5, 6, 8].map (fun i => (4 * i, decide (256 ≤ largest (ws.getD i 0)))) ++
   [(0, 1), (0, 3), (0, 4), (0, 5), (1, 3), (1, 4), (1, 5), (3, 4), (3, 5), (4, 5)].map
     (fun p => (4 * p.2, decide (ws.getD p.1 0 ≠ ws.getD p.2 0))) ++
   [(40, decide (ws.getD 10 0 = 0))])

/-- PALETTE_PROGRAM (R183, R347): the fuses blow in the background. -/
def cmdPaletteProgram (c : CmdHdr) (words : List Nat) (s : State) : State :=
  s.serve specPalette c (paletteBad words) (fun s =>
    if s.fuses.paletteProgrammed then s.refuse specPalette c .eLocked 0
    else if !s.pins.vddFuse || s.bg.palette.isSome then s.refuse specPalette c .eBusy 0
    else { s with bg := { s.bg with palette := some (c, words) } })

/-! ### The rows -/

/-- IDENTIFY. -/
def execIdentify (dt : Nat) (c : CmdHdr) (s : State) : Host.Outcome State Fault Refusal := .next (cmdIdentify c (s.advance dt))

/-- SUMMARY. -/
def execSummary (dt : Nat) (c : CmdHdr) (s : State) : Host.Outcome State Fault Refusal := .next (cmdSummary c (s.advance dt))

/-- READ_LOG. -/
def execReadLog (dt : Nat) (c : CmdHdr) (logFrom max : Nat) (s : State) : Host.Outcome State Fault Refusal :=
  .next (cmdReadLog c logFrom max (s.advance dt))

/-- RESET. -/
def execReset (dt : Nat) (c : CmdHdr) (s : State) : Host.Outcome State Fault Refusal := .next (cmdReset c (s.advance dt))

/-- CLEAR_START_COUNT. -/
def execClearStartCount (dt : Nat) (c : CmdHdr) (s : State) : Host.Outcome State Fault Refusal :=
  .next (cmdClearStartCount c (s.advance dt))

/-- FW_BEGIN. -/
def execFwBegin (dt : Nat) (c : CmdHdr) (size : Nat) (s : State) : Host.Outcome State Fault Refusal :=
  .next (cmdFwBegin c size (s.advance dt))

/-- FW_DATA. -/
def execFwData (dt : Nat) (c : CmdHdr) (offset : Nat) (data : List Byte) (s : State) : Host.Outcome State Fault Refusal :=
  .next (cmdFwData c offset data (s.advance dt))

/-- FW_END. -/
def execFwEnd (dt : Nat) (c : CmdHdr) (verifies : Bool) (imgSeq version : Nat) (s : State) : Host.Outcome State Fault Refusal :=
  .next (cmdFwEnd c verifies imgSeq version (s.advance dt))

/-- FW_LOAD_TIMEOUT. -/
def execFwLoadTimeout (dt : Nat) (s : State) : Host.Outcome State Fault Refusal := .next (s.advance dt).fwTimeout

/-- MEM_CONFIG. -/
def execMemConfig (dt : Nat) (c : CmdHdr) (grain hash checkInit : Nat) (s : State) : Host.Outcome State Fault Refusal :=
  .next (cmdMemConfig c grain hash checkInit (s.advance dt))

/-- PALETTE_PROGRAM. -/
def execPaletteProgram (dt : Nat) (c : CmdHdr) (words : List Nat) (s : State) : Host.Outcome State Fault Refusal :=
  .next (cmdPaletteProgram c words (s.advance dt))

end Sys2Proof.Machine
end

