-- ==== Sys2Proof/Machine/Query.lean ====
section
/-! DEFINITION. Queries, counters, faults and debug commands (R371 to R375, R377, R382 to R384). -/

namespace Sys2Proof.Machine

open Sys2Proof

/-! ### Sources, encoders, points, heads (R371 to R374) -/

/-- SOURCE_QUERY (R338). -/
def specSourceQuery : CmdSpec := { opcode := 0x0301, legal := 0x78, len := 4 }

/-- SOURCE_QUERY (R371). -/
def cmdSourceQuery (c : CmdHdr) (source count : Nat) (s : State) : State :=
  s.serve specSourceQuery c (firstBad [(0, inRange 0 1023 source), (2, inRange 1 8 count)]) (fun s =>
    if !srcDefined s.lay source then s.refuse specSourceQuery c .eNotFound source
    else
      let rt := s.srcRt source
      let seals := rt.seals.take (min count (s.fits c.ch 24 64))
      s.ok specSourceQuery c (.source rt.status.latestSeq rt.status.flags (s.lay.source source).kind (s.lay.source source).cls
        rt.status.lastAdvance seals) (24 + 64 * seals.length))

/-- ENC_QUERY (R338). -/
def specEncQuery : CmdSpec := { opcode := 0x0302, legal := 0x78, len := 4 }

/-- ENC_QUERY (R372). -/
def cmdEncQuery (c : CmdHdr) (ctx count : Nat) (s : State) : State :=
  s.serve specEncQuery c (firstBad [(0, inRange 0 31 ctx), (1, inRange 1 8 count)]) (fun s =>
    let r := s.encRt ctx
    let seals := r.seals.take (min count (s.fits c.ch 8 64))
    s.ok specEncQuery c (.encoder r.state.code (r.engine.getD 0xFF) r.k seals) (8 + 64 * seals.length))

/-- POINT_QUERY (R338). -/
def specPointQuery : CmdSpec := { opcode := 0x0303, legal := 0x78, len := 8 }

/-- POINT_QUERY (R373): indices beyond 2^23 − 1 are refused. -/
def cmdPointQuery (c : CmdHdr) (first count : Nat) (s : State) : State :=
  s.serve specPointQuery c (firstBad [(0, decide (first ≤ 8388607)), (4, decide (first + count ≤ 8388608))]) (fun s =>
    let n := min count (s.fits c.ch 8 16)
    s.ok specPointQuery c (.points ((List.range n).map (fun i => s.pts.table.get {} (first + i)))) (8 + 16 * n))

/-- HEAD_QUERY (R338). -/
def specHeadQuery : CmdSpec := { opcode := 0x0304, legal := 0x78, len := 12 }

/-- A section's bytes: DPCD receiver capabilities, LTTPR capabilities, EDID. -/
def headSection (r : HeadRt) (sect : Nat) : List Byte := if sect = 1 then r.dpcdCaps else if sect = 2 then r.lttpr else r.edid

/-- Bytes as numbers. -/
def byteInts (bs : List Byte) : List Int := bs.map (fun b => (b.toNat : Int))

/-- HEAD_QUERY (R374). -/
def cmdHeadQuery (c : CmdHdr) (head sect offset length : Nat) (s : State) : State :=
  s.serve specHeadQuery c (firstBad [(0, inRange 0 31 head), (1, inRange 0 3 sect)]) (fun s =>
    let r := s.headRt head
    if sect = 0 then
      s.ok specHeadQuery c (.words (([r.state.code, r.rate, r.lanes, r.n, r.frame] : List Int) ++ byteInts r.dpcdStatus)) 32
    else
      let bs := ((headSection r sect).drop offset).take (min length (s.fits c.ch 8 1))
      s.ok specHeadQuery c (.bytes (headSection r sect).length bs) (8 + bs.length))

/-! ### Counters (R375) -/

/-- COUNTER_READ (R338). -/
def specCounterRead : CmdSpec := { opcode := 0x0305, legal := 0x78, len := 4 }

/-- Words of a counter block and the range of its instances (R375). -/
def counterBlock : Nat → Option (Nat × Nat × Nat)
  | 0x01 => some (11, 0, 1023)
  | 0x02 => some (10, 0, 255)
  | 0x03 => some (6, 0, 31)
  | 0x04 => some (5, 0, 0)
  | 0x05 => some (13, 0, 31)
  | 0x06 => some (7, 0, 31)
  | 0x07 => some (2, 0, 3)
  | 0x08 => some (9, 0, 1023)
  | 0x09 => some (4, 0, 0)
  | 0x0A => some (5, 0, 31)
  | 0x0B => some (12, 0, 31)
  | 0x0C => some (10, 0, 1)
  | 0x0D => some (1, 0, 0)
  | 0x0E => some (1, 0, 1)
  | 0x0F => some (2, 0, 3)
  | 0x10 => some (13, 0, 15)
  | 0x11 => some (6, 0, 31)
  | 0x12 => some (5, 0, 23)
  | 0x13 => some (3, 0, 0)
  | 0x14 => some (5, 8, 95)
  | 0x15 => some (1, 2, 23)
  | 0x16 => some (4, 0, 1023)
  | 0x17 => some (3, 0, 7)
  | 0x18 => some (3, 0, 15)
  | _ => none

/-- Zero the counters of one instance. -/
def State.clearCounters (block inst n : Nat) (s : State) : State :=
  (List.range n).foldl (fun s i => s.setCounter block inst i 0) s

/-- The field checks of COUNTER_READ: a block of the list, the flags, and an instance of the block (R375). -/
def counterBad (block flags inst : Nat) : Option Nat := firstBad
  [(0, (counterBlock block).isSome), (1, inRange 0 1 flags), (2, (counterBlock block).all (fun x => inRange x.2.1 x.2.2 inst))]

/-- The counters that a read returns: how many, the wall frame, and the words (R375). -/
def State.counterWords (s : State) (block inst n : Nat) : List Int :=
  (n : Int) :: (s.raster.frame : Int) :: (List.range n).map (fun i => (s.counter block inst i : Int))

/-- COUNTER_READ (R375): the read and the clear are one operation. -/
def cmdCounterRead (c : CmdHdr) (block flags inst : Nat) (s : State) : State :=
  s.serve specCounterRead c (counterBad block flags inst) (fun s =>
    let n := ((counterBlock block).map (fun x => x.1)).getD 0
    (if flags = 1 then s.clearCounters block inst n else s).ok specCounterRead c (.words (s.counterWords block inst n)) (16 + 4 * n))

/-! ### Time status (R377) -/

/-- TIME_STATUS (R338). -/
def specTimeStatus : CmdSpec := { opcode := 0x0402, legal := 0x78, len := 8 }

/-- One domain's part of section 0 (R377). -/
def domainWords (x : Domain) : List Int :=
  [x.state.code, x.utcOffset, x.sampleSeq, x.incr, x.units % nsUnit, x.units / nsUnit % 1000000000, x.units / nsUnit / 1000000000, x.gm]

/-- TIME_STATUS (R377): captures that a reply returns leave the input's records (R264), samples count as read (R258). -/
def cmdTimeStatus (c : CmdHdr) (sect sel start : Nat) (s : State) : State :=
  s.serve specTimeStatus c (firstBad [(0, inRange 0 2 sect), (1, decide (sect = 0) || inRange 0 1 sel)]) (fun s =>
    let t := s.time
    if sect = 0 then
      s.ok specTimeStatus c (.words (([t.resid / nsUnit, t.offset, t.active, t.pendingSwitch.getD 0xFF] : List Int) ++
        domainWords t.td0 ++ domainWords t.td1)) 120
    else if sect = 1 then
      let xs := ((t.domain sel).samples.reverse.filter (fun x => decide (start ≤ x.seq))).take (s.fits c.ch 8 40)
      (s.modDomain sel (fun x => { x with unread := x.unread.filter (fun q => !xs.any (fun y => decide (y.seq = q))) })).ok
        specTimeStatus c (.samples xs) (8 + 40 * xs.length)
    else
      let xs := (t.tpi.get [] sel).take (s.fits c.ch 8 32)
      ({ s with time := { t with tpi := t.tpi.set [] sel ((t.tpi.get [] sel).drop xs.length) } }).ok
        specTimeStatus c (.tpis xs) (8 + 32 * xs.length))

/-! ### Faults (R382, R383, R406 to R410) -/

/-- FAULT_QUERY (R338). -/
def specFaultQuery : CmdSpec := { opcode := 0x0600, legal := 0x78, len := 4 }

/-- FAULT_QUERY (R382). -/
def cmdFaultQuery (c : CmdHdr) (first count : Nat) (s : State) : State :=
  s.serve specFaultQuery c (firstBad [(0, inRange 0 255 first), (2, inRange 1 256 count)]) (fun s =>
    let n := min (min count (256 - first)) (s.fits c.ch 96 8)
    s.ok specFaultQuery c (.faults ((List.range 3).map (fun k => s.flt.first.get {} k))
      ((List.range n).map (fun i => ((s.faultSrc (first + i)).count, (srcInfo (first + i)).cls, s.faultMask (first + i))))) (96 + 8 * n))

/-- FAULT_REACT (R338). -/
def specFaultReact : CmdSpec := { opcode := 0x0601, legal := 0x38, len := 4 }

/-- Whether a source takes a mask (R406). -/
def maskOk (source mask : Nat) : Bool :=
  let i := srcInfo source
  decide (mask &&& i.fixed = i.fixed) && decide (mask &&& i.forbid = 0) && (!mask.testBit 2 || namesUnit source) &&
    (!mask.testBit 3 || namesBlock source)

/-- FAULT_REACT: the mask acts from the next wall line 0 (R383). -/
def cmdFaultReact (c : CmdHdr) (source mask : Nat) (s : State) : State :=
  s.serve specFaultReact c (firstBad [(0, inRange 0 255 source), (2, decide (mask < 128) && maskOk source mask)]) (fun s =>
    (s.modFaultSrc source (fun x => { x with next := some mask })).ok specFaultReact c .empty 0)

/-- FAULT_REARM (R338). -/
def specFaultRearm : CmdSpec := { opcode := 0x0602, legal := 0x78, len := 4 }

/-- Rearm the classes of a mask: their first-error records become empty and their FAULT_N latches clear; bit 7 clears
the counts of their sources (R383, R407, R408, R414). -/
def State.rearm (classes : Nat) (s : State) : State :=
  let hit := fun k => classes.testBit k
  { s with flt := { s.flt with
      first := s.flt.first.filter (fun e => !hit e.1)
      latchClasses := s.flt.latchClasses.filter (fun k => !hit k)
      srcs := if classes.testBit 7 then
          (s.flt.srcs.map (fun e => if hit (srcInfo e.1).cls then (e.1, { e.2 with count := 0 }) else e)).filter (fun e => decide (e.2 ≠ {}))
        else s.flt.srcs } }

/-- FAULT_REARM (R383). -/
def cmdFaultRearm (c : CmdHdr) (classes : Nat) (s : State) : State :=
  s.serve specFaultRearm c (firstBad [(0, decide (classes &&& 0x87 = classes))]) (fun s =>
    (s.rearm classes).ok specFaultRearm c .empty 0)

/-- UNIT_RESTORE (R338). -/
def specUnitRestore : CmdSpec := { opcode := 0x0603, legal := 0x38, len := 4 }

/-- UNIT_RESTORE (R383, R409, R410): the unit's test starts, but for a Stopper unit, whose count runs by itself. -/
def cmdUnitRestore (c : CmdHdr) (unit : Nat) (s : State) : State :=
  s.serve specUnitRestore c (firstBad [(0, inRange 0 127 unit)]) (fun s =>
    if !s.isFenced unit then s.refuse specUnitRestore c .eNotFound unit
    else if hasNat unit s.flt.untilReset || unit = 44 || unit = 45 then s.refuse specUnitRestore c .eFenced unit
    else if inRange 46 49 unit then s.ok specUnitRestore c .empty 0
    else ({ s with flt := { s.flt with tests := s.flt.tests.filter (fun (x : Nat × Bool) => decide (x.1 ≠ unit)) ++ [(unit, true)] } }).ok
      specUnitRestore c .empty 0)

/-- The source that a failed test of a unit counts as (R410): the unit's own source. -/
def unitSource (u : Nat) : Nat :=
  if u < 46 then u else if u < 50 then u + 6 else if u < 80 then 70 else if u < 82 then 71 else if u < 104 then u
  else if u < 120 then 59 else 60

/-- UNIT_TEST_DONE (R410, R416): a test during which the unit's source fired fails; a passing unit returns at its next
boundary: a head at its next head frame start, any other at wall line 0. -/
def State.unitTestDone (u : Nat) (pass : Bool) (s : State) : State :=
  match List.find? (fun (t : Nat × Bool) => decide (t.1 = u)) s.flt.tests with
  | none => s
  | some t =>
    let s := { s with flt := { s.flt with tests := s.flt.tests.filter (fun (x : Nat × Bool) => decide (x.1 ≠ u)) } }
    if pass && t.2 && !hasNat u s.flt.untilReset then { s with flt := { s.flt with passedTests := insertSorted u s.flt.passedTests } }
    else s.fireSrc (unitSource u) u 0xFFFF

/-! ### Debug unlock (R384, R397) -/

/-- DEBUG_CHALLENGE (R338). -/
def specDebugChallenge : CmdSpec := { opcode := 0x0604, legal := 0x78 }

/-- DEBUG_CHALLENGE (R384): a fresh challenge, a free value, replaces the last. -/
def cmdDebugChallenge (c : CmdHdr) (s : State) : State :=
  s.serve specDebugChallenge c none (fun s =>
    let f := s.takeFree
    ({ f.2 with auth := { f.2.auth with challenge := some f.1 } }).ok specDebugChallenge c
      (.words [((f.1 % 340282366920938463463374607431768211456 : Nat) : Int), (s.fuses.dieId : Int)]) 24)

/-- DEBUG_UNLOCK (R338). -/
def specDebugUnlock : CmdSpec := { opcode := 0x0605, legal := 0x78, len := 64 }

/-- DEBUG_UNLOCK (R384): `verifies` says whether the response is Nalerelm's signature over the challenge and ID_DIE. -/
def cmdDebugUnlock (c : CmdHdr) (verifies : Bool) (s : State) : State :=
  s.serve specDebugUnlock c none (fun s =>
    if !s.fuses.fieldLocked then s.ok specDebugUnlock c .empty 0
    else if s.auth.lockout then s.refuse specDebugUnlock c .eBusy 0
    else if verifies && s.auth.challenge.isSome then
      ({ s with auth := { s.auth with unlocked := true, failures := 0 } }).ok specDebugUnlock c .empty 0
    else
      let n := s.auth.failures + 1
      ({ s with auth := { s.auth with failures := if n = 3 then 0 else n, lockout := decide (n = 3) } }).refuse specDebugUnlock c .eAuth 0)

/-! ### The rows -/

/-- SOURCE_QUERY. -/
def execSourceQuery (dt : Nat) (c : CmdHdr) (source count : Nat) (s : State) : Host.Outcome State Fault Refusal :=
  .next (cmdSourceQuery c source count (s.advance dt))

/-- ENC_QUERY. -/
def execEncQuery (dt : Nat) (c : CmdHdr) (ctx count : Nat) (s : State) : Host.Outcome State Fault Refusal :=
  .next (cmdEncQuery c ctx count (s.advance dt))

/-- POINT_QUERY. -/
def execPointQuery (dt : Nat) (c : CmdHdr) (first count : Nat) (s : State) : Host.Outcome State Fault Refusal :=
  .next (cmdPointQuery c first count (s.advance dt))

/-- HEAD_QUERY. -/
def execHeadQuery (dt : Nat) (c : CmdHdr) (head sect offset length : Nat) (s : State) : Host.Outcome State Fault Refusal :=
  .next (cmdHeadQuery c head sect offset length (s.advance dt))

/-- COUNTER_READ. -/
def execCounterRead (dt : Nat) (c : CmdHdr) (block flags inst : Nat) (s : State) : Host.Outcome State Fault Refusal :=
  .next (cmdCounterRead c block flags inst (s.advance dt))

/-- TIME_STATUS. -/
def execTimeStatus (dt : Nat) (c : CmdHdr) (sect sel start : Nat) (s : State) : Host.Outcome State Fault Refusal :=
  .next (cmdTimeStatus c sect sel start (s.advance dt))

/-- FAULT_QUERY. -/
def execFaultQuery (dt : Nat) (c : CmdHdr) (first count : Nat) (s : State) : Host.Outcome State Fault Refusal :=
  .next (cmdFaultQuery c first count (s.advance dt))

/-- FAULT_REACT. -/
def execFaultReact (dt : Nat) (c : CmdHdr) (source mask : Nat) (s : State) : Host.Outcome State Fault Refusal :=
  .next (cmdFaultReact c source mask (s.advance dt))

/-- FAULT_REARM. -/
def execFaultRearm (dt : Nat) (c : CmdHdr) (classes : Nat) (s : State) : Host.Outcome State Fault Refusal :=
  .next (cmdFaultRearm c classes (s.advance dt))

/-- UNIT_RESTORE. -/
def execUnitRestore (dt : Nat) (c : CmdHdr) (unit : Nat) (s : State) : Host.Outcome State Fault Refusal :=
  .next (cmdUnitRestore c unit (s.advance dt))

/-- UNIT_TEST_DONE. -/
def execUnitTestDone (dt : Nat) (unit : Nat) (pass : Bool) (s : State) : Host.Outcome State Fault Refusal :=
  .next ((s.advance dt).unitTestDone unit pass)

/-- DEBUG_CHALLENGE. -/
def execDebugChallenge (dt : Nat) (c : CmdHdr) (s : State) : Host.Outcome State Fault Refusal :=
  .next (cmdDebugChallenge c (s.advance dt))

/-- DEBUG_UNLOCK. -/
def execDebugUnlock (dt : Nat) (c : CmdHdr) (verifies : Bool) (s : State) : Host.Outcome State Fault Refusal :=
  .next (cmdDebugUnlock c verifies (s.advance dt))

/-- DEBUG_CHALLENGE_EXPIRY (R384). -/
def execDebugChallengeExpiry (dt : Nat) (s : State) : Host.Outcome State Fault Refusal :=
  .next { s.advance dt with auth := { s.auth with challenge := none } }

/-- DEBUG_LOCKOUT_EXPIRY (R384). -/
def execDebugLockoutExpiry (dt : Nat) (s : State) : Host.Outcome State Fault Refusal :=
  .next { s.advance dt with auth := { s.auth with lockout := false } }

end Sys2Proof.Machine
end

