-- ==== Sys2Proof/Machine/Checks.lean ====
section
/-! DEFINITION. Whipping compare units (R191, R378), signature probes (R192, R379), and lane tests (R326 to R330, R380). -/

namespace Sys2Proof.Machine

open Sys2Proof

/-! ### Compare units (R191, R378, R394) -/

/-- A compare unit. -/
def State.whip (s : State) (u : Nat) : Whip := s.stop.whips.get {} u

/-- Apply `f` to a compare unit. -/
def State.modWhip (u : Nat) (f : Whip → Whip) (s : State) : State := { s with stop := { s.stop with whips := s.stop.whips.modify {} u f } }

/-- WHIP_SET (R338). -/
def specWhipSet : CmdSpec := { opcode := 0x0500, legal := 0x38, len := 36 }

/-- The field checks of WHIP_SET (R191, R378). -/
def checkWhip (p : WhipParams) : Option Nat :=
  if p.query = 1 then firstBad
    [(0, decide (p.unit ≤ 55)), (1, decide (p.mode = 0)), (2, decide (p.stop = 0)), (4, decide (p.source = 0)), (8, decide (p.addr = 0)),
     (16, decide (p.len = 0)), (20, decide (p.seq = 0)), (24, decide (p.owner = 0)), (28, decide (p.expect = 0)), (32, decide (p.period = 0))]
  else firstBad
    [(0, decide (p.unit ≤ 55)), (1, decide (p.mode ≤ 2)), (2, decide (p.stop ≤ 1)), (3, decide (p.query ≤ 1)),
     (4, decide (p.mode ≠ 2) || decide (p.source ≤ 1023)), (8, decide (p.mode ≠ 1) || decide (p.addr % 4 = 0)),
     (16, decide (p.mode ≠ 1) || (inRange 4 67108864 p.len && decide (p.len % 4 = 0))), (32, decide (p.mode ≠ 1) || inRange 1 65535 p.period)]

/-- The settings that WHIP_SET carries. -/
def whipCfgOf (p : WhipParams) : WhipCfg :=
  { mode := p.mode, stop := decide (p.stop = 1), source := p.source, addr := p.addr, len := p.len, seq := p.seq, owner := p.owner,
    expect := p.expect, period := p.period }

/-- WHIP_SET (R378): a query changes nothing; new settings wait for the next wall line 0. -/
def cmdWhipSet (c : CmdHdr) (p : WhipParams) (s : State) : State :=
  s.serve specWhipSet c (checkWhip p) (fun s =>
    let w := s.whip p.unit
    let s := if p.query = 1 then s else s.modWhip p.unit (fun w => { w with next := some (whipCfgOf p) })
    s.ok specWhipSet c (.words [w.value, w.checks, w.mismatches, w.abandoned]) 16)

/-- At wall line 0 a compare unit takes its new settings, and what it had in progress is abandoned (R378). -/
def Whip.take (w : Whip) : Whip :=
  match w.next with
  | none => w
  | some c => { cfg := c, value := w.value, abandoned := w.checking.length }

/-- At wall line 0 a mode-1 unit starts a check every WHIP_PERIOD wall frames (R191). -/
def Whip.tick (w : Whip) : Whip :=
  if w.cfg.mode ≠ 1 || w.stopped then w
  else if w.waited = 0 then { w with checking := if w.checking.isEmpty then [none] else w.checking, waited := w.cfg.period - 1 }
  else { w with waited := w.waited - 1 }

/-- The compare units at wall line 0; SAFE stops them (R378, R413). -/
def State.whipLine0 (s : State) : State :=
  if s.dev = .safe then s else { s with stop := { s.stop with whips := s.stop.whips.map (fun e => (e.1, e.2.take.tick)) } }

/-- The accesses of at most 4,096 bytes that cover `n` bytes from `a` (R391). -/
def chunksOf (a n : Nat) : List (Nat × Nat) := (List.range ((n + 4095) / 4096)).map (fun i => (a + 4096 * i, min 4096 (n - 4096 * i)))

/-- The Whipping master reads a region through Lashing; the first access that fails ends the reading (R191, R394). -/
def State.whipRead : List (Nat × Nat) → State → Bool × State
  | [], s => (true, s)
  | x :: t, s =>
    let r := s.access 38 false x.1 x.2
    if r.1 then State.whipRead t r.2 else r

/-- The bytes of a region. -/
def State.bytesAt (s : State) (a n : Nat) : List Byte := (List.range n).map (fun i => s.byteAt (a + i))

/-- The region of a check. -/
def State.whipRegion (s : State) (w : Whip) : Option Seal → Nat × Nat
  | none => (w.cfg.addr, w.cfg.len)
  | some x => (x.bufAddr, ((s.srcRt x.source).bufOf x.seq).elim 0 (fun b => ((s.srcRt x.source).bufs.get {} b).span))

/-- The value that a check computes. -/
def State.whipValue (s : State) (w : Whip) : Option Seal → Word
  | none => foldCrc w.cfg.addr w.cfg.seq w.cfg.owner (s.bytesAt w.cfg.addr w.cfg.len)
  | some x => foldCrc x.bufAddr x.seq x.source (((s.srcRt x.source).bufOf x.seq).elim [] (fun b => ((s.srcRt x.source).bufs.get {} b).data))

/-- The value that a check expects. -/
def whipExpect (w : Whip) : Option Seal → Word
  | none => BitVec.ofNat 32 w.cfg.expect
  | some x => x.payloadCrc

/-- WHIP_CHECK_DONE (R191, R302, R394): the unit's check ends; a denied or uncorrectable read is a mismatch, and a mismatch
raises the unit's source. -/
def State.whipDone (u : Nat) (readOk : Bool) (s : State) : State :=
  match (s.whip u).checking with
  | [] => s
  | x :: t =>
    if s.dev = .safe then s
    else
      let w := s.whip u
      let g := s.whipRegion w x
      let r := s.whipRead (chunksOf g.1 g.2)
      let s := r.2
      let v := s.whipValue w x
      let bad := !r.1 || !readOk || decide (v ≠ whipExpect w x)
      let stop := bad && w.cfg.stop
      let s := s.modWhip u (fun w => { w with
        checking := if stop then [] else t, stopped := w.stopped || stop, checks := w.checks + 1
        value := if r.1 && readOk then v.toNat else w.value, mismatches := w.mismatches + (if bad then 1 else 0) })
      if bad then s.fireSrc (104 + u) 0xFFFF (x.elim 0xFFFF (fun y => y.source)) else s

/-! ### Probes (R192, R379) -/

/-- PROBE_SET (R338). -/
def specProbeSet : CmdSpec := { opcode := 0x0501, legal := 0x38, len := 20 }

/-- The field checks of PROBE_SET (R192, R379). -/
def checkProbe (s : State) (p : ProbeParams) : Option Nat :=
  let c := s.lay.head p.head
  firstBad
    [(0, decide (p.group ≤ 7)), (1, decide (p.probe ≤ 3)), (2, decide (p.mode ≤ 2)), (3, decide (p.mode ≠ 2) || inRange 2 255 p.n),
     (4, decide (p.head / 4 = p.group)), (8, decide (p.x ≤ c.hActive)), (10, decide (p.y ≤ c.vActive)),
     (12, decide (p.x + p.w ≤ c.hActive)), (14, decide (p.y + p.h ≤ c.vActive))]

/-- PROBE_SET (R379): Bowline writes the probe, and it takes effect at the head's next head frame start. -/
def cmdProbeSet (c : CmdHdr) (p : ProbeParams) (s : State) : State :=
  s.serve specProbeSet c (checkProbe s p) (fun s =>
    let q := (s.stop.sigs.get {} p.group).probes.get {} p.probe
    let cfg : ProbeCfg := { mode := p.mode, n := p.n, head := p.head, rect := { x := p.x, y := p.y, w := p.w, h := p.h }, expect := BitVec.ofNat 32 p.expect }
    let s := { s with stop := { s.stop with sigs := s.stop.sigs.modify {} p.group (fun u =>
      { u with probes := u.probes.modify {} p.probe (fun q => { q with next := some cfg }) }) } }
    s.ok specProbeSet c (.words [q.latest.toNat, q.failures]) 8)

/-! ### Lane tests (R326 to R330, R335, R380) -/

/-- LANE_TEST (R338). -/
def specLaneTest : CmdSpec := { opcode := 0x0502, legal := 0x38, len := 8 }

/-- A field of a LANE_TEST_CTRL word (R326). -/
def ctrlField (w lo n : Nat) : Nat := w / 2 ^ lo % 2 ^ n

/-- The field checks of LANE_TEST: lanes LN8 to LN95, no reserved code, and a zero word for a read (R326, R328, R380). -/
def checkLaneTest (lane flags ctrl : Nat) : Option Nat := firstBad
  [(0, inRange 8 95 lane), (1, decide (flags ≤ 1)),
   (4, if flags = 1 then decide (ctrlField ctrl 0 3 ≤ 5) && decide (ctrlField ctrl 13 4 ≤ 9) && decide (ctrl < 2 ^ 17) else decide (ctrl = 0))]

/-- Whether R328 refuses the test: an unassigned quad, a test that takes a lane from its user, or a rate that takes the PLL from
the users of the quad. -/
def State.laneBusy (s : State) (lane ctrl : Nat) : Bool :=
  decide ((s.lay.quads.get {} (quadOf lane)).mode = 0) ||
  (laneUsed s.lay lane && (decide (ctrlField ctrl 3 2 ≠ 0) || decide (ctrlField ctrl 6 2 ≠ 0))) ||
  (quadUsed s.lay (quadOf lane) && decide (ctrlField ctrl 13 4 ≠ 0))

/-- Whether R329 refuses an injection: on a lane with an enabled user of a field-locked part. -/
def State.laneLocked (s : State) (lane ctrl : Nat) : Bool :=
  laneUsed s.lay lane && s.fuses.fieldLocked && (decide (ctrlField ctrl 8 1 ≠ 0) || decide (ctrlField ctrl 9 4 ≠ 0))

/-- The paths of a lane under a LANE_TEST_CTRL word: LOOPBACK 1 and 2 turn the transmitter off and feed the receiver from the lane
itself, and 3 sends the received data out (R326, R330). -/
def LaneRt.connect (r : LaneRt) : LaneRt :=
  let w := r.ctrl.toNat
  let loop := ctrlField w 6 2
  { r with
    feed := if loop = 1 then .ownPcs else if loop = 2 then .ownSerial else .pins
    drive := if loop = 3 then .received else if loop ≠ 0 then .off
      else if ctrlField w 3 1 = 1 then .pattern (ctrlField w 0 3) (decide (ctrlField w 5 1 = 1)) else .user }

/-- The word is written: INJ_ONE inverts one bit and reads 0, a rising CHK_EN clears the checker, and a new TEST_RATE moves the
quad's PLL (R326, R328). -/
def State.laneWrite (lane ctrl : Nat) (s : State) : State :=
  let old := (s.lane lane).ctrl.toNat
  let rising := decide (ctrlField old 4 1 = 0) && decide (ctrlField ctrl 4 1 = 1)
  let s := s.modLane lane (fun r => LaneRt.connect { r with
    ctrl := BitVec.ofNat 32 (ctrl - 256 * ctrlField ctrl 8 1), injected := r.injected + ctrlField ctrl 8 1, chkLocked := r.chkLocked && !rising })
  let s := if rising then s.setCounter 0x14 lane 0 0 else s
  if ctrlField old 13 4 ≠ ctrlField ctrl 13 4 then s.setPll (quadOf lane) .locking else s

/-- LANE_TEST_STATUS (R326). -/
def State.laneStatus (s : State) (lane : Nat) : Nat :=
  let r := s.lane lane
  (if r.chkLocked then 1 else 0) + (if r.cdrLocked then 2 else 0) + (if r.rest then 4 else 0)

/-- LANE_TEST (R328, R329, R380). -/
def cmdLaneTest (c : CmdHdr) (lane flags ctrl : Nat) (s : State) : State :=
  s.serve specLaneTest c (checkLaneTest lane flags ctrl) (fun s =>
    if s.laneBusy lane ctrl then s.refuse specLaneTest c .eBusy 0
    else if s.laneLocked lane ctrl then s.refuse specLaneTest c .eLocked 0
    else
      let s := if flags = 1 then s.laneWrite lane ctrl else s
      s.ok specLaneTest c (.words [(s.lane lane).ctrl.toNat, s.laneStatus lane, s.counter 0x14 lane 0]) 12)

/-- What a lane's checker reports: PRBS_ERR counts since the checker last locked (R327). -/
def State.prbsNote (o : PrbsObs) (s : State) : State :=
  let r := s.lane o.lane
  if (r.ctrl.toNat / 16) % 2 = 0 then s
  else
    let s := if r.chkLocked && decide (o.resyncs = 0) then s.count 0x14 o.lane 0 o.errors else s.setCounter 0x14 o.lane 0 o.errors
    (s.count 0x14 o.lane 1 o.resyncs).modLane o.lane (fun r => { r with chkLocked := o.locked })

/-- A set that enables a user on a lane under test ends the tests of its quad at wall line 0 (R335). -/
def State.endLaneTests (q : Nat) (s : State) : State :=
  (List.range 4).foldl (fun s i => s.modLane (4 * q + i) (fun r =>
    LaneRt.connect { r with ctrl := BitVec.ofNat 32 (ctrlField r.ctrl.toNat 0 3 + 32 * ctrlField r.ctrl.toNat 5 1) })) s

/-! ### The rows -/

/-- WHIP_SET. -/
def execWhipSet (dt : Nat) (c : CmdHdr) (p : WhipParams) (s : State) : Host.Outcome State Fault Refusal := .next (cmdWhipSet c p (s.advance dt))

/-- PROBE_SET. -/
def execProbeSet (dt : Nat) (c : CmdHdr) (p : ProbeParams) (s : State) : Host.Outcome State Fault Refusal := .next (cmdProbeSet c p (s.advance dt))

/-- LANE_TEST. -/
def execLaneTest (dt : Nat) (c : CmdHdr) (lane flags ctrl : Nat) (s : State) : Host.Outcome State Fault Refusal :=
  .next (cmdLaneTest c lane flags ctrl (s.advance dt))

/-- WHIP_CHECK_DONE. -/
def execWhipCheckDone (dt : Nat) (unit : Nat) (readOk : Bool) (s : State) : Host.Outcome State Fault Refusal := .next ((s.advance dt).whipDone unit readOk)

end Sys2Proof.Machine
end

