-- ==== Sys2Proof/Machine/Network.lean ====
section
/-! DEFINITION. Network time: PTP messages and domain states (R256 to R259), adjustment, re-anchor and switch (R70, R260 to
R263, R376), and time pulses (R264, R265). -/

namespace Sys2Proof.Machine

open Sys2Proof

/-! ### Masters (R256, R259) -/

/-- A domain's settings in force. -/
def State.domainCfg (s : State) (d : Nat) : DomainCfg := s.lay.domains.get {} d

/-- Whether a domain runs PTP on a live MAC (R256, R257). -/
def State.ptpRuns (s : State) (d : Nat) : Bool := decide (d < 2) && (s.domainCfg d).enable && s.macLive (s.domainCfg d).mac && s.timeRuns && !s.procDown 8

/-- The domain that a PTP message belongs to: it runs, and its MAC, transport, tag and domain number are the message's (R256, R257). -/
def State.ptpDomain (s : State) (m : PtpMsg) : Option Nat :=
  [0, 1].find? (fun d =>
    let c := s.domainCfg d
    s.ptpRuns d && decide (c.mac = m.mac) && decide (c.transport = m.transport) && decide (c.vlan = m.vlan) && decide (c.domainNum = m.domainNum))

/-- A timestamp of the Lay unit in the domain's counter, within ±4 ns of it: a free value says where (R258). -/
def State.stamp (d : Nat) (s : State) : Int × State :=
  let f := s.takeFree
  (((s.time.domain d).ns : Int) + ((f.1 % 9 : Nat) : Int) - 4, f.2)

/-- TIME ticks of a millisecond. -/
def msTicks : Nat := 500000

/-- Whether a grandmaster may be selected; with no entry used, any may (R257, R365). -/
def gmAllowed (c : DomainCfg) (g : Nat) : Bool := c.gmAllow.all (fun x => decide (x = 0)) || hasNat g (c.gmAllow.filter (fun x => decide (x ≠ 0)))

/-- The best of a list of masters with their qualities: the lowest, then the lowest identity (R256). -/
def bestMaster : Tab Nat → Option (Nat × Nat)
  | [] => none
  | m :: t => match bestMaster t with
    | none => some m
    | some b => if b.2 < m.2 then some b else some m

/-- The master that BMCA selects among those heard and allowed. -/
def State.selected (s : State) (d : Nat) : Option Nat :=
  (bestMaster ((s.time.domain d).masters.filter (fun m => gmAllowed (s.domainCfg d) m.1))).map (fun m => m.1)

/-- Another master takes over; the domain keeps its state (R259). A first selection is no change. -/
def State.selectMaster (d g : Nat) (s : State) : State :=
  let old := (s.time.domain d).gm
  if old = g then s
  else
    let s := s.modDomain d (fun x => { x with gm := g, good := 0, bad := 0, pendingSync := none, syncFrom := s.time.upTicks })
    if old = 0 then s else s.count 0x0C d 8 1

/-- A master is gone: another that was heard takes its place, or the domain is lost (R259). -/
def State.masterGone (d g : Nat) (s : State) : State :=
  let s := s.modDomain d (fun x => { x with masters := x.masters.erase g, heard := x.heard.erase g })
  if (s.time.domain d).gm ≠ g then s
  else match s.selected d with
    | some b => s.selectMaster d b
    | none => s.domainLost d

/-! ### Samples (R258, R259) -/

/-- Units of 2^−16 ns. -/
def ns16 (t : Int) : Int := t * 65536

/-- The domain state at TIME tick `now` after a sample of offset `o` (R259). -/
def Domain.judge (now lockNs : Nat) (o : Int) (x : Domain) : Domain :=
  let near := decide ((o.natAbs : Nat) ≤ lockNs * 65536)
  let good := if near then x.good + 1 else 0
  let bad := if near then 0 else x.bad + 1
  if x.state = .locked then
    if 4 ≤ bad then { x with state := .holdover, good := 0, bad := 0, holdFrom := now } else { x with good := good, bad := bad }
  else if 16 ≤ good then { x with state := .locked, everLocked := true, good := 0, bad := 0 }
  else { x with good := good, bad := bad }

/-- A sample is formed from a Sync with its whole correction, once an exchange with its master has completed (R258). -/
def State.formSample (d : Nat) (m : PtpMsg) (correction : Int) (s : State) : State :=
  let x := s.time.domain d
  match x.exchange with
  | none => s
  | some e =>
    if e.1 ≠ m.master then s
    else
      let c := s.domainCfg d
      let down : Int := ns16 (m.receive - m.origin) - correction
      let up : Int := ns16 (e.2.2.1 - e.2.1) - e.2.2.2
      let delay := (down + up) / 2
      let o := down - delay
      let y : Sample := { seq := x.sampleSeq + 1, syncId := m.seqId, gm := m.master, t2 := m.receive, offset := o, delay := delay }
      let gone := (x.samples.drop 63).filter (fun z => hasNat z.seq x.unread)
      let s := s.modDomain d (fun x => ({ x with
        sampleSeq := x.sampleSeq + 1, samples := (y :: x.samples).take 64
        unread := (x.unread.filter (fun q => !gone.any (fun z => decide (z.seq = q)))) ++ [x.sampleSeq + 1] } : Domain).judge s.time.upTicks c.lockNs o)
      (s.count 0x0C d 6 1).count 0x0C d 7 gone.length

/-- A Sync of domain `d`: t2 is the Lay unit's timestamp (R258). -/
def State.syncAt (d : Nat) (m : PtpMsg) (s : State) : State :=
  let s := s.count 0x0C d 0 1
  if (s.time.domain d).gm ≠ m.master || m.master = 0 then s
  else
    let t := s.stamp d
    let m := { m with receive := t.1 }
    let s := t.2.modDomain d (fun x => { x with lastSync := some s.time.upTicks, syncFrom := s.time.upTicks, pendingSync := if m.twoStep then some m else none })
    if m.twoStep then s else s.formSample d m m.correction

/-- PTP_SYNC_RX (R258). -/
def State.syncRx (m : PtpMsg) (s : State) : State :=
  match s.ptpDomain m with
  | none => s
  | some d => s.syncAt d m

/-- A Follow_Up of domain `d` completes the two-step Sync of its master and sequence (R258). -/
def State.followUpAt (d : Nat) (m : PtpMsg) (s : State) : State :=
  let s := s.count 0x0C d 1 1
  match (s.time.domain d).pendingSync with
  | none => s
  | some y =>
    if y.master ≠ m.master || y.seqId ≠ m.seqId then s
    else (s.modDomain d (fun x => { x with pendingSync := none })).formSample d { y with origin := m.origin } (y.correction + m.correction)

/-- FOLLOW_UP_RX (R258). -/
def State.followUpRx (m : PtpMsg) (s : State) : State :=
  match s.ptpDomain m with
  | none => s
  | some d => s.followUpAt d m

/-- An Announce of domain `d`: its master enters best master selection (R256). -/
def State.announceAt (d : Nat) (m : PtpMsg) (s : State) : State :=
  let s := (s.count 0x0C d 2 1).modDomain d (fun x => { x with
    masters := x.masters.put m.master m.quality, heard := x.heard.put m.master (s.time.upTicks, m.interval * msTicks) })
  let s := match s.selected d with
    | none => s
    | some g => s.selectMaster d g
  if (s.time.domain d).gm = m.master then s.modDomain d (fun x => { x with utcOffset := m.utcOffset }) else s

/-- ANNOUNCE_RX (R256). -/
def State.announceRx (m : PtpMsg) (s : State) : State :=
  match s.ptpDomain m with
  | none => s
  | some d => if m.master = 0 then s else s.announceAt d m

/-- DELAY_REQ_TX (R256): a Delay_Req leaves for the selected master; t3 is the Lay unit's timestamp of its departure. -/
def State.delayReqTx (d : Nat) (s : State) : State :=
  let g := (s.time.domain d).gm
  let c := s.domainCfg d
  if !s.ptpRuns d || g = 0 then s
  else
    let t := s.stamp d
    ((t.2.modDomain d (fun x => { x with delayReq := some (g, t.1) })).count 0x0C d 4 1).send c.mac 6
      [d, g, c.transport, c.domainNum, c.vlan, c.delayUnicast, c.dscp]

/-- A Delay_Resp of domain `d` completes the exchange with the master (R258). -/
def State.delayRespAt (d : Nat) (m : PtpMsg) (s : State) : State :=
  let s := s.count 0x0C d 3 1
  match (s.time.domain d).delayReq with
  | none => s
  | some q =>
    if q.1 ≠ m.master then s
    else s.modDomain d (fun x => { x with delayReq := none, exchange := some (m.master, q.2, m.receive, m.correction) })

/-- DELAY_RESP_RX (R258). -/
def State.delayRespRx (m : PtpMsg) (s : State) : State :=
  match s.ptpDomain m with
  | none => s
  | some d => s.delayRespAt d m

/-- MGMT_DISCARD (R256). -/
def State.mgmtDiscard (d : Nat) (s : State) : State := if s.ptpRuns d then s.count 0x0C d 5 1 else s

/-- SYNC_TIMEOUT (R259): the selected master has sent no Sync for TD_SYNC_TIMEOUT_MS. -/
def State.syncTimeout (d : Nat) (s : State) : State :=
  let x := s.time.domain d
  if decide (2 ≤ d) || !(s.domainCfg d).enable || x.gm = 0 || decide (s.time.upTicks < x.syncFrom + (s.domainCfg d).syncTimeoutMs * msTicks) then s
  else s.masterGone d x.gm

/-- ANNOUNCE_TIMEOUT (R256): a master has been silent for its Announce receipt timeout, and counts as gone. -/
def State.announceTimeout (d g : Nat) (s : State) : State :=
  let t := (s.time.domain d).heard.get (0, 0) g
  if decide (2 ≤ d) || !(s.domainCfg d).enable || g = 0 || decide (s.time.upTicks < t.1 + t.2) then s else s.masterGone d g

/-- HOLDOVER_EXPIRY (R259): HOLDOVER has lasted TD_HOLDOVER_S. -/
def State.holdoverExpiry (d : Nat) (s : State) : State :=
  let x := s.time.domain d
  if d < 2 ∧ x.state = .holdover ∧ x.holdFrom + (s.domainCfg d).holdoverS * (1000 * msTicks) ≤ s.time.upTicks then
    s.modDomain d (fun x => { x with state := .absent, good := 0, bad := 0 })
  else s

/-! ### Pulses (R264, R265) -/

/-- TPI_EDGE (R264): an edge that TPI_EDGE takes is recorded, or lost within 100 ns of the one before or with 16 records. -/
def State.tpiEdge (i : Nat) (falling : Bool) (s : State) : State :=
  let m := (s.lay.pulses.get {} i).tpiEdge
  let taken := decide (i < 2) && (decide (m = 3) || decide (m = if falling then 2 else 1)) && s.timeRuns
  if !taken then s
  else
    let last := s.time.tpiLast.get 0 i
    let rs := s.time.tpi.get [] i
    let soon := decide (last ≠ 0) && decide (s.time.upTicks + 1 < last + 50)
    if soon then s.count 0x0E i 0 1
    else
      let s : State := { s with time := { s.time with tpiLast := s.time.tpiLast.set 0 i (s.time.upTicks + 1) } }
      if 16 ≤ rs.length then s.count 0x0E i 0 1
      else
        let r : TpiRec := { falling := falling, td0 := s.time.td0.ns, td1 := s.time.td1.ns, wall := s.wallNs }
        { s with time := { s.time with tpi := s.time.tpi.set [] i (rs ++ [r]) } }

/-- The time on a base: TD0, TD1 or wall time (R265). -/
def State.baseNs (s : State) (b : Nat) : Nat := if b = 0 then s.time.td0.ns else if b = 1 then s.time.td1.ns else s.wallNs

/-- The base of an output's edges: mode 3 always uses wall time (R265). -/
def pulseBase (c : PulseCfg) : Nat := if c.mode = 3 then 2 else c.base

/-- The time of leading edge `k` (R265). -/
def edgeTime (rate : Nat) (c : PulseCfg) (k : Nat) : Nat :=
  if c.mode = 1 then c.start else if c.mode = 2 then c.start + k * c.period else lineStartNs rate k 0 + c.start

/-- The first edge whose time is not earlier than `t`. -/
def firstEdge (rate : Nat) (c : PulseCfg) (t : Nat) : Nat :=
  if c.mode = 1 then (if c.start < t then 1 else 0)
  else if c.mode = 2 then (t - c.start + (c.period - 1)) / c.period
  else
    let hz := wallRateHz rate
    let k := (t - c.start) * hz.1 / (1000000000 * hz.2)
    if t ≤ edgeTime rate c k then k else k + 1

/-- An output's progress. -/
def State.tpoRt (s : State) (o : Nat) : TpoRt := s.time.tpo.get {} o

/-- Set an output's progress. -/
def State.setTpo (o : Nat) (x : TpoRt) (s : State) : State := { s with time := { s.time with tpo := s.time.tpo.set {} o x } }

/-- An output starts with a new setting: pulses in the past are skipped (R265). -/
def State.tpoStart (o : Nat) (s : State) : State :=
  let c := s.lay.pulses.get {} (2 + o)
  if c.mode = 0 then s.setTpo o {}
  else
    let k := firstEdge s.lay.dev.wallRate c (s.baseNs (pulseBase c))
    s.setTpo o { next := k, done := decide (c.mode = 1) && decide (k = 1) }

/-- Pulses on base `b` that a step has passed over are not emitted, and count (R265). -/
def State.tpoStepped (b : Nat) (s : State) : State :=
  (List.range 4).foldl (fun s o =>
    let c := s.lay.pulses.get {} (2 + o)
    let x := s.tpoRt o
    if c.mode = 0 || c.mode = 3 || x.done || pulseBase c ≠ b then s
    else
      let from_ := if x.level then x.next + 1 else x.next
      let k := max from_ (firstEdge s.lay.dev.wallRate c (s.baseNs b))
      let s := s.setTpo o { x with next := if from_ < k then (if x.level then k - 1 else k) else x.next, done := decide (c.mode = 1) && decide (from_ < k) }
      s.count 0x0F o 1 (k - from_)) s

/-- TPO_PULSE (R265): the output's next edge leaves once its time has come. -/
def State.tpoEdge (o : Nat) (s : State) : State :=
  let c := s.lay.pulses.get {} (2 + o)
  let x := s.tpoRt o
  let t := edgeTime s.lay.dev.wallRate c x.next
  let now := s.baseNs (pulseBase c)
  if decide (4 ≤ o) || c.mode = 0 || x.done || !s.timeRuns then s
  else
    let emit := fun (lead : Bool) (s : State) => ({ s with out := { s.out with pulses := (o, if c.pol = 1 then !lead else lead) :: s.out.pulses } } : State)
    if !x.level then
      if now < t then s else (emit true (s.setTpo o { x with level := true })).count 0x0F o 0 1
    else if now < t + c.width then s
    else emit false (s.setTpo o { next := x.next + 1, level := false, done := decide (c.mode = 1) })

/-! ### Re-anchor and adjustment (R70, R260, R376) -/

/-- Whether some head is enabled in the set in force. -/
def State.headsEnabled (s : State) : Bool := !s.lay.enabledHeads.isEmpty

/-- A re-anchor (R70): the raster stops, wall time takes the domain time, a pending switch is cancelled, and the raster will
restart at the first wall frame that begins after the stop. -/
def State.reanchor (s : State) : State :=
  let s : State := { s with time := { s.time with resid := 0, pendingSwitch := none } }
  let s : State := { s with raster := { s.raster with run := false, frame := 0, line := 0, first := firstFrameAfter s.lay.dev.wallRate s.wallNs, anchored := true } }
  (List.range 4).foldl (fun s o => if (s.lay.pulses.get {} (2 + o)).mode = 3 then
    s.setTpo o { s.tpoRt o with next := firstEdge s.lay.dev.wallRate (s.lay.pulses.get {} (2 + o)) s.wallNs } else s) (s.tpoStepped 2)

/-- Whether an offset on domain `d` is a re-anchor (R70, R260). -/
def State.reanchors (s : State) (d : Nat) (offset : Int) : Bool :=
  decide (d = s.time.active) && decide (offset ≠ 0) && decide (s.dev = .configuring) && !s.headsEnabled

/-- The counter steps by an offset; a counter that falls below the epoch has no value in the spec: a free value. -/
def State.stepDomain (d : Nat) (offset : Int) (s : State) : State :=
  let u : Int := (s.time.domain d).units + offset * nsUnit
  if u < 0 then
    let f := s.takeFree
    f.2.modDomain d (fun x => { x with units := f.1 })
  else s.modDomain d (fun x => { x with units := u.toNat })

/-- The limit on WALL_RESID in 2^−32 ns (R260, R263). -/
def residLimit : Int := 1000000000 * nsUnit

/-- Whether a residual is beyond the limit. -/
def residBad (r : Int) : Bool := decide (residLimit < r.natAbs)

/-- TIME_ADJUST (R338). -/
def specTimeAdjust : CmdSpec := { opcode := 0x0400, legal := 0x78, len := 24 }

/-- The parameter of TIME_ADJUST that R254 or R260 refuses. -/
def adjustBad (d flags incr : Nat) : Option Nat :=
  firstBad [(0, inRange 0 1 d), (1, inRange 0 1 flags),
    (8, if flags = 1 then inRange 8585639625 8594229559 incr else decide (incr = 0))]

/-- The refusals of R260 for the active domain, after the checks of R39. -/
def State.adjustRefused (s : State) (d flags incr : Nat) (offset : Int) : Option Nat :=
  if d ≠ s.time.active then none
  else if flags = 1 && s.headsEnabled && decide (429497 < ((incr : Int) - s.time.incrAtLine0).natAbs) then some 8
  else if decide (offset ≠ 0) && !s.reanchors d offset && residBad (s.time.resid + offset * nsUnit) then some 16
  else none

/-- Both parts of TIME_ADJUST are applied (R260). -/
def State.adjust (d flags incr : Nat) (offset : Int) (s : State) : State :=
  let again := s.reanchors d offset
  let s := if flags = 1 then s.modDomain d (fun x => { x with incr := incr }) else s
  if offset = 0 then s
  else
    let s := (s.stepDomain d offset).tpoStepped d
    if again then s.reanchor
    else if d = s.time.active then { s with time := { s.time with resid := s.time.resid + offset * nsUnit } }
    else s

/-- TIME_ADJUST (R260, R376). -/
def cmdTimeAdjust (c : CmdHdr) (domain flags incr : Nat) (offset : Int) (s : State) : State :=
  s.serve specTimeAdjust c (adjustBad domain flags incr) (fun s =>
    match s.adjustRefused domain flags incr offset with
    | some o => s.refuse specTimeAdjust c .eParam o
    | none => (s.adjust domain flags incr offset).ok specTimeAdjust c .empty 0)

/-! ### Switches (R261 to R263) -/

/-- WALL_RESID after a switch to domain `b` now (R261). -/
def Time.residAfter (t : Time) (b : Nat) : Int := t.resid + ((t.domain b).units : Int) - (t.domain t.active).units

/-- Whether a commanded switch to `b` is refused now (R263). -/
def Time.switchRefused (t : Time) (b : Nat) : Bool := decide ((t.domain b).state = .absent) || residBad (t.residAfter b)

/-- TIME_SWITCH (R338). -/
def specTimeSwitch : CmdSpec := { opcode := 0x0401, legal := 0x78, len := 4 }

/-- TIME_SWITCH (R263): naming the active domain cancels a pending switch. -/
def cmdTimeSwitch (c : CmdHdr) (domain : Nat) (s : State) : State :=
  s.serve specTimeSwitch c (firstBad [(0, inRange 0 1 domain)]) (fun s =>
    if domain = s.time.active then ({ s with time := { s.time with pendingSwitch := none } }).ok specTimeSwitch c .empty 0
    else if s.time.switchRefused domain then s.refuse specTimeSwitch c .eParam 0
    else ({ s with time := { s.time with pendingSwitch := some domain } }).ok specTimeSwitch c .empty 0)

/-- Domain `b` becomes active; wall time is continuous (R261). -/
def State.switchTo (b : Nat) (s : State) : State :=
  let diff : Int := ((s.time.domain b).units : Int) - (s.time.domain s.time.active).units
  let s : State := { s with time := { s.time with resid := s.time.resid + diff, active := b, pendingSwitch := none } }
  (s.count 0x0D 0 0 1).event 0x000B b (u64 (diff / nsUnit))

/-- The switch evaluation of a wall line 0 (R261 to R263): a pending switch first, then automatic failover. -/
def State.switchLine0 (s : State) : State :=
  let pend := match s.time.pendingSwitch with
    | some b => !s.time.switchRefused b
    | none => false
  let b := s.time.pendingSwitch.getD 0
  let s : State := { s with time := { s.time with pendingSwitch := none } }
  if pend then s.switchTo b
  else
    let a := s.time.active
    let o := if a = 0 then 1 else 0
    if decide (s.lay.dev.tdFailover = 1) && decide ((s.time.domain a).state ≠ .locked) && decide ((s.time.domain o).state = .locked) &&
        decide ((s.time.residAfter o).natAbs ≤ s.lay.dev.tdSwitchMaxNs * nsUnit) then s.switchTo o
    else s

/-! ### The rows -/

/-- PTP_SYNC_RX. -/
def execPtpSyncRx (dt : Nat) (m : PtpMsg) (s : State) : Host.Outcome State Fault Refusal := .next ((s.advance dt).syncRx m)

/-- FOLLOW_UP_RX. -/
def execFollowUpRx (dt : Nat) (m : PtpMsg) (s : State) : Host.Outcome State Fault Refusal := .next ((s.advance dt).followUpRx m)

/-- ANNOUNCE_RX. -/
def execAnnounceRx (dt : Nat) (m : PtpMsg) (s : State) : Host.Outcome State Fault Refusal := .next ((s.advance dt).announceRx m)

/-- DELAY_RESP_RX. -/
def execDelayRespRx (dt : Nat) (m : PtpMsg) (s : State) : Host.Outcome State Fault Refusal := .next ((s.advance dt).delayRespRx m)

/-- DELAY_REQ_TX. -/
def execDelayReqTx (dt : Nat) (domain : Nat) (s : State) : Host.Outcome State Fault Refusal := .next ((s.advance dt).delayReqTx domain)

/-- MGMT_DISCARD. -/
def execMgmtDiscard (dt : Nat) (domain : Nat) (s : State) : Host.Outcome State Fault Refusal := .next ((s.advance dt).mgmtDiscard domain)

/-- SYNC_TIMEOUT. -/
def execSyncTimeout (dt : Nat) (domain : Nat) (s : State) : Host.Outcome State Fault Refusal := .next ((s.advance dt).syncTimeout domain)

/-- ANNOUNCE_TIMEOUT. -/
def execAnnounceTimeout (dt : Nat) (domain master : Nat) (s : State) : Host.Outcome State Fault Refusal :=
  .next ((s.advance dt).announceTimeout domain master)

/-- HOLDOVER_EXPIRY. -/
def execHoldoverExpiry (dt : Nat) (domain : Nat) (s : State) : Host.Outcome State Fault Refusal := .next ((s.advance dt).holdoverExpiry domain)

/-- TPI_EDGE. -/
def execTpiEdge (dt : Nat) (input : Nat) (falling : Bool) (s : State) : Host.Outcome State Fault Refusal := .next ((s.advance dt).tpiEdge input falling)

/-- TPO_PULSE. -/
def execTpoPulse (dt : Nat) (output : Nat) (s : State) : Host.Outcome State Fault Refusal := .next ((s.advance dt).tpoEdge output)

/-- TIME_ADJUST. -/
def execTimeAdjust (dt : Nat) (c : CmdHdr) (domain flags incr : Nat) (offset : Int) (s : State) : Host.Outcome State Fault Refusal :=
  .next (cmdTimeAdjust c domain flags incr offset (s.advance dt))

/-- TIME_SWITCH. -/
def execTimeSwitch (dt : Nat) (c : CmdHdr) (domain : Nat) (s : State) : Host.Outcome State Fault Refusal :=
  .next (cmdTimeSwitch c domain (s.advance dt))

end Sys2Proof.Machine
end

