-- ==== Sys2Proof/Machine/Surface.lean ====
section
/-! DEFINITION. Host surfaces: SURFACE_PUBLISH and the end of its copy (R101, R103, R370). -/

namespace Sys2Proof.Machine

open Sys2Proof

/-- SURFACE_PUBLISH (R338). -/
def specSurfacePublish : CmdSpec := { opcode := 0x0300, legal := 0x38, len := 24 }

/-- Whether a source is a host surface in force (R370). -/
def isSurface (l : Layout) (i : Nat) : Bool := decide (i < 984) && decide ((l.source i).kind = 4)

/-- Capture time and CAPT_SRC of a published frame: the earlier of the host's time and the fetch (R103). -/
def surfaceCapture (flags capture now : Nat) : Nat × Nat := if flags % 2 = 1 && decide (capture ≤ now) then (capture, 2) else (now, 1)

/-- The copy of a surface starts (R101). -/
def State.startCopy (c : CmdHdr) (i b : Nat) (cap : Nat × Nat) (s : State) : State :=
  let o := s.lay.source i
  let fb : FrameBuf := { addr := s.bufAddr i b, pitchUp := (s.srcRt i).pitchUp, width := o.surfWidth, height := o.surfHeight, format := o.surfFormat, writing := true }
  let s := s.modBuf i b (fun _ => fb)
  let k : SurfaceCopy := { hdr := c, source := i, buf := b, capture := cap.1, captSrc := cap.2, arrival := s.wallNs, cls := o.cls }
  { s with ing := { s.ing with copies := s.ing.copies ++ [k] } }

/-- The parameter ranges of SURFACE_PUBLISH. The pitch is judged against the surface that the source defines. -/
def State.surfaceBad (s : State) (source flags pitch hostAddr : Nat) : Option Nat :=
  firstBad [(0, inRange 0 1023 source), (2, inRange 0 1 flags),
            (4, !isSurface s.lay source || decide (4 * (s.lay.source source).surfWidth ≤ pitch)), (8, decide (hostAddr % 4 = 0))]

/-- SURFACE_PUBLISH (R101, R370): the copy runs in the background. -/
def cmdSurfacePublish (c : CmdHdr) (source flags pitch hostAddr capture : Nat) (s : State) : State :=
  s.serve specSurfacePublish c (s.surfaceBad source flags pitch hostAddr) (fun s =>
    if !isSurface s.lay source then s.refuse specSurfacePublish c .eNotFound source
    else
      let cap := surfaceCapture flags capture s.wallNs
      let early := ((s.srcRt source).seals.head?.map (fun x => decide (cap.1 < x.capture))).getD false
      if early then (s.countDrop source none).refuse specSurfacePublish c .eParam 16
      else match s.freeSrcBuf source with
        | none => s.refuse specSurfacePublish c .eBusy 0
        | some b =>
          if s.ing.copies.any (fun k => decide (k.source = source)) then s.refuse specSurfacePublish c .eBusy 0
          else s.startCopy c source b cap)

/-- The copy of a surface ends (R101): sealed with HOST, the reply giving FRAME_SEQ in DETAIL; or unsealed with
E_INTERNAL after a failed host read. `lines` is what the copy read. -/
def State.endCopy (source : Nat) (lines : List (List Byte)) (readOk : Bool) (s : State) : State :=
  match List.find? (fun (k : SurfaceCopy) => decide (k.source = source)) s.ing.copies with
  | none => s
  | some k =>
    let fb := (s.srcRt source).bufs.get {} k.buf
    let s' := { s with ing := { s.ing with copies := s.ing.copies.filter (fun x => decide (x.source ≠ source)) } }
    if !s.writersRun then s
    else if !readOk then (s'.dropBuf source k.buf).refuseInternal specSurfacePublish k.hdr
    else if !linesOk fb.format fb.width fb.height lines then s
    else
      let s := (s'.modBuf source k.buf (fun f => { f with lines := lines })).sealFrame source
        { buf := k.buf, capture := k.capture, captSrc := k.captSrc, arrival := k.arrival, host := true, cls := k.cls }
      s.reply specSurfacePublish.opcode k.hdr .ok 0 (((s.srcRt source).seals.head?.map (fun x => x.seq)).getD 0) .empty 0

/-- SURFACE_PUBLISH. -/
def execSurfacePublish (dt : Nat) (c : CmdHdr) (source flags pitch hostAddr capture : Nat) (s : State) : Host.Outcome State Fault Refusal :=
  .next (cmdSurfacePublish c source flags pitch hostAddr capture (s.advance dt))

end Sys2Proof.Machine
end

