-- ==== Sys2Proof/Machine/Touch.lean ====
section
/-! DEFINITION. Console touch sensing: the Thimble link (R269 to R271, R287), the touch frame pipeline (R272 to R286), and
the user baseline (R282, R283, R381, R439). -/

namespace Sys2Proof.Machine

open Sys2Proof

/-! ### The panel (R273, R276) -/

/-- The number of node (x, y): raster order, lower y first. -/
def nodeAt (c : DeskCfg) (x y : Nat) : Nat := y * c.driveN + x

/-- The nodes of a panel. -/
def panelSize (c : DeskCfg) : Nat := c.driveN * c.senseN

/-- The eight neighbours of a node that lie on the panel, in raster order. -/
def neighbours (c : DeskCfg) (i : Nat) : List Nat :=
  let x : Int := (i % c.driveN : Nat)
  let y : Int := (i / c.driveN : Nat)
  (([(-1, -1), (0, -1), (1, -1), (-1, 0), (1, 0), (-1, 1), (0, 1), (1, 1)] : List (Int × Int)).filter (fun o =>
    decide (0 ≤ x + o.1) && decide (x + o.1 < c.driveN) && decide (0 ≤ y + o.2) && decide (y + o.2 < c.senseN))).map
    (fun o => nodeAt c (x + o.1).toNat (y + o.2).toNat)

/-- A value of a list of node values; outside it 0. -/
def valueAt (ds : List Int) (i : Nat) : Int := ds.getD i 0

/-- The touch threshold in force: a third of TOUCH_THRESH in glove mode (R275). -/
def touchLimit (c : DeskCfg) : Int := if c.mode = 1 then ((c.touchThresh / 3 : Nat) : Int) else c.touchThresh

/-- The release threshold (R273, R275). -/
def releaseLimit (c : DeskCfg) : Int := 3 * touchLimit c / 4

/-- The least delta of a peak (R276). -/
def peakLimit (c : DeskCfg) : Int := if c.mode = 2 then (c.hoverThresh : Int) else touchLimit c

/-! ### Filters (R273) -/

/-- Insert into a rising list, repeats kept. -/
def insertValue (k : Int) : List Int → List Int
  | [] => [k]
  | j :: t => if k ≤ j then k :: j :: t else j :: insertValue k t

/-- The median of five values. -/
def median (ms : List Int) : Int := (ms.foldr insertValue []).getD 2 0

/-- A node value saturated to 16 bits (R272). -/
def saturate (m : Int) : Int := max 0 (min m 65535)

/-- The integration window W in µs (R272, R275). -/
def windowUs (c : DeskCfg) : Nat := if c.mode = 1 then 400 else 200

/-- The front-end gain (R275). -/
def frontGain (c : DeskCfg) : Nat := if c.mode = 1 then 4 else 1

/-- The node value of node `i` from the magnitude of its I/Q pair: scaled by the sense line's gain factor for the plan, divided by the
front-end gain, saturated (R272). -/
def nodeValue (c : DeskCfg) (info : HeadInfo) (plan i : Nat) (mag : Int) : Int :=
  saturate (mag * ((info.gains.getD (16 * (i / c.driveN) + plan) 65536 : Nat) : Int) / ((65536 * frontGain c : Nat) : Int))

/-- The SLOT messages of a touch frame, from the sample count after `count` on (R270, R272): a settle time of 20 µs and the window for
each eight electrodes, and the listen slot last. -/
def slotMessages (c : DeskCfg) (count plan : Nat) : List ThimbleMsg :=
  (List.range (c.driveN / 8 + 1)).map (fun g =>
    .slot ((count + 1 + g * (4 * (20 + windowUs c))) % 16777216) (if g < c.driveN / 8 then (List.range 8).map (fun i => 8 * g + i) else [])
      plan (frontGain c) c.driveLevel (windowUs c))

/-- Messages go down a desk's link. -/
def State.sendDesk (d : Nat) (ms : List ThimbleMsg) (s : State) : State :=
  { s with out := { s.out with thimble := (ms.map (fun m => (d, m))).reverse ++ s.out.thimble } }

/-- Whether the info memory passes its CRC (R271). -/
def infoSound (i : HeadInfo) : Bool := decide ((foldCrc 0 0 0x71B0 i.raw).toNat = i.crc)

/-- A node takes its value of a frame (R273). -/
def Node.filter (c : DeskCfg) (m : Int) (n : Node) : Node :=
  let ms := (m :: n.ms).take 5
  { n with ms := ms, y := n.y + (median ms - n.y) * c.filtK / 256 }

/-- A node's delta (R273). -/
def Node.delta (n : Node) : Int := n.b - n.y

/-- A node at the first frame after STARTING (R284). -/
def firstNode (b0 m : Int) : Node := { ms := List.replicate 5 m, y := m, b := b0, b0 := b0 }

/-! ### Baselines (R282, R439) -/

/-- The newer valid copy of the user calibration. -/
def Flash.newestCal (f : Flash) : Option CalCopy :=
  if f.newestIsA then some f.calA
  else if f.calB.valid then some f.calB else none

/-- An offset clamped to ±F_LIMIT. -/
def clampTo (limit : Nat) (u : Int) : Int := max (-(limit : Int)) (min u limit)

/-- The offsets of a desk; without a valid copy, or without flash, they are zero. -/
def State.userOffsets (s : State) (d : Nat) : List Int :=
  if s.flash.fitted then (match s.flash.newestCal with | none => [] | some c => c.offsets.get [] d) else []

/-- B0 of node `i`: the factory baseline and the clamped user offset (R282). -/
def State.baseAt (s : State) (d i : Nat) : Int :=
  (((s.desk d).info.factory.getD i 0 : Nat) : Int) + clampTo (s.desk d).info.limit (valueAt (s.userOffsets d) i)

/-! ### Peaks (R276) -/

/-- Whether a node lies inside a mask. -/
def masked (ms : List Mask) (i : Nat) : Bool := ms.any (fun m => hasNat i m.nodes)

/-- Whether node `i` is a peak (R276). -/
def isPeak (c : DeskCfg) (ms : List Mask) (ds : List Int) (i : Nat) : Bool :=
  let d := valueAt ds i
  decide (peakLimit c ≤ d) && !masked ms i &&
    (neighbours c i).all (fun j => if j < i then decide (valueAt ds j < d) else decide (valueAt ds j ≤ d))

/-- A delta as the centroid takes it. -/
def weight (ds : List Int) (i : Nat) : Int := max 0 (valueAt ds i)

/-- The sum over the nodes of the 3 × 3 neighbourhood that satisfy `f`. -/
def sumNear (c : DeskCfg) (ds : List Int) (i : Nat) (f : Nat → Bool) : Int :=
  ((i :: neighbours c i).filter f).foldl (fun a j => a + weight ds j) 0

/-- The centroid of a peak in 1/256 pitch (R276). -/
def centroid (c : DeskCfg) (ds : List Int) (i : Nat) : Int × Int :=
  let x := i % c.driveN
  let y := i / c.driveN
  let all := sumNear c ds i (fun _ => true)
  let dx := sumNear c ds i (fun j => decide (j % c.driveN = x + 1)) - sumNear c ds i (fun j => decide (j % c.driveN + 1 = x))
  let dy := sumNear c ds i (fun j => decide (j / c.driveN = y + 1)) - sumNear c ds i (fun j => decide (j / c.driveN + 1 = y))
  (256 * (x : Int) + 256 * dx / all, 256 * (y : Int) + 256 * dy / all)

/-- A peak: its node and its centroid. -/
structure Peak where
  node : Nat
  x : Int
  y : Int
  delta : Int
  deriving DecidableEq, Repr

/-- The peaks of a frame in raster order. -/
def peaksOf (c : DeskCfg) (ms : List Mask) (ds : List Int) : List Peak :=
  ((List.range (panelSize c)).filter (isPeak c ms ds)).map (fun i =>
    let p := centroid c ds i
    { node := i, x := p.1, y := p.2, delta := valueAt ds i })

/-! ### Tracking (R277, R278) -/

/-- The square of the distance from a contact's prediction to a peak. -/
def distance2 (k : Contact) (p : Peak) : Int := (p.x - (k.x + k.dx)) * (p.x - (k.x + k.dx)) + (p.y - (k.y + k.dy)) * (p.y - (k.y + k.dy))

/-- A candidate match: squared distance, ID, and the peak's node. -/
abbrev Match := Int × Nat × Nat

/-- Earlier in the order of R277: distance, ID, peak. -/
def matchBefore (a b : Match) : Bool :=
  decide (a.1 < b.1) || (decide (a.1 = b.1) && (decide (a.2.1 < b.2.1) || (decide (a.2.1 = b.2.1) && decide (a.2.2 ≤ b.2.2))))

/-- Insert a match in order. -/
def insertMatch (a : Match) : List Match → List Match
  | [] => [a]
  | b :: t => if matchBefore a b then a :: b :: t else b :: insertMatch a t

/-- Every pair within the radius, in order (R277). -/
def candidates (c : DeskCfg) (ks : List Contact) (ps : List Peak) : List Match :=
  (ks.map (fun k => (ps.filter (fun p => decide (distance2 k p ≤ c.matchRadius * c.matchRadius))).map (fun p => (distance2 k p, k.id, p.node)))).flatten.foldr insertMatch []

/-- Greedy matching: the ID and node of each pair taken. -/
def greedy : List Match → List (Nat × Nat) → List (Nat × Nat)
  | [], got => got
  | m :: t, got => if got.any (fun g => decide (g.1 = m.2.1) || decide (g.2 = m.2.2)) then greedy t got else greedy t (got ++ [(m.2.1, m.2.2)])

/-- The height of a hover (R278). -/
def hoverHeight (c : DeskCfg) (peak : Int) : Nat :=
  (200 * ((c.touchThresh : Int) - peak) / ((c.touchThresh : Int) - c.hoverThresh)).toNat

/-- A contact that has matched a peak. -/
def Contact.follow (c : DeskCfg) (now : Nat) (p : Peak) (k : Contact) : Contact :=
  let down := k.hover && decide (touchLimit c ≤ p.delta)
  let hover := k.hover && !down
  { k with x := p.x, y := p.y, dx := p.x - k.x, dy := p.y - k.y, node := p.node, hover := hover, downAt := if down then now else k.downAt,
           z := if hover then hoverHeight c p.delta else 0 }

/-- The ID after `last` that no contact carries, cyclically over 1 to 31. The fuel bounds the search. -/
def nextId (ks : List Contact) : Nat → Nat → Option Nat
  | 0, _ => none
  | n + 1, last => let i := if 31 ≤ last then 1 else last + 1
    if ks.any (fun k => decide (k.id = i)) then nextId ks n i else some i

/-- Insert a peak by falling strength, ties in raster order. -/
def insertPeak (p : Peak) : List Peak → List Peak
  | [] => [p]
  | q :: t => if q.delta < p.delta || (q.delta = p.delta && p.node < q.node) then p :: q :: t else q :: insertPeak p t

/-- A new contact from a peak. -/
def newContact (c : DeskCfg) (now id : Nat) (p : Peak) : Contact :=
  let hover := decide (p.delta < touchLimit c)
  { id := id, x := p.x, y := p.y, hover := hover, downAt := now, node := p.node, z := if hover then hoverHeight c p.delta else 0 }

/-- Contacts under tracking: those that go on, those that are new, the last ID given, and the peaks left over. -/
structure Tracked where
  old : List Contact := []
  new : List Contact := []
  lastId : Nat := 0
  left : Nat := 0
  deriving DecidableEq, Repr

/-- An unmatched peak becomes a contact while the limits of R277 allow. -/
def Tracked.add (c : DeskCfg) (now held : Nat) (t : Tracked) (p : Peak) : Tracked :=
  let ks := t.old ++ t.new
  if c.maxContacts ≤ ks.length || 32 ≤ ks.length + held then { t with left := t.left + 1 }
  else match nextId ks 31 t.lastId with
    | none => { t with left := t.left + 1 }
    | some i => { t with new := t.new ++ [newContact c now i p], lastId := i }

/-! ### Baseline tracking and masks (R282, R284 to R286) -/

/-- Whether a node counts as touched for R282. -/
def touchedNode (c : DeskCfg) (ns : List Node) (ds : List Int) (i : Nat) : Bool :=
  decide (releaseLimit c ≤ valueAt ds i) || decide (0 < (ns.getD i {}).frozen)

/-- The next baseline of node `i`, and whether it was clamped (R282). -/
def driftNode (c : DeskCfg) (ns : List Node) (ms : List Mask) (ds : List Int) (i : Nat) : Int × Bool :=
  let n := ns.getD i {}
  if touchedNode c ns ds i || (neighbours c i).any (touchedNode c ns ds) || masked ms i then (n.b, false)
  else
    let b := n.b + (n.y - n.b) / (2 ^ c.driftShift : Nat)
    if n.b0 + c.driftMax < b then (n.b0 + c.driftMax, true)
    else if b < n.b0 - c.driftMax then (n.b0 - c.driftMax, true)
    else (b, false)

/-- The frames for which a node stays frozen after this one (R284). -/
def thaw (c : DeskCfg) (d : Int) (n : Node) : Nat := if n.frozen = 0 then 0 else if d < releaseLimit c then n.frozen - 1 else 16

/-- The nodes 8-connected to a set within those at or above the release threshold. The fuel bounds the spread. -/
def spread (c : DeskCfg) (ds : List Int) : Nat → List Nat → List Nat
  | 0, l => l
  | n + 1, l =>
    let l' := l.foldl (fun a i => (neighbours c i).foldl (fun a j => if decide (releaseLimit c ≤ valueAt ds j) then insertSorted j a else a) a) l
    if l'.length = l.length then l else spread c ds n l'

/-- The mask of a held object at a peak (R285). -/
def heldMask (c : DeskCfg) (ds : List Int) (peak : Nat) : Mask :=
  let core := spread c ds (panelSize c) [peak]
  { core := core, nodes := core.foldl (fun a i => (neighbours c i).foldl (fun a j => insertSorted j a) a) core }

/-- A mask after a frame (R285). -/
def Mask.age (c : DeskCfg) (ds : List Int) (m : Mask) : Mask :=
  { m with clear := if m.core.all (fun i => decide (valueAt ds i < releaseLimit c)) then m.clear + 1 else 0 }

/-! ### Frequency plans (R274) -/

/-- Whether a plan is allowed. -/
def planAllowed (c : DeskCfg) (p : Nat) : Bool := decide (p < 16) && c.plans.testBit p

/-- The next allowed plan after `p` other than `cur`, in rotation. The fuel bounds the search. -/
def nextPlan (c : DeskCfg) (cur : Nat) : Nat → Nat → Option Nat
  | 0, _ => none
  | n + 1, p => let q := (p + 1) % 16
    if planAllowed c q && decide (q ≠ cur) then some q else nextPlan c cur n q

/-- The quietest allowed plan other than `cur` in a noise history. -/
def quietest (c : DeskCfg) (cur : Nat) : List (Nat × Nat) → Option (Nat × Nat)
  | [] => none
  | e :: t => match quietest c cur t with
    | none => if planAllowed c e.1 && decide (e.1 ≠ cur) then some e else none
    | some b => if planAllowed c e.1 && decide (e.1 ≠ cur) && decide (e.2 ≤ b.2) then some e else some b

/-- The lowest allowed plan. -/
def lowestPlan (c : DeskCfg) : Nat := ((List.range 16).filter (planAllowed c)).headD 0

/-- The noise of a frame's listen slot (R274): `noise` on the current plan, `other` on the next allowed one. -/
def DeskRt.listen (noise other : Nat) (k : DeskRt) : DeskRt :=
  let c := k.cfg
  match nextPlan c k.plan 16 k.scan with
  | none => k
  | some q =>
    let h := ((q, other) :: k.noise).take 16
    match quietest c k.plan h with
    | none => { k with scan := q, noise := h }
    | some b =>
      let run := if 2 * b.2 < noise then k.noisyRun + 1 else 0
      { k with scan := q, noise := h, noisyRun := run, hopTo := if 4 ≤ run then some b.1 else k.hopTo }

/-! ### Touch frames (R80, R268, R275, R289) -/

/-- A desk takes its settings at a touch frame start; a new mode cancels its contacts (R83, R268, R289). -/
def State.deskConfig (d : Nat) (s : State) : State :=
  let new := s.lay.desks.get {} d
  let old := (s.desk d).cfg
  let s := if old.mode ≠ new.mode then s.cancelContacts d else s
  s.modDesk d (fun k => { k with cfg := new })

/-- The plan of a touch frame: a hop that is due, within the plans that the set allows (R274, R289). -/
def State.deskHop (d : Nat) (s : State) : State :=
  let k := s.desk d
  let target := if k.hopTo.isSome then (quietest k.cfg k.plan k.noise).map (fun b => b.1)
    else if planAllowed k.cfg k.plan then none
    else some (((quietest k.cfg k.plan k.noise).map (fun b => b.1)).getD (lowestPlan k.cfg))
  let s := s.modDesk d (fun k => { k with hopTo := none })
  match target with
  | none => s
  | some p => (s.modDesk d (fun k => { k with plan := p, noisyRun := 0 })).count 0x10 d 5 1

/-- A touch frame is discarded whole; the twelfth in a row takes the desk to LINK_DOWN (R287). -/
def State.discardFrame (d : Nat) (s : State) : State :=
  let n := (s.desk d).discardRun + 1
  let s := (s.count 0x10 d 1 1).modDesk d (fun k => { k with inFrame := false, bad := false, discardRun := n })
  if 12 ≤ n then (s.modDesk d (fun k => { k with locked := false })).deskState d .linkDown else s

/-- A normal-mode touch frame slot begins (R80, R287): the desk takes its set, and a frame starts if it measures. In glove mode a
frame spans two slots, and the second of them starts and ends nothing; the slots are counted from the one after the desk leaves OFF
(log entry 112). -/
def State.touchSlot (d : Nat) (s : State) : State :=
  let new := s.lay.desks.get {} d
  let k := s.desk d
  if !new.enable then (if k.state = .off then s else (s.deskState d .off).modDesk d (fun k => { k with cfg := new, locked := false, restarts := 0 }))
  else if k.state = .off then (s.modDesk d (fun k => { k with cfg := new, restarts := 0, plan := lowestPlan new, noise := [] })).deskState d .linkDown
  else if k.inFrame && decide (k.cfg.mode = 1) && k.slotParity then s.modDesk d (fun k => { k with slotParity := false })
  else
    let s := if k.inFrame then s.discardFrame d else s
    let s := s.deskConfig d
    let k := s.desk d
    let skip := decide (k.cfg.mode = 1) && k.slotParity
    let s := s.modDesk d (fun k => { k with slotParity := !k.slotParity })
    if skip || !(k.state = .starting || k.state = .active) || s.procDown 6 || s.procDown 7 then s
    else
      let s := (s.deskHop d).modDesk d (fun k => { k with
        inFrame := true, bad := false, frameStart := s.wallNs, frame := if k.state = .active then k.frame + 1 else 0 })
      s.sendDesk d (slotMessages (s.desk d).cfg (s.desk d).sampleCount (s.desk d).plan)

/-! ### The pipeline (R272 to R286) -/

/-- Nodes of the 3 × 3 neighbourhood at or above the release threshold (R279). -/
def areaOf (c : DeskCfg) (ds : List Int) (i : Nat) : Nat := ((i :: neighbours c i).filter (fun j => decide (releaseLimit c ≤ valueAt ds j))).length

/-- A report about a contact with the frame's deltas. -/
def State.contactReport (s : State) (d type : Nat) (ds : List Int) (atStart : Bool) (k : Contact) : TouchReport :=
  s.mkTouch d type k atStart k.z (areaOf (s.desk d).cfg ds k.node) (valueAt ds k.node)

/-- Insert a report by tracking ID, keeping the order of equal IDs. -/
def insertReport (r : TouchReport) : List TouchReport → List TouchReport
  | [] => [r]
  | q :: t => if r.id < q.id then r :: q :: t else q :: insertReport r t

/-- Reports leave in tracking ID order (R279). -/
def State.reportAll (rs : List TouchReport) (s : State) : State := (rs.foldl (fun a r => insertReport r a) []).foldl (fun s r => s.report r) s

/-- What a contact that goes on reports: DOWN when a hover touches, MOVE when it has moved, HOVER at a change (R278, R279). -/
def goOnType (old new : Contact) : Option Nat :=
  if old.hover && !new.hover then some 1
  else if new.hover then (if old.x ≠ new.x || old.y ≠ new.y || old.z ≠ new.z then some 5 else none)
  else if old.x ≠ new.x || old.y ≠ new.y then some 2 else none

/-- Anti-touch: nodes below −ANTI_THRESH are rebaselined, and masks over them go (R286). -/
def State.antiTouch (d : Nat) (s : State) : State :=
  let k := s.desk d
  let hit := (List.range k.nodes.length).filter (fun i => decide ((k.nodes.getD i {}).delta < -(k.cfg.antiThresh : Int)))
  let keep := k.masks.filter (fun m => !hit.any (fun i => hasNat i m.nodes))
  let s := s.modDesk d (fun k => { k with
    nodes := k.nodes.mapIdx (fun i n => if hasNat i hit then { n with b := n.y, b0 := n.y } else n), masks := keep })
  (s.count 0x10 d 9 hit.length).count 0x10 d 8 (k.masks.length - keep.length)

/-- Tracking of a frame (R277): the contacts, and the reports they give. -/
def State.track (d : Nat) (ds : List Int) (atStart : Bool) (s : State) : State × List TouchReport :=
  let k := s.desk d
  let c := k.cfg
  let ps := peaksOf c k.masks ds
  let got := greedy (candidates c k.contacts ps) []
  let peakOf := fun (x : Contact) => (List.find? (fun (g : Nat × Nat) => decide (g.1 = x.id)) got).bind
    (fun g => List.find? (fun (p : Peak) => decide (p.node = g.2)) ps)
  let gone := k.contacts.filter (fun x => (peakOf x).isNone)
  let on := k.contacts.filterMap (fun x => (peakOf x).map (fun p => (x, x.follow c k.frameStart p)))
  let free := (ps.filter (fun p => !got.any (fun g => decide (g.2 = p.node)))).foldr insertPeak []
  let t := free.foldl (Tracked.add c k.frameStart k.held.length) { old := on.map (fun e => e.2), lastId := k.lastId }
  let fallen := fun (x : Contact) => !x.hover && decide (valueAt ds x.node < releaseLimit c)
  let ends := fun (x : Contact) => s.contactReport d (if x.hover then 6 else 3) ds false x
  let goes := on.filterMap (fun e => if fallen e.2 then some (s.contactReport d 3 ds false e.2) else (goOnType e.1 e.2).map (fun y => s.contactReport d y ds false e.2))
  let news := t.new.map (fun x => s.contactReport d (if x.hover then 5 else 1) ds atStart x)
  let s := s.modDesk d (fun k => { k with contacts := (t.old ++ t.new).filter (fun x => !fallen x), lastId := t.lastId })
  (s.count 0x10 d 6 t.left, gone.map ends ++ goes ++ news)

/-- Baselines, freezes and masks after a frame (R282, R284, R285). -/
def State.settleNodes (d : Nat) (ds : List Int) (s : State) : State :=
  let k := s.desk d
  let c := k.cfg
  let drift := (List.range k.nodes.length).map (driftNode c k.nodes k.masks ds)
  let aged := k.masks.map (Mask.age c ds)
  let keep := aged.filter (fun m => decide (m.clear < 3))
  let s := s.modDesk d (fun k => { k with
    nodes := k.nodes.mapIdx (fun i n => { n with b := (drift.getD i (n.b, false)).1, frozen := thaw c (valueAt ds i) n }), masks := keep })
  (s.count 0x10 d 10 (drift.filter (fun e => e.2)).length).count 0x10 d 8 (aged.length - keep.length)

/-- Contacts held longer than the hold limit become held objects at the end of the frame (R285). -/
def State.holdObjects (d : Nat) (ds : List Int) (s : State) : State × List TouchReport :=
  let k := s.desk d
  let c := k.cfg
  let held := k.contacts.filter (fun x => !x.hover && decide (c.holdLimitS * 1000 < (k.frameStart - x.downAt) / 1000000))
  let rs := held.map (fun x => s.contactReport d 4 ds false x)
  let s := s.modDesk d (fun k => { k with contacts := k.contacts.filter (fun x => !held.any (fun y => decide (y.id = x.id))),
                                          masks := k.masks ++ held.map (fun x => heldMask c ds x.node) })
  (s.count 0x10 d 7 held.length, rs)

/-- The frame's own work once its node values stand: anti-touch, tracking, baselines, held objects and reports. -/
def State.runFrame (d : Nat) (atStart : Bool) (s : State) : State :=
  let s := s.antiTouch d
  let ds := (s.desk d).nodes.map Node.delta
  let t := s.track d ds atStart
  let s := t.1.settleNodes d ds
  let h := s.holdObjects d ds
  h.1.reportAll (t.2 ++ h.2)

/-- Nodes frozen at the first frame: those touched at start and their neighbours (R284). -/
def presentNodes (c : DeskCfg) (ns : List Node) : List Nat :=
  (List.range ns.length).foldl (fun a i =>
    if decide ((c.presenceThresh : Int) < (ns.getD i {}).b0 - (ns.getD i {}).y) then (i :: neighbours c i).foldl (fun a j => insertSorted j a) a else a) []

/-- The first touch frame after STARTING (R284, R287). -/
def State.firstFrame (d : Nat) (values : List Int) (s : State) : State :=
  let c := (s.desk d).cfg
  let ns := (List.range (panelSize c)).map (fun i => firstNode (s.baseAt d i) (nodeValue c (s.desk d).info (s.desk d).plan i (valueAt values i)))
  let hit := presentNodes c ns
  let s := (s.deskState d .active).modDesk d (fun k => { k with nodes := ns.mapIdx (fun i n => if hasNat i hit then { n with frozen := 16 } else n), masks := [] })
  s.runFrame d true

/-- A measured touch frame (R272 to R287): discarded whole if it is bad, else filtered, tracked and reported. `values` are the magnitudes of
the nodes' I/Q pairs. -/
def State.touchMeasured (d : Nat) (values : List Int) (noise nextNoise : Nat) (s : State) : State :=
  let k := s.desk d
  if !k.inFrame || !(k.state = .starting || k.state = .active) then s
  else if k.bad then s.discardFrame d
  else
    let s := (s.count 0x10 d 0 1).modDesk d (fun k => { (k.listen noise nextNoise) with inFrame := false, discardRun := 0 })
    if k.state = .starting then s.firstFrame d values
    else
      let s := s.modDesk d (fun k => { k with nodes := k.nodes.mapIdx (fun i n => n.filter k.cfg (nodeValue k.cfg k.info k.plan i (valueAt values i))) })
      s.runFrame d false

/-! ### The link (R270, R271, R287) -/

/-- SAMPLE_INSTANT_RX (R270, R287): the CRC of SAMPLE_END is folded over the instant's data blocks; a failed check or a missing instant
spoils the touch frame. -/
def State.sampleInstant (d count : Nat) (data : List Byte) (crc : Nat) (s : State) : State :=
  let k := s.desk d
  if !(k.state = .starting || k.state = .active) || !k.locked then s
  else
    let crcOk := decide ((foldCrc 0 (count % 16777216) d data).toNat = crc)
    let gap := decide (count % 16777216 ≠ (k.sampleCount + 1) % 16777216)
    let s := if crcOk then s else s.count 0x10 d 3 1
    s.modDesk d (fun k => { k with sampleCount := count % 16777216, bad := k.bad || !crcOk || gap })

/-- THIMBLE_MESSAGE_RX (R270): a message is kept until the read ends; an unknown block type is counted. -/
def State.thimbleMessage (d blockType payload : Nat) (s : State) : State :=
  let k := s.desk d
  if k.state = .off || !k.locked then s
  else if blockType = 0xB4 then s.modDesk d (fun k => { k with messages := k.messages ++ [payload % 2 ^ 56] })
  else if blockType = 0xD2 || blockType = 0x96 then s
  else s.count 0x10 d 2 1

/-- How many bytes of info memory the device reads: identity and electrode counts in 8, the factory baseline of 16 bits a node, F_LIMIT, 16
gain factors a sense line, and the CRC (R271; the sizes that R271 does not give are PRESUMED, log entry 125). -/
def infoBytes (c : DeskCfg) : Nat := 8 + 2 * panelSize c + 2 + 32 * c.senseN + 4

/-- DESK_BLOCK_LOCK (R287, R325): ALIGN and the info memory read begin. -/
def State.deskBlockLock (d : Nat) (s : State) : State :=
  let k := s.desk d
  if k.state ≠ .linkDown || k.locked then s
  else ((s.modDesk d (fun k => { k with locked := true, messages := [] })).modLane k.cfg.lane (fun x => { x with cdrLocked := true })).sendDesk d
    [.align 0, .read 0 (infoBytes k.cfg)]

/-- A desk enters FAULT, which is a fault source (R287). -/
def State.deskFault (d : Nat) (s : State) : State := (s.deskState d .fault).fireSrc 61 0xFFFF d

/-- DESK_INFO_READ_DONE (R271, R287): the head's info memory decides between STARTING and FAULT. -/
def State.infoRead (d : Nat) (info : HeadInfo) (s : State) : State :=
  let k := s.desk d
  if k.state ≠ .linkDown || !k.locked then s
  else if !infoSound info || decide (info.driveN ≠ k.cfg.driveN) || decide (info.senseN ≠ k.cfg.senseN) then
    (s.modDesk d (fun k => { k with messages := [] })).deskFault d
  else (s.modDesk d (fun k => { k with info := info, restarts := 0, messages := [], sampleCount := 0 })).deskState d .starting

/-- DESK_START_TIMEOUT (R287): the link restarts; after three restarts the desk enters FAULT. -/
def State.deskTimeout (d : Nat) (s : State) : State :=
  let k := s.desk d
  if k.state ≠ .linkDown || !k.locked then s
  else if 3 ≤ k.restarts then s.deskFault d
  else s.modDesk d (fun k => { k with locked := false, restarts := k.restarts + 1, messages := [] })

/-- DESK_LINK_LOSS (R287): block lock is lost. -/
def State.deskLoss (d : Nat) (s : State) : State :=
  let k := s.desk d
  if !k.locked then s
  else
    let s := ((s.count 0x10 d 4 1).modDesk d (fun k => { k with locked := false })).modLane k.cfg.lane (fun x => { x with cdrLocked := false })
    if k.state = .starting || k.state = .active then s.deskState d .linkDown else s

/-! ### The user baseline (R283, R381) -/

/-- TOUCH_BASELINE (R338). -/
def specTouchBaseline : CmdSpec := { opcode := 0x0503, legal := 0x38, len := 4 }

/-- Whether a flash write for any desk is in progress. -/
def State.calBusy (s : State) : Bool := s.desks.any (fun e => e.2.baseWrite.isSome)

/-- A flash write of offsets begins; each clamp counts (R283). -/
def State.startWrite (d : Nat) (c : CmdHdr) (us : List Int) (clamps : Nat) (s : State) : State :=
  (s.count 0x10 d 11 clamps).modDesk d (fun k => { k with baseOp := none, baseWrite := some (c, us, clamps) })

/-- TOUCH_BASELINE (R283, R381). -/
def cmdTouchBaseline (c : CmdHdr) (desk op : Nat) (s : State) : State :=
  s.serve specTouchBaseline c (firstBad [(0, inRange 0 15 desk), (1, inRange 0 1 op)]) (fun s =>
    let k := s.desk desk
    if k.state ≠ .active || !k.contacts.isEmpty || !k.masks.isEmpty || k.baseOp.isSome || s.calBusy then s.refuse specTouchBaseline c .eBusy 0
    else if op = 0 then s.modDesk desk (fun k => { k with baseOp := some (c, 16, []) })
    else s.startWrite desk c (List.replicate (panelSize k.cfg) 0) 0)

/-- The mean of node `i` over the collected frames. -/
def meanAt (vs : List (List Int)) (i : Nat) : Int := (vs.foldl (fun a v => a + valueAt v i) 0) / vs.length

/-- A save after a touch frame (R283): a contact, or leaving ACTIVE, aborts it; the sixteenth frame ends it. -/
def State.saveStep (d : Nat) (s : State) : State :=
  let k := s.desk d
  match k.baseOp with
  | none => s
  | some o =>
    if k.state ≠ .active || !k.contacts.isEmpty then (s.modDesk d (fun k => { k with baseOp := none })).refuse specTouchBaseline o.1 .eBusy 0
    else
      let vs := o.2.2 ++ [k.nodes.map (fun n => n.y)]
      if 1 < o.2.1 then s.modDesk d (fun k => { k with baseOp := some (o.1, o.2.1 - 1, vs) })
      else
        let raw := (List.range k.nodes.length).map (fun i => meanAt vs i - ((k.info.factory.getD i 0 : Nat) : Int))
        let us := raw.map (clampTo k.info.limit)
        s.startWrite d o.1 us ((List.range raw.length).filter (fun i => decide (valueAt raw i ≠ valueAt us i))).length

/-- The older copy takes the offsets with the next sequence (R283, R439). -/
def Flash.writeCal (d : Nat) (us : List Int) (f : Flash) : Flash :=
  if !f.fitted then f
  else
    let base := f.newestCal.getD {}
    let new : CalCopy := { valid := true, seq := base.seq + 1, offsets := base.offsets.set [] d us }
    if f.newestIsA then { f with calB := new } else { f with calA := new }

/-- The flash write of a baseline is complete (R283): B0 and b of every node take the new value, and the reply follows. -/
def State.writeDone (d : Nat) (s : State) : State :=
  match (s.desk d).baseWrite with
  | none => s
  | some w =>
    let s : State := { s with flash := s.flash.writeCal d w.2.1 }
    let s := s.modDesk d (fun k => { k with
      baseWrite := none
      nodes := k.nodes.mapIdx (fun i n =>
        let b0 : Int := ((k.info.factory.getD i 0 : Nat) : Int) + valueAt w.2.1 i
        { n with b := b0, b0 := b0 }) })
    let q := (s.flash.newestCal.map (fun c => c.seq)).getD 0
    s.ok specTouchBaseline w.1 (.words [q, w.2.2]) 8

/-! ### The rows -/

/-- SAMPLE_INSTANT_RX. -/
def execSampleInstantRx (dt : Nat) (desk count : Nat) (b : SampleBlock) (s : State) : Host.Outcome State Fault Refusal :=
  .next ((s.advance dt).sampleInstant desk count b.data b.crc)

/-- THIMBLE_MESSAGE_RX. -/
def execThimbleMessageRx (dt : Nat) (desk blockType payload : Nat) (s : State) : Host.Outcome State Fault Refusal :=
  .next ((s.advance dt).thimbleMessage desk blockType payload)

/-- DESK_BLOCK_LOCK. -/
def execDeskBlockLock (dt : Nat) (desk : Nat) (s : State) : Host.Outcome State Fault Refusal := .next ((s.advance dt).deskBlockLock desk)

/-- DESK_INFO_READ_DONE. -/
def execDeskInfoReadDone (dt : Nat) (desk : Nat) (info : HeadInfo) (s : State) : Host.Outcome State Fault Refusal :=
  .next ((s.advance dt).infoRead desk info)

/-- DESK_START_TIMEOUT. -/
def execDeskStartTimeout (dt : Nat) (desk : Nat) (s : State) : Host.Outcome State Fault Refusal := .next ((s.advance dt).deskTimeout desk)

/-- TOUCH_BASELINE. -/
def execTouchBaseline (dt : Nat) (c : CmdHdr) (desk op : Nat) (s : State) : Host.Outcome State Fault Refusal :=
  .next (cmdTouchBaseline c desk op (s.advance dt))

end Sys2Proof.Machine
end

