-- ==== Sys2Proof/Machine/Transaction.lean ====
section
/-! DEFINITION. Transactions (R54 to R58, R348, R369) and the staging commands (R350 to R368). -/

namespace Sys2Proof.Machine

open Sys2Proof

/-! ### TXN_OPEN, TXN_ABORT, TXN_EXPIRED -/

/-- TXN_OPEN (R338). -/
def specTxnOpen : CmdSpec := { opcode := 0x0100, legal := 0x38 }

/-- The COMMIT record of retained memory is written anew (R437). -/
def State.writeCommitRec (s : State) : State :=
  let r : CommitRec := ⟨((s.ret.commit.map (fun r => r.seq)).getD 0) + 1, s.txns.next - 1, s.splice.committedTxn,
    s.splice.committedFrame, s.bk.bootId⟩
  { s with ret := { s.ret with commit := some r } }

/-- A reservation of transaction IDs in the start record, written before an ID beyond the one in force is issued (R443). -/
def State.reserveTxn (s : State) : State :=
  if s.txns.next ≤ s.txns.reserved then s
  else
    let r := (if s.txns.reserved = 0 then s.txns.next else s.txns.reserved) + 1048576
    ({ s with txns := { s.txns with reserved := r } }).writeStart ((s.flash.startRec.map (fun (x : StartRec) => x.count)).getD 0) r

/-- Open a transaction on a channel (R54, R437). -/
def State.openTxn (ch : Channel) (s : State) : State :=
  let s := s.reserveTxn
  let t : Txn := { id := s.txns.next, channel := ch, lastFrame := s.raster.frame, lastTick := s.time.upTicks }
  ({ s with txns := { s.txns with next := s.txns.next + 1, open_ := s.txns.open_ ++ [t] } }).writeCommitRec

/-- TXN_OPEN (R54, R348). -/
def cmdTxnOpen (c : CmdHdr) (s : State) : State :=
  s.serve specTxnOpen c none (fun s =>
    if 8 ≤ s.txns.open_.length then s.refuse specTxnOpen c .eTxnLimit 8
    else (s.openTxn c.ch).ok specTxnOpen c (.words [(s.txns.next : Int)]) 4)

/-- Close a transaction. -/
def State.closeTxn (id : Nat) (s : State) : State :=
  { s with txns := { s.txns with open_ := s.txns.open_.filter (fun t => decide (t.id ≠ id)) } }

/-- An open transaction. -/
def State.txnOf (s : State) (id : Nat) : Option Txn := List.find? (fun (t : Txn) => decide (t.id = id)) s.txns.open_

/-- TXN_ABORT (R338). -/
def specTxnAbort : CmdSpec := { opcode := 0x0102, legal := 0x38, txn := .required }

/-- TXN_ABORT (R348). -/
def cmdTxnAbort (c : CmdHdr) (s : State) : State :=
  s.serve specTxnAbort c none (fun s => (s.closeTxn c.txn).ok specTxnAbort c .empty 0)

/-- Whether a transaction has reached its idle limit, counted in TIME ticks of 2 ns (R55). -/
def State.idleOver (s : State) (t : Txn) : Bool := decide (s.lay.dev.txnIdleS * 500000000 ≤ s.time.upTicks - t.lastTick)

/-- The idle check of one transaction (R55): one that has reached its idle limit is aborted. Cleat judges it, and a transaction
whose commit is being validated waits for that. -/
def State.expireTxn (id : Nat) (s : State) : State :=
  match s.txnOf id with
  | none => s
  | some t =>
    if s.idleOver t && s.cleatRuns && !s.validating id then (s.closeTxn id).event 0x0003 id t.staged.length else s

/-- The transaction idle check of wall line 0 (R55, R78). -/
def State.idleCheck (s : State) : State := (s.txns.open_.map (fun t => t.id)).foldl (fun s id => s.expireTxn id) s

/-- TXN_EXPIRED: the check is made at wall line 0 and nowhere else (R78). -/
def State.txnExpired (id : Nat) (s : State) : State := if s.raster.run && decide (s.raster.line = 0) then s.expireTxn id else s

/-! ### TXN_COMMIT -/

/-- TXN_COMMIT (R338). -/
def specTxnCommit : CmdSpec := { opcode := 0x0101, legal := 0x38, txn := .required, len := 8 }

/-- TXN_COMMIT: validation runs in the background (R340). -/
def cmdTxnCommit (c : CmdHdr) (frame : Nat) (s : State) : State :=
  s.serve specTxnCommit c none (fun s => { s with bg := { s.bg with commit := s.bg.commit ++ [(c, frame)] } })

/-- Whether a staged object is a head. -/
def isHeadObj (o : StagedObj) : Bool := decide ((stagedKey o).1 = 0x206)

/-- The versions of a commit for wall frame `fr`. A head that needs two sets is disabled in the first, and the second, for the
frame after it, enables it again (R75). -/
def State.commitVersions (s : State) (t : Txn) (fr : Nat) : List Version :=
  let objs := t.staged.map (fun o => o.obj)
  let redo := s.redone fr objs
  let first : Version := { frame := fr, objs := objs ++ redo.map (fun e => StagedObj.head e.1 { e.2 with enable := false }), txns := [t.id] }
  if redo.isEmpty && !s.splice.versions.any (fun v => decide (v.frame = fr + 1)) then insertVersion first s.splice.versions
  else insertVersion { frame := fr + 1, objs := objs.filter isHeadObj } (insertVersion first s.splice.versions)

/-- The generations at which a scheduled set's objects were staged (R369). -/
def noteStaged (staged : List Staged) (gens : Tab Nat) : Tab Nat :=
  staged.foldl (fun g y => (stagedKeys y.obj).foldl (fun g k => g.set 0 k (max (g.get 0 k) y.gen)) g) gens

/-- An accepted commit enters the Splice store and closes its transaction (R58, R81). -/
def State.acceptCommit (t : Txn) (fr : Nat) (s : State) : State :=
  let v := s.commitVersions t fr
  let s := s.closeTxn t.id
  { s with splice := { s.splice with versions := v, stagedGen := noteStaged t.staged s.splice.stagedGen } }

/-- Validation of the oldest waiting commit ends, and TXN_COMMIT replies (R57, R58, R348). -/
def State.endValidation (s : State) : State :=
  match s.bg.commit with
  | [] => s
  | (c, f) :: rest =>
    let s := { s with bg := { s.bg with commit := rest } }
    match s.txnOf c.txn with
    | none => s.refuse specTxnCommit c .eTxn 0
    | some t =>
      match s.validate t f with
      | .refuse st d legal => s.reply specTxnCommit.opcode c st legal d .empty 0
      | .accept fr mask =>
        let s := s.acceptCommit t fr
        s.reply specTxnCommit.opcode c (if mask = 0 then .ok else .wBoundVoid) 0 (if mask = 0 then fr else mask) (.words [(fr : Int)]) 8

/-! ### Staging (R54, R350) -/

/-- The row of a staging command. -/
def specStage (o : StagedObj) : CmdSpec := { opcode := (stagedKey o).1, legal := 0x38, txn := .required, len := stagedLen o }

/-- Put one object among a transaction's staged changes; staging an object again replaces it (R350). -/
def putStaged (x : Staged) : List Staged → List Staged
  | [] => [x]
  | y :: t => if stagedKey y.obj = stagedKey x.obj then x :: t else y :: putStaged x t

/-- Stage one object into a transaction. -/
def State.stageInto (id : Nat) (o : StagedObj) (s : State) : State :=
  { s with txns := { s.txns with open_ := s.txns.open_.map (fun t =>
      if t.id = id then { t with staged := putStaged { obj := o, gen := s.generation } t.staged } else t) } }

/-- Whether a transaction takes one more change (R54). -/
def roomFor (o : StagedObj) (t : Txn) : Bool :=
  decide (t.staged.length < 4096) || t.staged.any (fun y => decide (stagedKey y.obj = stagedKey o))

/-- Whether an object is an access entry that the set in force locks (R368, R389). -/
def lockedNow (l : Layout) : StagedObj → Bool
  | .access i _ => (l.access.get {} i).lock
  | _ => false

/-- A staging command (R350); `bad` is its first field out of range. -/
def cmdStage (c : CmdHdr) (o : StagedObj) (bad : Option Nat) (s : State) : State :=
  s.serve (specStage o) c bad (fun s =>
    if lockedNow s.lay o then s.refuse (specStage o) c .eLocked 0
    else if (s.txns.open_.any (fun t => decide (t.id = c.txn) && !roomFor o t)) then s.refuse (specStage o) c .eTxnLimit 4096
    else (s.stageInto c.txn o).ok (specStage o) c .empty 0)

/-! ### OBJECT_READ (R369) -/

/-- OBJECT_READ (R338). -/
def specObjectRead : CmdSpec := { opcode := 0x0103, legal := 0x78, txn := .optional, len := 12 }

/-- The range of OBJ_ID that a staging opcode can read (R351, R368). -/
def objIdOk (opcode id : Nat) : Bool :=
  match opcode with
  | 0x200 => decide (id = 0)
  | 0x201 => decide (id ≤ 1023)
  | 0x202 => decide (id ≤ 1023)
  | 0x203 => decide (id ≤ 7)
  | 0x204 => decide (id ≤ 15)
  | 0x205 => decide (id ≤ 255)
  | 0x206 => decide (id ≤ 31)
  | 0x207 => decide (id ≤ 2047)
  | 0x208 => decide (id ≤ 31)
  | 0x209 => decide (id ≤ 2097151)
  | 0x20A => decide (id ≤ 255)
  | 0x20B => decide (id ≤ 4095)
  | 0x20C => decide (id = 0)
  | 0x20D => decide (id = 0)
  | 0x20E => decide (id ≤ 15)
  | 0x20F => inRange 2 23 id
  | 0x210 => decide (id ≤ 1)
  | 0x211 => decide (id ≤ 5)
  | 0x212 => decide (id ≤ 23)
  | 0x213 => decide (id ≤ 127)
  | _ => false

/-- A run of a table. -/
def readRun {α : Type} (d : α) (first count : Nat) (t : Tab α) : List α := (List.range count).map (fun i => t.get d (first + i))

/-- An object of a set, as its staging command would carry it. -/
def objOf (l : Layout) (opcode id count : Nat) : StagedObj :=
  match opcode with
  | 0x200 => .device l.dev
  | 0x201 => .source id (l.sources.get {} id)
  | 0x202 => .flow id (l.flows.get {} id)
  | 0x203 => .mac id (l.macs.get {} id)
  | 0x204 => .dprx id (l.dprxs.get {} id)
  | 0x205 => .context id (l.contexts.get {} id)
  | 0x206 => .head id (l.heads.get {} id)
  | 0x207 => .window id (l.windows.get {} id)
  | 0x208 => .encoder id (l.encoders.get {} id)
  | 0x209 => .glyphs id (readRun {} id count l.glyphs)
  | 0x20A => .glyphSet id (l.glyphSets.get {} id)
  | 0x20B => .atlas id (readRun [] id count l.atlas)
  | 0x20C => .colours l.colours
  | 0x20D => .scaler l.scaler
  | 0x20E => .desk id (l.desks.get {} id)
  | 0x20F => .quad id (l.quads.get {} id)
  | 0x210 => .domain id (l.domains.get {} id)
  | 0x211 => .pulse id (l.pulses.get {} id)
  | 0x212 => .regulator id (l.regulators.get {} id)
  | _ => .access id (l.access.get {} id)

/-- The keys of the single objects that a read covers. -/
def readKeys (opcode id count : Nat) : List Nat := (List.range count).map (fun i => objKey (opcode, id + i))

/-- A transaction's staging of an object, with its generation: a run staged whole covers each of its objects. -/
def stagedAs (t : Txn) (opcode id count : Nat) : Option (Nat × StagedObj) :=
  let covering := t.staged.filter (fun y => (stagedKeys y.obj).any (fun k => (readKeys opcode id count).any (fun j => decide (j = k))))
  if (readKeys opcode id count).all (fun j => covering.any (fun y => (stagedKeys y.obj).any (fun k => decide (k = j)))) then
    some (covering.foldl (fun g y => max g y.gen) 0, objOf (({} : Layout).applyAll (covering.map (fun y => y.obj))) opcode id count)
  else none

/-- Objects of a run that fit one reply (R341). -/
def State.runFits (s : State) (ch : Channel) (opcode count : Nat) : Nat :=
  if opcode = 0x209 then min count (s.fits ch 16 32) else if opcode = 0x20B then min count (s.fits ch 16 512) else count

/-- The generation at which a view's object was last changed, or, ahead of its frame, staged (R369). -/
def State.objGen (s : State) (view k : Nat) : Nat :=
  if view = 0 then s.splice.changed.get 0 k else max (s.splice.changed.get 0 k) (s.splice.stagedGen.get 0 k)

/-- OBJECT_READ (R369). -/
def cmdObjectRead (c : CmdHdr) (opcode view id count : Nat) (s : State) : State :=
  s.serve specObjectRead c
    (firstBad [(0, inRange 0x200 0x213 opcode), (2, inRange 0 2 view), (4, objIdOk opcode id),
      (8, if opcode = 0x209 || opcode = 0x20B then decide (1 ≤ count) && objIdOk opcode (id + count - 1) else decide (count = 1))])
    (fun s =>
      let n := s.runFits c.ch opcode count
      let gen := (readKeys opcode id n).foldl (fun g k => max g (s.objGen view k)) 0
      if view = 2 then
        match (s.txnOf c.txn).bind (fun t => stagedAs t opcode id n) with
        | none => s.refuse specObjectRead c .eNotFound id
        | some x => s.ok specObjectRead c (.object x.1 x.2) (8 + stagedLen x.2)
      else
        let l := if view = 0 then s.lay else s.layoutAhead s.lastVersion
        let o := objOf l opcode id n
        s.ok specObjectRead c (.object gen o) (8 + stagedLen o))

/-! ### The rows -/

/-- TXN_OPEN. -/
def execTxnOpen (dt : Nat) (c : CmdHdr) (s : State) : Host.Outcome State Fault Refusal := .next (cmdTxnOpen c (s.advance dt))

/-- TXN_COMMIT. -/
def execTxnCommit (dt : Nat) (c : CmdHdr) (frame : Nat) (s : State) : Host.Outcome State Fault Refusal :=
  .next (cmdTxnCommit c frame (s.advance dt))

/-- TXN_ABORT. -/
def execTxnAbort (dt : Nat) (c : CmdHdr) (s : State) : Host.Outcome State Fault Refusal := .next (cmdTxnAbort c (s.advance dt))

/-- TXN_EXPIRED. -/
def execTxnExpired (dt : Nat) (id : Nat) (s : State) : Host.Outcome State Fault Refusal := .next ((s.advance dt).txnExpired id)

/-- OBJECT_READ. -/
def execObjectRead (dt : Nat) (c : CmdHdr) (opcode view id count : Nat) (s : State) : Host.Outcome State Fault Refusal :=
  .next (cmdObjectRead c opcode view id count (s.advance dt))

/-- STAGE_DEVICE (R352). -/
def execStageDevice (dt : Nat) (c : CmdHdr) (id : Nat) (o : DeviceCfg) (s : State) : Host.Outcome State Fault Refusal :=
  .next (cmdStage c (.device o) (checkDevice id o) (s.advance dt))

/-- STAGE_SOURCE (R353). -/
def execStageSource (dt : Nat) (c : CmdHdr) (id : Nat) (o : SourceCfg) (s : State) : Host.Outcome State Fault Refusal :=
  .next (cmdStage c (.source id o) (checkSource id o) (s.advance dt))

/-- STAGE_FLOW (R354). -/
def execStageFlow (dt : Nat) (c : CmdHdr) (id : Nat) (o : FlowCfg) (s : State) : Host.Outcome State Fault Refusal :=
  .next (cmdStage c (.flow id o) (checkFlow id o) (s.advance dt))

/-- STAGE_MAC (R355). -/
def execStageMac (dt : Nat) (c : CmdHdr) (id : Nat) (o : MacCfg) (s : State) : Host.Outcome State Fault Refusal :=
  .next (cmdStage c (.mac id o) (checkMac id o) (s.advance dt))

/-- STAGE_DPRX (R356). -/
def execStageDprx (dt : Nat) (c : CmdHdr) (id : Nat) (o : DprxCfg) (s : State) : Host.Outcome State Fault Refusal :=
  .next (cmdStage c (.dprx id o) (checkDprx id o) (s.advance dt))

/-- STAGE_CONTEXT (R357). -/
def execStageContext (dt : Nat) (c : CmdHdr) (id : Nat) (o : ContextCfg) (s : State) : Host.Outcome State Fault Refusal :=
  .next (cmdStage c (.context id o) (checkContext id o) (s.advance dt))

/-- STAGE_HEAD (R358). -/
def execStageHead (dt : Nat) (c : CmdHdr) (id : Nat) (o : HeadCfg) (s : State) : Host.Outcome State Fault Refusal :=
  .next (cmdStage c (.head id o) (checkHead id o) (s.advance dt))

/-- STAGE_WINDOW (R359). -/
def execStageWindow (dt : Nat) (c : CmdHdr) (id : Nat) (o : WindowCfg) (s : State) : Host.Outcome State Fault Refusal :=
  .next (cmdStage c (.window id o) (checkWindow id o) (s.advance dt))

/-- STAGE_ENCODER (R360). -/
def execStageEncoder (dt : Nat) (c : CmdHdr) (id : Nat) (o : EncoderCfg) (s : State) : Host.Outcome State Fault Refusal :=
  .next (cmdStage c (.encoder id o) (checkEncoder id o) (s.advance dt))

/-- STAGE_GLYPHS (R361). -/
def execStageGlyphs (dt : Nat) (c : CmdHdr) (first : Nat) (o : List GlyphCfg) (s : State) : Host.Outcome State Fault Refusal :=
  .next (cmdStage c (.glyphs first o) (checkGlyphs first o) (s.advance dt))

/-- STAGE_GLYPH_SET (R362). -/
def execStageGlyphSet (dt : Nat) (c : CmdHdr) (id : Nat) (o : GlyphSetCfg) (s : State) : Host.Outcome State Fault Refusal :=
  .next (cmdStage c (.glyphSet id o) (checkGlyphSet id o) (s.advance dt))

/-- STAGE_ATLAS (R362). -/
def execStageAtlas (dt : Nat) (c : CmdHdr) (first : Nat) (o : List (List Byte)) (s : State) : Host.Outcome State Fault Refusal :=
  .next (cmdStage c (.atlas first o) (checkAtlas first o) (s.advance dt))

/-- STAGE_COLOURS (R362). -/
def execStageColours (dt : Nat) (c : CmdHdr) (id : Nat) (o : List Nat) (s : State) : Host.Outcome State Fault Refusal :=
  .next (cmdStage c (.colours o) (checkColours id o) (s.advance dt))

/-- STAGE_SCALER (R362). -/
def execStageScaler (dt : Nat) (c : CmdHdr) (id : Nat) (o : ScalerCfg) (s : State) : Host.Outcome State Fault Refusal :=
  .next (cmdStage c (.scaler o) (checkScaler id o) (s.advance dt))

/-- STAGE_DESK (R363). -/
def execStageDesk (dt : Nat) (c : CmdHdr) (id : Nat) (o : DeskCfg) (s : State) : Host.Outcome State Fault Refusal :=
  .next (cmdStage c (.desk id o) (checkDesk id o) (s.advance dt))

/-- STAGE_QUAD (R364). -/
def execStageQuad (dt : Nat) (c : CmdHdr) (id : Nat) (o : QuadCfg) (s : State) : Host.Outcome State Fault Refusal :=
  .next (cmdStage c (.quad id o) (checkQuad id o) (s.advance dt))

/-- STAGE_DOMAIN (R365). -/
def execStageDomain (dt : Nat) (c : CmdHdr) (id : Nat) (o : DomainCfg) (s : State) : Host.Outcome State Fault Refusal :=
  .next (cmdStage c (.domain id o) (checkDomain id o) (s.advance dt))

/-- STAGE_PULSE (R366). -/
def execStagePulse (dt : Nat) (c : CmdHdr) (id : Nat) (o : PulseCfg) (s : State) : Host.Outcome State Fault Refusal :=
  .next (cmdStage c (.pulse id o) (checkPulse id o) (s.advance dt))

/-- STAGE_REGULATOR (R367). -/
def execStageRegulator (dt : Nat) (c : CmdHdr) (id : Nat) (o : RegulatorCfg) (s : State) : Host.Outcome State Fault Refusal :=
  .next (cmdStage c (.regulator id o) (checkRegulator id o) (s.advance dt))

/-- STAGE_ACCESS (R368). -/
def execStageAccess (dt : Nat) (c : CmdHdr) (id : Nat) (o : AccessCfg) (s : State) : Host.Outcome State Fault Refusal :=
  .next (cmdStage c (.access id o) (checkAccess id o) (s.advance dt))

end Sys2Proof.Machine
end

