-- ==== Sys2Proof/Machine/Packet.lean ====
section
/-! DEFINITION. The bytes of a command packet (R37) read as a row of the opcode table, by the layouts of the command
reference (R338 to R384), and the row run as a command. -/

namespace Sys2Proof.Machine

open Sys2Proof

/-! ### Fields -/

/-- The little-endian number of `n` bytes at offset `o` (R19). Bytes beyond the end read 0. -/
def fld (ps : List Byte) (o n : Nat) : Nat := leNat ((ps.drop o).take n)

/-- The number of `n` bytes in wire order at offset `o` (R339). -/
def fldWire (ps : List Byte) (o n : Nat) : Nat := ((ps.drop o).take n).foldl (fun a b => 256 * a + b.toNat) 0

/-- The two's complement number of `n` bytes at offset `o` (R339). -/
def fldSigned (ps : List Byte) (o n : Nat) : Int :=
  if fld ps o n < 2 ^ (8 * n - 1) then (fld ps o n : Int) else (fld ps o n : Int) - (2 ^ (8 * n) : Nat)

/-- A one-byte enable or flag. -/
def fldBool (ps : List Byte) (o : Nat) : Bool := decide (fld ps o 1 = 1)

/-- `count` fields of `n` bytes from offset `o` on. -/
def fldList (ps : List Byte) (o n count : Nat) : List Nat := (List.range count).map (fun i => fld ps (o + n * i) n)

/-- A reserved field: zero (R39). -/
def rsv (ps : List Byte) (o n : Nat) : FieldCheck := (o, decide (fld ps o n = 0))

/-- A one-byte field that takes 0 and 1. -/
def flag (ps : List Byte) (o : Nat) : FieldCheck := (o, decide (fld ps o 1 ≤ 1))

/-- A one-byte field whose value lies below `lim`: its upper bits are reserved. -/
def low (ps : List Byte) (o lim : Nat) : FieldCheck := (o, decide (fld ps o 1 < lim))

/-- Bytes that are zero one by one (R350). -/
def zeros (ps : List Byte) (o n : Nat) : List FieldCheck := eachField o 1 (fun b => decide (b = 0#8)) ((ps.drop o).take n)

/-! ### The bodies of the staging commands (R352 to R368) -/

/-- STAGE_DEVICE (R352). -/
def readDevice (ps : List Byte) : DeviceCfg :=
  { wallRate := fld ps 4 1, alarmEngine := fld ps 5 1, strandPref := fld ps 6 1, tdFailover := fld ps 7 1, tdSwitchMaxNs := fld ps 8 4,
    tdSlewPpm := fld ps 12 1, memReserve := fld ps 13 1, memRebase := fld ps 14 1, txnIdleS := fld ps 16 2 }

/-- STAGE_SOURCE (R353). -/
def readSource (ps : List Byte) : SourceCfg :=
  { kind := fld ps 4 1, cls := fld ps 5 1, buffers := fld ps 6 1, origin := fld ps 8 2, frozenN := fld ps 10 2, surfWidth := fld ps 12 2,
    surfHeight := fld ps 14 2, surfFormat := fld ps 16 1 }

/-- STAGE_FLOW (R354). -/
def readFlow (ps : List Byte) : FlowCfg :=
  { enable := fldBool ps 4, type := fld ps 5 1, mac := fld ps 6 1, tsMode := fld ps 7 1, vlan := fld ps 8 2, dstPort := fld ps 10 2,
    pair := fld ps 12 2, srcAny := (fld ps 14 1).testBit 0, ssrcAny := (fld ps 14 1).testBit 1, dstAddr := fldWire ps 16 16,
    srcAddr := fldWire ps 32 16, ssrc := fld ps 48 4, pdMaxUs := fld ps 52 4, captOffset := fldSigned ps 56 4, target := fld ps 60 2,
    pfIndexBase := fld ps 64 4, pfIndexCount := fld ps 68 4, pfTimeMode := fld ps 72 1, sampling := fld ps 73 1, packing := fld ps 74 1,
    sender := fld ps 75 1, width := fld ps 76 2, height := fld ps 78 2, rateNum := fld ps 80 4, rateDen := fld ps 84 4 }

/-- STAGE_MAC (R355). -/
def readMac (ps : List Byte) : MacCfg :=
  { lane := fld ps 4 1, enable := fldBool ps 5, addr := fldWire ps 6 6, ipv4 := fldWire ps 12 4, ipv4Prefix := fld ps 16 1,
    ipv6Prefix := fld ps 17 1, ipv6 := fldWire ps 20 16 }

/-- STAGE_DPRX (R356). -/
def readDprx (ps : List Byte) : DprxCfg :=
  { enable := fldBool ps 4, lane0 := fld ps 5 1, lanes := fld ps 6 1, edidLen := fld ps 8 2, edid := (ps.drop 12).take 512 }

/-- STAGE_CONTEXT (R357). -/
def readContext (ps : List Byte) : ContextCfg :=
  { enable := fldBool ps 4, codec := fld ps 5 1, maxLevel := fld ps 6 1, extraBufs := fld ps 7 1, source := fld ps 8 2,
    maxWidth := fld ps 10 2, maxHeight := fld ps 12 2, outDepth := fld ps 14 1, outScale := fld ps 15 1, backlogMax := fld ps 16 1,
    paramSets := (ps.drop 20).take (fld ps 18 2) }

/-- STAGE_HEAD (R358). -/
def readHead (ps : List Byte) : HeadCfg :=
  { enable := fldBool ps 4, mult := fld ps 5 1, phase := fld ps 6 2, hActive := fld ps 8 2, hFp := fld ps 10 2, hSync := fld ps 12 2,
    hBp := fld ps 14 2, vActive := fld ps 16 2, vFp := fld ps 18 2, vSync := fld ps 20 1, hPol := fld ps 21 1 % 2,
    vPol := fld ps 21 1 / 2 % 2, vBp := fld ps 22 2, bpc := fld ps 24 1, cspace := fld ps 25 1, linkRate := fld ps 26 1,
    lanes := fld ps 27 1, lane0 := fld ps 28 1, urgentLines := fld ps 29 1, lBegin := fld ps 30 1, lBind := fld ps 31 1,
    bg := fld ps 32 4, overlay := fld ps 36 1, ribbon := fld ps 37 1 }

/-- STAGE_WINDOW (R359). -/
def readWindow (ps : List Byte) : WindowCfg :=
  { enable := fldBool ps 4, head := fld ps 5 1, layer := fld ps 6 1, blend := fld ps 7 1, source := fld ps 8 2, alpha := fld ps 10 2,
    dstX := fldSigned ps 12 2, dstY := fldSigned ps 14 2, dstW := fld ps 16 2, dstH := fld ps 18 2, srcX := fld ps 20 2,
    srcY := fld ps 22 2, srcW := fld ps 24 2, srcH := fld ps 26 2, key := fld ps 28 4, fill := fld ps 32 4, matrix := fld ps 36 1,
    range := fld ps 37 1, siting := fld ps 38 1, filter := fld ps 39 1, staleMs := fld ps 40 4, deadMs := fld ps 44 4,
    freezeMs := fld ps 48 4, caption := fld ps 52 1, captionCorner := fld ps 53 1, captionScale := fld ps 54 1 }

/-- One region of an encode context (R360). -/
def readRegion (ps : List Byte) : RegionCfg :=
  { enable := fldBool ps 0, head := fld ps 1 1, scale := fld ps 2 1, x := fld ps 4 2, y := fld ps 6 2, w := fld ps 8 2, h := fld ps 10 2,
    px := fld ps 12 2, py := fld ps 14 2 }

/-- STAGE_ENCODER (R360). -/
def readEncoder (ps : List Byte) : EncoderCfg :=
  { enable := fldBool ps 4, codec := fld ps 5 1, level := fld ps 6 1, rc := fld ps 7 1, width := fld ps 8 2, height := fld ps 10 2,
    fill := fld ps 12 4, matrix := fld ps 16 1, div := fld ps 17 1, startLine := fld ps 18 2, refreshN := fld ps 20 1,
    qpMin := fldSigned ps 21 1, qpMax := fldSigned ps 22 1, cls := fld ps 23 1, rate := fld ps 24 4, maxRate := fld ps 28 4,
    hrdBits := fld ps 32 4, mtu := fld ps 36 2, mac := fld ps 38 1, mac2 := fld ps 39 1, dstAddr := fldWire ps 40 16,
    dstAddr2 := fldWire ps 56 16, dstPort := fld ps 72 2, srcPort := fld ps 74 2, vlan := fld ps 76 2, dscp := fld ps 78 1,
    ttl := fld ps 79 1, pt := fld ps 80 1, ssrc := fld ps 84 4, regions := (List.range 16).map (fun k => readRegion (ps.drop (88 + 16 * k))) }

/-- One glyph instance (R222). -/
def readGlyph (ps : List Byte) : GlyphCfg :=
  { point := fld ps 0 4 % 8388608, enable := (fld ps 0 4).testBit 23, nth := fld ps 0 4 / 16777216 % 8, x := fld ps 4 2, y := fld ps 6 2,
    head := fld ps 8 1, set := fld ps 9 1, kind := fld ps 10 1 % 4, decimals := fld ps 10 1 / 4 % 8, digits := fld ps 11 1,
    thresh := fldList ps 12 4 4, staleMs := fld ps 28 2 }

/-- The instances of a STAGE_GLYPHS (R361). -/
def readGlyphs (ps : List Byte) (n : Nat) : List GlyphCfg := (List.range n).map (fun i => readGlyph (ps.drop (8 + 32 * i)))

/-- STAGE_GLYPH_SET (R362). -/
def readGlyphSet (ps : List Byte) : GlyphSetCfg :=
  { cellW := fld ps 4 1, cellH := fld ps 5 1, digitBase := fld ps 6 2, bandGlyph := fldList ps 8 2 5, bandColour := fldList ps 18 1 5 }

/-- The masks of a STAGE_ATLAS (R362). -/
def readAtlas (ps : List Byte) (n : Nat) : List (List Byte) := (List.range n).map (fun i => (ps.drop (8 + 512 * i)).take 512)

/-- STAGE_SCALER (R362). -/
def readScaler (ps : List Byte) : ScalerCfg :=
  let taps := fun (o n : Nat) => (List.range n).map (fun i => fldSigned ps (o + 2 * i) 2)
  { horiz := (List.range 64).map (fun p => taps (4 + 16 * p) 8), vert := (List.range 64).map (fun p => taps (1028 + 12 * p) 6) }

/-- STAGE_DESK (R363). -/
def readDesk (ps : List Byte) : DeskCfg :=
  { enable := fldBool ps 4, lane := fld ps 5 1, driveN := fld ps 6 1, senseN := fld ps 7 1, mode := fld ps 8 1, driveLevel := fld ps 9 1,
    plans := fld ps 10 2, head := fld ps 12 1, driftShift := fld ps 13 1, maxContacts := fld ps 14 1, filtK := fld ps 16 2,
    matchRadius := fld ps 18 2, touchThresh := fld ps 20 2, hoverThresh := fld ps 22 2, presenceThresh := fld ps 24 2,
    antiThresh := fld ps 26 2, driftMax := fld ps 28 2, holdLimitS := fld ps 30 2, mapA := fldSigned ps 32 4, mapB := fldSigned ps 36 4,
    mapC := fldSigned ps 40 4, mapD := fldSigned ps 44 4, mapE := fldSigned ps 48 4, mapF := fldSigned ps 52 4 }

/-- STAGE_QUAD (R364). -/
def readQuad (ps : List Byte) : QuadCfg :=
  { mode := fld ps 4 1, ethRate := fld ps 5 1, ethFec := fld ps 6 1, ssc := fld ps 7 1, laneInv := fld ps 8 1, swing := fldList ps 12 2 4,
    ffePre := fldList ps 20 1 4, ffePost := fldList ps 24 1 4 }

/-- STAGE_DOMAIN (R365). -/
def readDomain (ps : List Byte) : DomainCfg :=
  { enable := fldBool ps 4, mac := fld ps 5 1, transport := fld ps 6 1, domainNum := fld ps 7 1, vlan := fld ps 8 2,
    delayUnicast := fld ps 10 1, dscp := fld ps 11 1, lockNs := fld ps 12 4, syncTimeoutMs := fld ps 16 2, holdoverS := fld ps 20 4,
    gmAllow := (List.range 4).map (fun i => fldWire ps (24 + 8 * i) 8) }

/-- STAGE_PULSE (R366). -/
def readPulse (ps : List Byte) : PulseCfg :=
  if fld ps 0 4 < 2 then { tpiEdge := fld ps 4 1 }
  else { mode := fld ps 4 1, base := fld ps 5 1, pol := fld ps 6 1, start := fld ps 8 8, period := fld ps 16 8, width := fld ps 24 8 }

/-- STAGE_REGULATOR (R367). -/
def readRegulator (ps : List Byte) : RegulatorCfg :=
  { rate1 := fld ps 4 4, burst1 := fld ps 8 4, rate2 := fld ps 12 4, burst2 := fld ps 16 4 }

/-- STAGE_ACCESS (R368). -/
def readAccess (ps : List Byte) : AccessCfg :=
  { enable := fldBool ps 4, read := (fld ps 5 1).testBit 0, write := (fld ps 5 1).testBit 1, priv := fldBool ps 6, lock := fldBool ps 7,
    base := fld ps 8 8, limit := fld ps 16 8, masters := fld ps 24 8 }

/-! ### Reserved fields (R39) -/

/-- The reserved fields of one glyph instance at offset `o` (R222). -/
def rsvGlyph (ps : List Byte) (o : Nat) : List FieldCheck :=
  [(o, decide (fld ps o 4 < 134217728)), low ps (o + 10) 32, rsv ps (o + 30) 2]

/-- The reserved fields of a packet's parameters, by rising offset, with the fields whose type leaves no room for a value out of
range. -/
def reservedFields (op : Nat) (ps : List Byte) : List FieldCheck :=
  match op with
  | 0x0003 => [rsv ps 10 2]
  | 0x0006 => [rsv ps 4 4]
  | 0x0010 => [rsv ps 3 1]
  | 0x0103 => [rsv ps 3 1]
  | 0x0200 => [rsv ps 15 1, rsv ps 18 2]
  | 0x0201 => [rsv ps 7 1, rsv ps 17 3]
  | 0x0202 => [flag ps 4, low ps 14 4, rsv ps 15 1, rsv ps 62 2]
  | 0x0203 => [flag ps 5, rsv ps 18 2]
  | 0x0204 => [flag ps 4, rsv ps 7 1, rsv ps 10 2]
  | 0x0205 => [flag ps 4, rsv ps 17 1, (18, decide (fld ps 18 2 ≤ 1024))] ++ zeros ps (20 + fld ps 18 2) 1024
  | 0x0206 => [flag ps 4, low ps 21 4, rsv ps 38 2]
  | 0x0207 => [flag ps 4, rsv ps 55 1]
  | 0x0208 => [flag ps 4, rsv ps 81 3] ++ (List.range 16).flatMap (fun k => [flag ps (88 + 16 * k), rsv ps (91 + 16 * k) 1])
  | 0x0209 => (List.range (fld ps 4 4)).flatMap (fun i => rsvGlyph ps (8 + 32 * i))
  | 0x020A => [rsv ps 23 1]
  | 0x020E => [flag ps 4, rsv ps 15 1]
  | 0x020F => [rsv ps 9 3]
  | 0x0210 => [flag ps 4, rsv ps 18 2]
  | 0x0211 => if fld ps 0 4 < 2 then zeros ps 5 27 else [rsv ps 7 1]
  | 0x0213 => [flag ps 4, low ps 5 4, flag ps 6, flag ps 7]
  | 0x0302 => [rsv ps 2 2]
  | 0x0304 => [rsv ps 2 2]
  | 0x0400 => [rsv ps 2 6]
  | 0x0401 => [rsv ps 1 3]
  | 0x0402 => [rsv ps 2 2]
  | 0x0500 => [rsv ps 6 2, rsv ps 34 2]
  | 0x0501 => [rsv ps 5 3]
  | 0x0502 => [rsv ps 2 2]
  | 0x0503 => [rsv ps 2 2]
  | 0x0601 => [rsv ps 3 1]
  | 0x0602 => [rsv ps 1 3]
  | 0x0603 => [rsv ps 2 2]
  | _ => []

/-! ### Packets (R37) -/

/-- What Cleat reads in a packet: a row, a length that the command's counts do not call for with the length that they do, or an
unknown opcode. -/
inductive Reading where
  | row (i : Instr)
  | badLength (expected : Nat)
  | unknown
  deriving DecidableEq, Repr

/-- What only keys and image headers tell (log entry 11): whether a DEBUG_UNLOCK response verifies, whether the image received
does, its image sequence and its version. -/
structure Verdicts where
  unlock : List Byte → Bool
  image : Bool
  imgSeq : Nat
  imgVersion : Nat

/-- A row whose count stands in its parameters: it is read once LENGTH is what the count calls for (R336). -/
def counted (len expected : Nat) (i : Instr) : Reading := if len = expected then .row i else .badLength expected

/-- The row that an opcode and its parameters spell (R338 to R384). -/
def readRow (v : Verdicts) (c : CmdHdr) (op : Nat) (ps : List Byte) : Reading :=
  match op with
  | 0x0001 => .row (.identify 0 c)
  | 0x0002 => .row (.summary 0 c)
  | 0x0003 => .row (.readLog 0 c (fld ps 0 8) (fld ps 8 2))
  | 0x0004 => .row (.reset 0 c)
  | 0x0005 => .row (.clearStartCount 0 c)
  | 0x0006 => .row (.fwBegin 0 c (fld ps 0 4))
  | 0x0007 => .row (.fwData 0 c (fld ps 0 4) (ps.drop 4))
  | 0x0008 => .row (.fwEnd 0 c v.image v.imgSeq v.imgVersion)
  | 0x0010 => .row (.memConfig 0 c (fld ps 0 1) (fld ps 1 1) (fld ps 2 1))
  | 0x0011 => .row (.paletteProgram 0 c (fldList ps 0 4 11))
  | 0x0100 => .row (.txnOpen 0 c)
  | 0x0101 => .row (.txnCommit 0 c (fld ps 0 8))
  | 0x0102 => .row (.txnAbort 0 c)
  | 0x0103 => .row (.objectRead 0 c (fld ps 0 2) (fld ps 2 1) (fld ps 4 4) (fld ps 8 4))
  | 0x0200 => .row (.stageDevice 0 c (fld ps 0 4) (readDevice ps))
  | 0x0201 => .row (.stageSource 0 c (fld ps 0 4) (readSource ps))
  | 0x0202 => .row (.stageFlow 0 c (fld ps 0 4) (readFlow ps))
  | 0x0203 => .row (.stageMac 0 c (fld ps 0 4) (readMac ps))
  | 0x0204 => .row (.stageDprx 0 c (fld ps 0 4) (readDprx ps))
  | 0x0205 => .row (.stageContext 0 c (fld ps 0 4) (readContext ps))
  | 0x0206 => .row (.stageHead 0 c (fld ps 0 4) (readHead ps))
  | 0x0207 => .row (.stageWindow 0 c (fld ps 0 4) (readWindow ps))
  | 0x0208 => .row (.stageEncoder 0 c (fld ps 0 4) (readEncoder ps))
  | 0x0209 => counted c.len (8 + 32 * fld ps 4 4) (.stageGlyphs 0 c (fld ps 0 4) (readGlyphs ps ((c.len - 8) / 32)))
  | 0x020A => .row (.stageGlyphSet 0 c (fld ps 0 4) (readGlyphSet ps))
  | 0x020B => counted c.len (8 + 512 * fld ps 4 4) (.stageAtlas 0 c (fld ps 0 4) (readAtlas ps ((c.len - 8) / 512)))
  | 0x020C => .row (.stageColours 0 c (fld ps 0 4) (fldList ps 4 4 64))
  | 0x020D => .row (.stageScaler 0 c (fld ps 0 4) (readScaler ps))
  | 0x020E => .row (.stageDesk 0 c (fld ps 0 4) (readDesk ps))
  | 0x020F => .row (.stageQuad 0 c (fld ps 0 4) (readQuad ps))
  | 0x0210 => .row (.stageDomain 0 c (fld ps 0 4) (readDomain ps))
  | 0x0211 => .row (.stagePulse 0 c (fld ps 0 4) (readPulse ps))
  | 0x0212 => .row (.stageRegulator 0 c (fld ps 0 4) (readRegulator ps))
  | 0x0213 => .row (.stageAccess 0 c (fld ps 0 4) (readAccess ps))
  | 0x0300 => .row (.surfacePublish 0 c (fld ps 0 2) (fld ps 2 2) (fld ps 4 4) (fld ps 8 8) (fld ps 16 8))
  | 0x0301 => .row (.sourceQuery 0 c (fld ps 0 2) (fld ps 2 2))
  | 0x0302 => .row (.encQuery 0 c (fld ps 0 1) (fld ps 1 1))
  | 0x0303 => .row (.pointQuery 0 c (fld ps 0 4) (fld ps 4 4))
  | 0x0304 => .row (.headQuery 0 c (fld ps 0 1) (fld ps 1 1) (fld ps 4 4) (fld ps 8 4))
  | 0x0305 => .row (.counterRead 0 c (fld ps 0 1) (fld ps 1 1) (fld ps 2 2))
  | 0x0400 => .row (.timeAdjust 0 c (fld ps 0 1) (fld ps 1 1) (fld ps 8 8) (fldSigned ps 16 8))
  | 0x0401 => .row (.timeSwitch 0 c (fld ps 0 1))
  | 0x0402 => .row (.timeStatus 0 c (fld ps 0 1) (fld ps 1 1) (fld ps 4 4))
  | 0x0500 => .row (.whipSet 0 c { unit := fld ps 0 1, mode := fld ps 1 1, stop := fld ps 2 1, query := fld ps 3 1, source := fld ps 4 2,
                                   addr := fld ps 8 8, len := fld ps 16 4, seq := fld ps 20 4, owner := fld ps 24 4, expect := fld ps 28 4,
                                   period := fld ps 32 2 })
  | 0x0501 => .row (.probeSet 0 c { group := fld ps 0 1, probe := fld ps 1 1, mode := fld ps 2 1, n := fld ps 3 1, head := fld ps 4 1,
                                    x := fld ps 8 2, y := fld ps 10 2, w := fld ps 12 2, h := fld ps 14 2, expect := fld ps 16 4 })
  | 0x0502 => .row (.laneTest 0 c (fld ps 0 1) (fld ps 1 1) (fld ps 4 4))
  | 0x0503 => .row (.touchBaseline 0 c (fld ps 0 1) (fld ps 1 1))
  | 0x0600 => .row (.faultQuery 0 c (fld ps 0 2) (fld ps 2 2))
  | 0x0601 => .row (.faultReact 0 c (fld ps 0 2) (fld ps 2 1))
  | 0x0602 => .row (.faultRearm 0 c (fld ps 0 1))
  | 0x0603 => .row (.unitRestore 0 c (fld ps 0 2))
  | 0x0604 => .row (.debugChallenge 0 c)
  | 0x0605 => .row (.debugUnlock 0 c (v.unlock (ps.take 64)))
  | _ => .unknown

/-- The opcode of a packet (R37). -/
def packetOp (bs : List Byte) : Nat := fld bs 0 2

/-- A packet's parameters: LENGTH bytes after the header (R37). Bytes that are not there read 0. -/
def packetParams (bs : List Byte) : List Byte :=
  let len := fld bs 6 2
  ((bs.drop 16).take len) ++ List.replicate (len - (bs.length - 16)) 0#8

/-- The folded CRC-32C of a packet, its own field read as zero (R28). -/
def packetCrc (ch : Channel) (bs : List Byte) : Nat :=
  (foldCrc 0 (fld bs 8 4) (packetOwner ch) (leBytes 12 (fld bs 0 12) ++ leBytes 4 0 ++ packetParams bs)).toNat

/-- A packet's header as Cleat reads it (R37). The reserved fields of a count that LENGTH does not match are not read. -/
def packetHdr (ch : Channel) (busy : Bool) (bs : List Byte) : CmdHdr :=
  let op := packetOp bs
  let ps := packetParams bs
  { ch := ch, flags := fld bs 2 2, tag := fld bs 4 2, len := fld bs 6 2, txn := fld bs 8 4, crcOk := decide (fld bs 12 4 = packetCrc ch bs),
    crcCalc := packetCrc ch bs, busy := busy,
    rsvAt := if op = 0x0209 && ps.length ≠ 8 + 32 * fld ps 4 4 then none else firstBad (reservedFields op ps) }

/-- What Cleat reads in a packet. -/
def readPacket (v : Verdicts) (ch : Channel) (busy : Bool) (bs : List Byte) : Reading :=
  readRow v (packetHdr ch busy bs) (packetOp bs) (packetParams bs)

/-! ### Commands run -/

/-- Run the row of a host command. The other rows are no commands. -/
def runCommand (i : Instr) (s : State) : State :=
  match i with
  | .identify _ c => cmdIdentify c s
  | .summary _ c => cmdSummary c s
  | .readLog _ c a n => cmdReadLog c a n s
  | .reset _ c => cmdReset c s
  | .clearStartCount _ c => cmdClearStartCount c s
  | .fwBegin _ c n => cmdFwBegin c n s
  | .fwData _ c o d => cmdFwData c o d s
  | .fwEnd _ c ok q ver => cmdFwEnd c ok q ver s
  | .memConfig _ c g h k => cmdMemConfig c g h k s
  | .paletteProgram _ c ws => cmdPaletteProgram c ws s
  | .txnOpen _ c => cmdTxnOpen c s
  | .txnCommit _ c f => cmdTxnCommit c f s
  | .txnAbort _ c => cmdTxnAbort c s
  | .objectRead _ c op v id n => cmdObjectRead c op v id n s
  | .stageDevice _ c id o => cmdStage c (.device o) (checkDevice id o) s
  | .stageSource _ c id o => cmdStage c (.source id o) (checkSource id o) s
  | .stageFlow _ c id o => cmdStage c (.flow id o) (checkFlow id o) s
  | .stageMac _ c id o => cmdStage c (.mac id o) (checkMac id o) s
  | .stageDprx _ c id o => cmdStage c (.dprx id o) (checkDprx id o) s
  | .stageContext _ c id o => cmdStage c (.context id o) (checkContext id o) s
  | .stageHead _ c id o => cmdStage c (.head id o) (checkHead id o) s
  | .stageWindow _ c id o => cmdStage c (.window id o) (checkWindow id o) s
  | .stageEncoder _ c id o => cmdStage c (.encoder id o) (checkEncoder id o) s
  | .stageGlyphs _ c id o => cmdStage c (.glyphs id o) (checkGlyphs id o) s
  | .stageGlyphSet _ c id o => cmdStage c (.glyphSet id o) (checkGlyphSet id o) s
  | .stageAtlas _ c id o => cmdStage c (.atlas id o) (checkAtlas id o) s
  | .stageColours _ c id o => cmdStage c (.colours o) (checkColours id o) s
  | .stageScaler _ c id o => cmdStage c (.scaler o) (checkScaler id o) s
  | .stageDesk _ c id o => cmdStage c (.desk id o) (checkDesk id o) s
  | .stageQuad _ c id o => cmdStage c (.quad id o) (checkQuad id o) s
  | .stageDomain _ c id o => cmdStage c (.domain id o) (checkDomain id o) s
  | .stagePulse _ c id o => cmdStage c (.pulse id o) (checkPulse id o) s
  | .stageRegulator _ c id o => cmdStage c (.regulator id o) (checkRegulator id o) s
  | .stageAccess _ c id o => cmdStage c (.access id o) (checkAccess id o) s
  | .surfacePublish _ c src f p a t => cmdSurfacePublish c src f p a t s
  | .sourceQuery _ c src n => cmdSourceQuery c src n s
  | .encQuery _ c x n => cmdEncQuery c x n s
  | .pointQuery _ c a n => cmdPointQuery c a n s
  | .headQuery _ c h x o n => cmdHeadQuery c h x o n s
  | .counterRead _ c b f n => cmdCounterRead c b f n s
  | .timeAdjust _ c d f n o => cmdTimeAdjust c d f n o s
  | .timeSwitch _ c d => cmdTimeSwitch c d s
  | .timeStatus _ c x d a => cmdTimeStatus c x d a s
  | .whipSet _ c p => cmdWhipSet c p s
  | .probeSet _ c p => cmdProbeSet c p s
  | .laneTest _ c l f w => cmdLaneTest c l f w s
  | .touchBaseline _ c d o => cmdTouchBaseline c d o s
  | .faultQuery _ c a n => cmdFaultQuery c a n s
  | .faultReact _ c n m => cmdFaultReact c n m s
  | .faultRearm _ c m => cmdFaultRearm c m s
  | .unitRestore _ c u => cmdUnitRestore c u s
  | .debugChallenge _ c => cmdDebugChallenge c s
  | .debugUnlock _ c ok => cmdDebugUnlock c ok s
  | _ => s

/-- What keys and image headers tell now. -/
def State.verdicts (s : State) : Verdicts :=
  { unlock := fun bs => match s.auth.challenge with | none => false | some k => Config.unlockVerifies k s.fuses.dieId bs
    image := Config.imageVerifies s.fw.data
    imgSeq := Config.imageSeq s.fw.data % 65536
    imgVersion := Config.imageVersion s.fw.data % 4294967296 }

/-- An unknown opcode (R39, R336): checked for PKT_CRC and the transport limit first. -/
def State.unknownOpcode (c : CmdHdr) (op : Nat) (s : State) : State :=
  let k : CmdSpec := { opcode := op, legal := 0 }
  match s.admission { k with len := c.len } { c with rsvAt := none, flags := 0 } none with
  | .wait => s
  | .refuse .eCrc d => s.refuse k c .eCrc d
  | .refuse .eLength d => if lenLimit c.ch < c.len then (s.touchTxn c.txn).refuse k c .eLength d else (s.touchTxn c.txn).refuse k c .eOpcode 0
  | _ => (s.touchTxn c.txn).refuse k c .eOpcode 0

/-- Cleat reads and executes one packet of a channel. -/
def State.runPacket (ch : Channel) (busy : Bool) (bs : List Byte) (s : State) : State :=
  match readPacket s.verdicts ch busy bs with
  | .row i => runCommand i s
  | .badLength n => s.serve { opcode := packetOp bs, legal := 0x38, len := n } (packetHdr ch busy bs) none (fun s => s)
  | .unknown => s.unknownOpcode (packetHdr ch busy bs) (packetOp bs)

end Sys2Proof.Machine
end

