-- ==== Sys2Proof/Machine/Transport.lean ====
section
/-! DEFINITION. The rings, their registers and doorbells (R41 to R46), the service UART (R47, R48), and the order in which
Cleat takes the packets that wait (R340). -/

namespace Sys2Proof.Machine

open Sys2Proof

/-! ### Packets that wait (R42, R44, R340) -/

/-- The channels that bring commands, in the order in which the model serves them (R44 keeps no order between rings). -/
def channels : List Channel := (List.range 16).map .ring ++ [.uart]

/-- The packets that wait on a channel, oldest first. -/
def State.waitingOn (s : State) : Channel → List Waiting
  | .ring n => (s.ring n).waiting
  | .uart => s.uart.waiting

/-- Whether Cleat can take the oldest packet of a channel now: its transaction is not being validated (R385). -/
def State.canTake (s : State) (ch : Channel) : Bool :=
  s.cleatRuns && s.channelOpen ch && !s.channelHeld ch &&
    (match s.waitingOn ch with
      | [] => false
      | w :: _ => !((packetHdr ch w.busy w.bytes).crcOk && s.validating (fld w.bytes 8 4)))

/-- A ring stops on an error, with RING_FAULT (R45, R59). -/
def State.ringFault (n cause : Nat) (s : State) : State := (s.setRing n ((s.ring n).stop cause)).event 0x000E n cause

/-- Cleat fetches the oldest packet of a channel and executes it. A packet of no bytes is one whose host memory access failed: its ring
stops with ERR_CAUSE 3 (R43; that this is how the failure comes is a DESIGN CHOICE, log entry 131). -/
def State.takeOne (ch : Channel) (s : State) : State :=
  match ch with
  | .uart => match s.uart.waiting with
    | [] => s
    | w :: t => ({ s with uart := { s.uart with waiting := t } }).runPacket .uart w.busy w.bytes
  | .ring n => match (s.ring n).waiting with
    | [] => s
    | w :: t =>
      if w.bytes.isEmpty then s.ringFault n 3
      else (s.setRing n { s.ring n with waiting := t, wbConsumer := ((s.ring n).wbConsumer + w.slots) % 4294967296 }).runPacket (.ring n) w.busy w.bytes

/-- Cleat takes up to `fuel` packets, one at a time, each from the first channel that can give one. -/
def State.drainN : Nat → State → State
  | 0, s => s
  | fuel + 1, s => match List.find? (fun (ch : Channel) => s.canTake ch) channels with
    | none => s
    | some ch => State.drainN fuel (s.takeOne ch)

/-- Packets that wait anywhere. -/
def State.waitingCount (s : State) : Nat := (channels.map (fun ch => (s.waitingOn ch).length)).sum

/-- Cleat takes every packet that it can take now (R44, R340). -/
def State.drain (s : State) : State := s.drainN s.waitingCount

/-! ### Held replies, events and reports (R44, R60, R61) -/

/-- A reply that was held carries the device state and the generation of the time at which it is written (R38). -/
def State.refreshed (s : State) (r : Reply) : Reply := { r with devState := s.dev.code, generation := s.snap.generation }

/-- Write the replies that a completion ring held, as far as they fit; fetching resumes when none is left (R44). -/
def State.writeHeld (n : Nat) : List Reply → State → State
  | [], s => s.setRing n { s.ring n with held := [], cplFull := false }
  | r :: t, s =>
    let q := s.ring n
    if q.unread + packetSlots (24 + r.len) ≤ q.cplSlots then
      State.writeHeld n t (({ s with out := { s.out with replies := s.refreshed r :: s.out.replies } }).wroteSlots n (packetSlots (24 + r.len)) (replyBytes (s.refreshed r)))
    else s.setRing n { q with held := r :: t }

/-- The held report that was generated first, over all desks (R61). -/
def State.oldestHeld (s : State) : Option TouchReport :=
  s.desks.foldl (fun b e => match b, e.2.held with
    | b, [] => b
    | none, r :: _ => some r
    | some x, r :: _ => if r.stamp < x.stamp then some r else some x) none

/-- Write held ending reports to ring 17 in the order they were generated, as far as there is space (R61). -/
def State.flushReports : Nat → State → State
  | 0, s => s
  | n + 1, s =>
    match s.oldestHeld with
    | none => s
    | some r =>
      if (s.ring 17).runs && decide ((s.ring 17).unread < (s.ring 17).slots) then
        State.flushReports n ((({ s with out := { s.out with touch := r :: s.out.touch } }).modDesk r.desk (fun k => { k with held := k.held.drop 1 })).wroteSlots 17 1 (touchBytes r))
      else s

/-- Ring 17 may have space again: the held reports follow (R61). -/
def State.flushTouch (s : State) : State :=
  let s := s.setRing 17 (s.ring 17).markFull
  s.flushReports (s.desks.foldl (fun n e => n + e.2.held.length) 0)

/-! ### Enable, disable, errors (R43, R45) -/

/-- A ring of no number: the replies of commands that an enable left behind go nowhere (R43). -/
def orphanRing : Nat := 19

/-- A header whose reply goes nowhere once its ring has started afresh. -/
def orphan (n : Nat) (c : CmdHdr) : CmdHdr := if c.ch = .ring n then { c with ch := .ring orphanRing } else c

/-- The commands of ring `n` that still complete in the background will reply to nobody (R43). -/
def State.orphanAll (n : Nat) (s : State) : State :=
  { s with
    bg := { s.bg with
      memConfig := s.bg.memConfig.map (fun x => (orphan n x.1, x.2))
      palette := s.bg.palette.map (fun x => (orphan n x.1, x.2))
      fwData := s.bg.fwData.map (orphan n)
      commit := s.bg.commit.map (fun x => (orphan n x.1, x.2)) }
    ing := { s.ing with copies := s.ing.copies.map (fun k => { k with hdr := orphan n k.hdr }) }
    desks := s.desks.map (fun e => (e.1, { e.2 with
      baseOp := e.2.baseOp.map (fun x => (orphan n x.1, x.2)), baseWrite := e.2.baseWrite.map (fun x => (orphan n x.1, x.2)) })) }

/-- The fields of a RING_CTRL write (R43). -/
structure CtrlFields where
  size : Nat := 0
  cplSize : Nat := 0
  msixVec : Nat := 0
  modUs : Nat := 0

/-- A ring's registers with the fields of a RING_CTRL write. -/
def Ring.withCtrl (r : Ring) (f : CtrlFields) : Ring := { r with size := f.size, cplSize := f.cplSize, msixVec := f.msixVec, modUs := f.modUs }

/-- A ring that starts afresh (R43): nothing of what it did before is left but its registers. -/
def Ring.fresh (r : Ring) (gen : Nat) : Ring :=
  { base := r.base, cplBase := r.cplBase, wbAddr := r.wbAddr, enable := true, size := r.size, cplSize := r.cplSize, msixVec := r.msixVec,
    modUs := r.modUs, wbGeneration := gen }

/-- Whether the function answers writes to BAR0: Q0–Q1 run, and firmware or the boot loader of RECOVERY has set it up (R426, R428). -/
def State.barUp (s : State) : Bool :=
  decide (s.pll 0 = .locked) && decide (s.pll 1 = .locked) && (s.boot.cleatUp || decide (s.boot.recovery = .full))

/-- A RING_CTRL write that sets ENABLE (R43). It is ignored while the ring is enabled, and while RING_ERR is 1. -/
def State.ringEnable (n : Nat) (f : CtrlFields) (s : State) : State :=
  let r := s.ring n
  if 19 ≤ n || !s.barUp || r.enable || r.ringErr then s
  else
    let q := (r.withCtrl f).fresh s.snap.generation
    let s := ((s.setRing n q).orphanAll n).hostWrite r.wbAddr (writeBackBytes q)
    if 10 < f.size || 10 < f.cplSize then s.ringFault n 1
    else if n = 16 then s.eventsLost
    else if n = 17 then s.flushTouch
    else s

/-- A RING_CTRL write that clears ENABLE (R43): what is not fetched is discarded. -/
def State.ringDisable (n : Nat) (s : State) : State :=
  if (s.ring n).enable then
    (s.setRing n { s.ring n with enable := false, waiting := [], held := [], cplFull := false, modHeld := false, modRunning := false }).resetIfDue n
  else s

/-- A write of 1 to RING_ERR (R43). A ring whose ENABLE is 1 runs again, and what it has lost or held follows first (R60, R61). -/
def State.ringErrClear (n : Nat) (s : State) : State :=
  if (s.ring n).ringErr then
    let s := s.setRing n { s.ring n with ringErr := false, errCause := 0 }
    if n = 16 then s.eventsLost else if n = 17 && (s.ring 17).runs then s.flushTouch else s
  else s

/-- A write to RING_CTRL (R43). Any MSIX_VEC of its six bits is stored, 63 too (log entry 126). -/
def State.writeCtrl (n v : Nat) (s : State) : State :=
  let f : CtrlFields := { size := v / 2 % 16, cplSize := v / 32 % 16, msixVec := v / 512 % 64, modUs := v / 65536 % 1024 }
  if v % 2 = 1 then s.ringEnable n f
  else if (s.ring n).enable then s.ringDisable n
  else s.setRing n ((s.ring n).withCtrl f)

/-- A write to a register of a ring block (R43): stored while ENABLE is 0, with the bits that the alignment leaves out at 0. -/
def State.writeReg (n reg v : Nat) (s : State) : State :=
  let r := s.ring n
  if 19 ≤ n || !s.barUp then s
  else if reg = 0x08 then s.writeCtrl n v
  else if reg = 0x0C then (if v.testBit 1 then s.ringErrClear n else s)
  else if r.enable then s
  else if reg = 0x00 then s.setRing n { r with base := v % 18446744073709551616 / 4096 * 4096 }
  else if reg = 0x10 then s.setRing n { r with cplBase := v % 18446744073709551616 / 4096 * 4096 }
  else if reg = 0x18 then s.setRing n { r with wbAddr := v % 18446744073709551616 / 64 * 64 }
  else s

/-! ### Doorbells (R43 to R45) -/

/-- Whether an index lies beyond `span` slots after `base`, or before `old`, which does not precede `base` (R45). -/
def badIndex (base old span index : Nat) : Bool := decide (span < idxDiff index base) || decide (idxDiff index base < idxDiff old base)

/-- A packet in its ring slots (R42). -/
def ringPacket (bs : List Byte) : Waiting := { bytes := bs, slots := packetSlots (fld bs 6 2) }

/-- DB_PRODUCER (R43, R45): a bad index stops the ring; otherwise the packets announced wait, and fetching proceeds. -/
def State.doorProducer (n index : Nat) (packets : List (List Byte)) (s : State) : State :=
  let r := s.ring n
  let index := index % 4294967296
  if !r.runs || n = 16 || n = 17 || 19 ≤ n then s
  else if badIndex r.wbConsumer r.producer r.slots index then s.ringFault n 2
  else if n = 18 then s.setRing n { r with producer := index }
  else (s.setRing n { r with producer := index, waiting := r.waiting ++ packets.map ringPacket }).drain

/-- DB_CONSUMER (R43 to R45, R60, R61): a bad index stops the ring; otherwise slots are released, and what waited for them is
written. -/
def State.doorConsumer (n index : Nat) (s : State) : State :=
  let r := s.ring n
  let index := index % 4294967296
  if !r.runs || 18 ≤ n then s
  else if idxDiff r.wbProducer r.released < idxDiff index r.released then s.ringFault n 4
  else
    let s := s.setRing n { r with released := index }
    if n = 16 then (s.setRing 16 (s.ring 16).markFull).eventsLost
    else if n = 17 then s.flushTouch
    else ((s.writeHeld n (s.ring n).held).resetIfDue n).drain

/-! ### The service UART (R47, R48) -/

/-- The bytes of a frame without its escapes, each the byte after 0x7D with bit 5 turned (log entry 113); none where an escape has nothing to escape, or a flag stands inside (R47, R48). -/
def unescape : List Byte → Option (List Byte)
  | [] => some []
  | b :: t =>
    if b = 0x7E#8 then none
    else if b = 0x7D#8 then match t with
      | [] => none
      | c :: u => if c = 0x7E#8 then none else (unescape u).map (fun bs => (c ^^^ 0x20#8) :: bs)
    else (unescape t).map (fun bs => b :: bs)

/-- A frame is discarded without reply and counted (R48). -/
def State.uartDiscard (s : State) : State := { s with uart := { s.uart with discarded := s.uart.discarded + 1 } }

/-- UART commands that are pending: those that wait, and the one that completes in the background (R48). -/
def State.uartPending (s : State) : Nat := (s.uart.waiting.filter (fun w => !w.busy)).length + (if s.channelHeld .uart then 1 else 0)

/-- UART_FRAME_RX (R47, R48, R426): `raw` holds the bytes between two flags. A frame that arrives before Cleat runs is
discarded. -/
def State.uartFrame (raw : List Byte) (s : State) : State :=
  match unescape raw with
  | none => s.uartDiscard
  | some bs =>
    if bs.length < 16 || !(s.boot.cleatUp || decide (s.dev = .recovery)) then s.uartDiscard
    else
      let w : Waiting := { bytes := bs, busy := decide (4 ≤ s.uartPending) }
      ({ s with uart := { s.uart with waiting := s.uart.waiting ++ [w] } }).drain

/-! ### BAR0 and MSI-X (R41, R46) -/

/-- A host write to BAR0 space that holds no register is counted under source 204 (R41). -/
def State.strayWrite (o : Nat) (s : State) : State :=
  if barMapped o || !s.barUp then s else s.fireAccess 204 13 2 (0x1100000000 + o) 0

/-- MSIX_MODERATION_EXPIRY (R46): the interrupt that MOD_US held back fires. -/
def State.moderationEnd (n : Nat) (s : State) : State :=
  let r := s.ring n
  if r.modHeld then (s.setRing n { r with modHeld := false }).msix r.msixVec
  else s.setRing n { r with modRunning := false }

/-! ### The rows -/

/-- DB_PRODUCER. -/
def execDbProducer (dt : Nat) (ring index : Nat) (packets : List (List Byte)) (s : State) : Host.Outcome State Fault Refusal :=
  .next ((s.advance dt).doorProducer ring index packets)

/-- DB_CONSUMER. -/
def execDbConsumer (dt : Nat) (ring index : Nat) (s : State) : Host.Outcome State Fault Refusal := .next ((s.advance dt).doorConsumer ring index)

/-- RING_ENABLE. -/
def execRingEnable (dt : Nat) (ring size cplSize msixVec modUs : Nat) (s : State) : Host.Outcome State Fault Refusal :=
  .next ((s.advance dt).ringEnable ring { size := size, cplSize := cplSize, msixVec := msixVec, modUs := modUs })

/-- RING_DISABLE. -/
def execRingDisable (dt : Nat) (ring : Nat) (s : State) : Host.Outcome State Fault Refusal := .next ((s.advance dt).ringDisable ring)

/-- RING_ERR_CLEAR. -/
def execRingErrClear (dt : Nat) (ring : Nat) (s : State) : Host.Outcome State Fault Refusal := .next ((s.advance dt).ringErrClear ring)

/-- REGISTER_WRITE. -/
def execRegisterWrite (dt : Nat) (ring reg value : Nat) (s : State) : Host.Outcome State Fault Refusal := .next ((s.advance dt).writeReg ring reg value)

/-- BAR0_STRAY_WRITE. -/
def execBar0StrayWrite (dt : Nat) (addr : Nat) (s : State) : Host.Outcome State Fault Refusal := .next ((s.advance dt).strayWrite addr)

/-- MSIX_MODERATION_EXPIRY. -/
def execMsixModerationExpiry (dt : Nat) (ring : Nat) (s : State) : Host.Outcome State Fault Refusal := .next ((s.advance dt).moderationEnd ring)

/-- UART_FRAME_RX. -/
def execUartFrameRx (dt : Nat) (raw : List Byte) (s : State) : Host.Outcome State Fault Refusal := .next ((s.advance dt).uartFrame raw)

/-- UART_GAP_TIMEOUT. -/
def execUartGapTimeout (dt : Nat) (s : State) : Host.Outcome State Fault Refusal := .next (s.advance dt).uartDiscard

end Sys2Proof.Machine
end

