-- ==== Sys2Proof/Machine/Collector.lean ====
section
/-! DEFINITION. What feeds the fault collector from outside (R404, R415), and the watchdogs of Bowline and of the other
processors (R411, R412). -/

namespace Sys2Proof.Machine

open Sys2Proof

/-- Whether the fault collector and Bowline run: step 5 of the start releases them (R426). -/
def State.collectorRuns (s : State) : Bool := decide (6 ≤ s.boot.step)

/-- A memory channel counts the ECC errors that sources 68 and 69 report (R299, R314). -/
def State.countEcc (f : FaultInfo) (s : State) : State :=
  if (f.source = 68 || f.source = 69) && inRange 50 81 f.unit then s.count 0x11 (f.unit - 50) (f.source - 67) 1 else s

/-- FAULT_SOURCE_FIRE (R404). -/
def State.sourceFire (f : FaultInfo) (s : State) : State := if s.collectorRuns then (s.countEcc f).fire f else s

/-! ### Watchdogs (R411, R412) -/

/-- TIME ticks of 50 ms. -/
def wdogTicks : Nat := 25000000

/-- Whether processor `p` is released: step 8 of the start does that (R426). -/
def State.procReleased (s : State) (p : Nat) : Bool := decide (p < 10) && decide (9 ≤ s.boot.step)

/-- WATCHDOG_KICK (R412): a processor that runs writes its watchdog. -/
def State.kick (p : Nat) (s : State) : State :=
  if s.procReleased p && !s.procDown p then { s with flt := { s.flt with kicks := s.flt.kicks.put p s.time.upTicks } } else s

/-- PROCESSOR_WDOG_EXPIRY (R412): the WDOG source fires 50 ms after the latest write. -/
def State.wdogExpiry (p : Nat) (s : State) : State :=
  let due := match s.flt.kicks.find? p with | none => true | some t => decide (t + wdogTicks ≤ s.time.upTicks)
  if s.procReleased p && due && !hasNat p s.flt.restarting then s.fireSrc (180 + p) 0xFFFF 0xFFFF else s

/-- Bowline's own sources (R411). -/
def State.bowlineFire (n : Nat) (s : State) : State := if s.collectorRuns then s.fireSrc n 0xFFFF 0xFFFF else s

/-! ### The collector's duplicated registers (R415) -/

/-- COLLECTOR (R415): SAFE and FAULT_N by a wired path, the backup register, and a fatal record that is not to be trusted. -/
def State.collectorFail (s : State) : State :=
  if !s.collectorRuns then s
  else
    let r : FirstErr := s.flt.first.get {} 2
    let s : State := { s with
      bk := { s.bk with collectorLatch := true }
      flt := { s.flt with latchClasses := insertSorted 2 s.flt.latchClasses
                          first := s.flt.first.set {} 2 { r with source := 203, valid := false } } }
    s.enterSafe 203

/-! ### The end of a processor's restart (R412) -/

/-- The commands of the background that end unanswered, in ring order. -/
def State.unanswered (s : State) : List (CmdHdr × CmdSpec) :=
  let all := (match s.bg.memConfig with | none => [] | some x => [(x.1, specMemConfig)]) ++
    (match s.bg.palette with | none => [] | some x => [(x.1, specPalette)]) ++
    s.bg.fwData.map (fun c => (c, specFwData (c.len - 4))) ++ s.bg.commit.map (fun x => (x.1, specTxnCommit)) ++
    s.ing.copies.map (fun k => (k.hdr, specSurfacePublish)) ++
    s.desks.flatMap (fun e => (match e.2.baseOp with | none => [] | some x => [(x.1, specTouchBaseline)]) ++
      (match e.2.baseWrite with | none => [] | some x => [(x.1, specTouchBaseline)]))
  channels.flatMap (fun ch => all.filter (fun x => decide (x.1.ch = ch)))

/-- The work of those commands is given up: surface copies free their buffers, and a flash write stops torn (R442). -/
def State.dropBackground (s : State) : State :=
  let s := s.ing.copies.foldl (fun s k => s.dropBuf k.source k.buf) s
  { s with
    bg := {}
    ing := { s.ing with copies := [] }
    flash := s.flash.tear s.calWriting
    desks := s.desks.map (fun e => (e.1, { e.2 with baseOp := none, baseWrite := none })) }

/-- Cleat resumes: commands fetched and not replied to are answered E_INTERNAL, and fetching proceeds (R412). -/
def State.cleatResumes (src : Nat) (s : State) : State :=
  let l := s.unanswered
  (l.foldl (fun s x => s.refuse x.2 x.1 .eInternal src) s.dropBackground).drain

/-- PROCESSOR_RESTART_DONE (R412): the processor resumes. After Reeve, contexts are restored from their save records (R122). -/
def State.restartDone (p : Nat) (s : State) : State :=
  if !hasNat p s.flt.restarting then s
  else
    let s := { s with flt := { s.flt with restarting := removeNat p s.flt.restarting, kicks := s.flt.kicks.put p s.time.upTicks } }
    if p < 2 then (if s.procDown 0 || s.procDown 1 then s else s.cleatResumes (180 + p))
    else if p < 6 then ({ s with dec := { s.dec with engines := s.dec.engines.map (fun (e : Nat × EngineRt) => (e.1, { e.2 with last := none })) } }).dispatch
    else s

/-! ### The rows -/

/-- FAULT_SOURCE_FIRE. -/
def execFaultSourceFire (dt : Nat) (f : FaultInfo) (s : State) : Host.Outcome State Fault Refusal := .next ((s.advance dt).sourceFire f)

/-- PROCESSOR_WDOG_EXPIRY. -/
def execProcessorWdogExpiry (dt : Nat) (proc : Nat) (s : State) : Host.Outcome State Fault Refusal := .next ((s.advance dt).wdogExpiry proc)

/-- WATCHDOG_KICK. -/
def execWatchdogKick (dt : Nat) (proc : Nat) (s : State) : Host.Outcome State Fault Refusal := .next ((s.advance dt).kick proc)

/-- BOWLINE_WDOG. -/
def execBowlineWdog (dt : Nat) (s : State) : Host.Outcome State Fault Refusal := .next ((s.advance dt).bowlineFire 191)

/-- BOWLINE_LOCKSTEP. -/
def execBowlineLockstep (dt : Nat) (s : State) : Host.Outcome State Fault Refusal := .next ((s.advance dt).bowlineFire 190)

/-- COLLECTOR. -/
def execCollector (dt : Nat) (s : State) : Host.Outcome State Fault Refusal := .next (s.advance dt).collectorFail

/-- PROCESSOR_RESTART_DONE. -/
def execProcessorRestartDone (dt : Nat) (proc : Nat) (s : State) : Host.Outcome State Fault Refusal := .next ((s.advance dt).restartDone proc)

end Sys2Proof.Machine
end

