-- ==== Sys2Proof/Machine/Background.lean ====
section
/-! DEFINITION. The ends of the commands that complete in the background (R340), and the touch rows that move a save of a
baseline on (R283). Each lets the packets that wait behind it proceed. -/

namespace Sys2Proof.Machine

open Sys2Proof

/-- Whether neither Cleat core restarts nor stands halted: a background command of a Cleat that does not run is answered when it
resumes (R412). -/
def State.cleatUp (s : State) : Bool := !s.procDown 0 && !s.procDown 1

/-- A command of the background ends, and fetching proceeds (R340). -/
def State.finish (f : State → State) (s : State) : State := if s.cleatUp then (f s).drain else s

/-! ### MEM_CONFIG, PALETTE_PROGRAM, FW_DATA (R183, R292, R345) -/

/-- All of device memory holds zeros (R292). -/
def State.zeroFill (s : State) : State :=
  let blank := fun (f : FrameBuf) => { f with lines := f.lines.map (fun l => l.map (fun _ => 0#8)) }
  { s with
    mem := { s.mem with bytes := s.mem.bytes.filter (fun e => !inMemory e.1) }
    ing := { s.ing with sources := s.ing.sources.map (fun e => (e.1, { e.2 with bufs := e.2.bufs.map (fun b => (b.1, blank b.2)) })) } }

/-- MEM_CONFIG_DONE (R292, R346): memory is zero-filled under the new map, and the reply follows. -/
def State.memConfigEnd (s : State) : State :=
  match s.bg.memConfig with
  | none => s
  | some x =>
    let s := { s.zeroFill with bg := { s.bg with memConfig := none } }
    ({ s with mem := { s.mem with grain := x.2.1, hash := decide (x.2.2.1 = 1), checkInit := decide (x.2.2.2 = 1) } }).ok specMemConfig x.1 .empty 0

/-- PALETTE_PROGRAM_DONE (R183, R347): the fuses are blown, and a read-back that differs yields E_INTERNAL. -/
def State.paletteEnd (readBackOk : Bool) (s : State) : State :=
  match s.bg.palette with
  | none => s
  | some x =>
    let bad := s.fuses.paletteBad || !readBackOk
    let s := { s with
      bg := { s.bg with palette := none }
      fuses := { s.fuses with paletteProgrammed := true, paletteCustomer := x.2, paletteBad := bad } }
    if bad then s.refuseInternal specPalette x.1 else s.ok specPalette x.1 .empty 0

/-- FW_DATA_DONE (R345): the oldest block is in its slot. -/
def State.fwDataEnd (s : State) : State :=
  match s.bg.fwData with
  | [] => s
  | c :: t => ({ s with bg := { s.bg with fwData := t } }).ok (specFwData (c.len - 4)) c .empty 0

/-! ### Touch frames and saves (R283) -/

/-- Whether a touch frame of a desk ends now with a measurement that counts (R272). -/
def DeskRt.measures (k : DeskRt) : Bool := k.inFrame && (decide (k.state = .starting) || decide (k.state = .active)) && !k.bad

/-- TOUCH_FRAME_MEASURED: the frame, then the save that averages it, or that the desk's leaving ACTIVE ends. -/
def State.touchStep (d : Nat) (values : List Int) (noise nextNoise : Nat) (s : State) : State :=
  let t := s.touchMeasured d values noise nextNoise
  if (s.desk d).measures || (t.desk d).state ≠ .active then t.finish (fun t => t.saveStep d) else t

/-- Saves of desks that are no longer ACTIVE end (R283). -/
def State.endSaves (s : State) : State :=
  (s.desks.filter (fun e => e.2.baseOp.isSome && decide (e.2.state ≠ .active))).foldl (fun s e => s.finish (fun s => s.saveStep e.1)) s

/-! ### The rows -/

/-- MEM_CONFIG_DONE. -/
def execMemConfigDone (dt : Nat) (s : State) : Host.Outcome State Fault Refusal := .next ((s.advance dt).finish State.memConfigEnd)

/-- COMMIT_VALIDATED. -/
def execCommitValidated (dt : Nat) (s : State) : Host.Outcome State Fault Refusal :=
  .next ((s.advance dt).finish (fun s => boundCheck s.endValidation))

/-- SURFACE_COPY_DONE. -/
def execSurfaceCopyDone (dt : Nat) (source : Nat) (lines : List (List Byte)) (readOk : Bool) (s : State) : Host.Outcome State Fault Refusal :=
  .next ((s.advance dt).finish (fun s => s.endCopy source lines readOk))

/-- PALETTE_PROGRAM_DONE. -/
def execPaletteProgramDone (dt : Nat) (readBackOk : Bool) (s : State) : Host.Outcome State Fault Refusal :=
  .next ((s.advance dt).finish (fun s => s.paletteEnd readBackOk))

/-- FW_DATA_DONE. -/
def execFwDataDone (dt : Nat) (s : State) : Host.Outcome State Fault Refusal := .next ((s.advance dt).finish State.fwDataEnd)

/-- BASELINE_FLASH_WRITE_DONE. -/
def execBaselineFlashWriteDone (dt : Nat) (desk : Nat) (s : State) : Host.Outcome State Fault Refusal :=
  .next ((s.advance dt).finish (fun s => s.writeDone desk))

/-- TOUCH_FRAME_MEASURED. -/
def execTouchFrameMeasured (dt : Nat) (desk : Nat) (values : List Int) (noise nextNoise : Nat) (s : State) : Host.Outcome State Fault Refusal :=
  .next ((s.advance dt).touchStep desk values noise nextNoise)

/-- DESK_LINK_LOSS. -/
def execDeskLinkLoss (dt : Nat) (desk : Nat) (s : State) : Host.Outcome State Fault Refusal := .next ((s.advance dt).deskLoss desk).endSaves

end Sys2Proof.Machine
end

