-- ==== Sys2Proof/Machine/Boot.lean ====
section
/-! DEFINITION. Clocks, resets, the start sequence, RECOVERY, and power loss (R417 to R446, R449, R453, R463). -/

namespace Sys2Proof.Machine

open Sys2Proof

/-! ### Clocks (R417 to R422) -/

/-- The clock of a CLK_FAIL code (R436). -/
def clockOf : Nat → Option Clock
  | 1 => some .fio | 2 => some .sio | 3 => some .xa | 4 => some .xb | 5 => some .pllCore | 6 => some .pllCodec | 7 => some .pllComp
  | 8 => some .pllPix | 9 => some .pllMem | 10 => some .pllTime | _ => none

/-- The fault source of a clock's monitor (R417). -/
def Clock.source (k : Clock) : Nat := if k.code ≤ 2 then 192 else 190 + k.code

/-- The six device PLLs. -/
def devicePlls : List Clock := [.pllCore, .pllCodec, .pllComp, .pllPix, .pllMem, .pllTime]

/-- Whether a clock stands in a list. -/
def hasClock (k : Clock) (l : List Clock) : Bool := l.any (fun x => decide (x = k))

/-- A clock is enabled. -/
def State.enableClock (k : Clock) (s : State) : State :=
  if hasClock k s.clk.enabled then s else { s with clk := { s.clk with enabled := k :: s.clk.enabled } }

/-- A clock leaves the stable ones. -/
def State.unstable (k : Clock) (s : State) : State := { s with clk := { s.clk with stable := s.clk.stable.filter (fun x => decide (x ≠ k)) } }

/-- A clock is disabled. -/
def State.disableClock (k : Clock) (s : State) : State :=
  let s := s.unstable k
  { s with clk := { s.clk with enabled := s.clk.enabled.filter (fun x => decide (x ≠ k)) } }

/-- Replace the step of the start. -/
def State.setStep (n : Nat) (s : State) : State := { s with boot := { s.boot with step := n } }

/-- The start has failed; a chip reset follows in 100 ms (R427). -/
def State.failStart (s : State) : State := { s with boot := { s.boot with failed := true } }

/-! ### Judgement (R417 to R420, R422) -/

/-- The frequency of a clock in kHz (R417). -/
def State.nominalKhz (s : State) : Clock → Nat
  | .fio => 200000 | .sio => 1000 | .xa => 25000 | .xb => s.fuses.xbFreqKhz | .pllCore => 1200000 | .pllCodec => 1000000
  | .pllComp => 1200000 | .pllPix => 1500000 | .pllMem => 937500 | .pllTime => 500000

/-- Whether the edges counted in a window of 64 µs lie within `pct` % of what the frequency gives (R418, R422). -/
def windowPasses (khz pct count : Nat) : Bool :=
  decide (khz * 64 * (100 - pct) ≤ count * 100000) && decide (count * 100000 ≤ khz * 64 * (100 + pct))

/-- Whether eight consecutive windows have passed; a failing window restarts the count (R418). -/
def eightPass (khz : Nat) : Nat → List Nat → Bool
  | run, [] => decide (8 ≤ run)
  | run, c :: t => eightPass khz (if 8 ≤ run then run else if windowPasses khz 2 c then run + 1 else 0) t

/-- Whether a stable clock's monitor fails (R420): two consecutive windows are outside ±2 %, or, with no window given, no edge came for
the missing-edge time. -/
def monitorTrips (khz : Nat) : List Nat → Bool
  | [] => true
  | [a, b] => !windowPasses khz 2 a && !windowPasses khz 2 b
  | _ => false

/-- Whether FIO's monitor trips during an attempt (R422): a missing edge, or a window outside ±10 %. -/
def attemptTrips (counts : List Nat) : Bool := counts.isEmpty || counts.any (fun c => !windowPasses 200000 10 c)

/-! ### RECOVERY (R428) -/

/-- The device enters RECOVERY. In the full form the clocks are SIO, FIO, XA and PLL_CORE as far as they have started; in the
form on SIO no other clock runs. -/
def State.enterRecovery (form : RecoveryForm) (s : State) : State :=
  let keep := fun (k : Clock) => if form = .sio then decide (k = .sio) else hasClock k [.sio, .fio, .xa, .pllCore]
  let s := { s with
    boot := { s.boot with recovery := form, step := min s.boot.step 7, cleatUp := false, failed := false }
    clk := { s.clk with enabled := s.clk.enabled.filter keep, stable := s.clk.stable.filter keep, fioWait := false } }
  s.setDev .recovery 0xFFFF

/-! ### Step 5 (R426, R427, R436) -/

/-- Sources that latches from an earlier start report, lowest first: FUSE_BAD, then CLK_FAIL (R430, R436). -/
def latchedSources (b : Backup) : List Nat :=
  (if b.fuseBad.isEmpty then [] else [179]) ++ (match clockOf b.clkFail with | none => [] | some k => [k.source])

/-- Latches are counted and captured without reactions, hold FAULT_N until class 2 is rearmed, and clear; the collector's
latch is counted (R415, R436). A customer palette that failed its check records a corrected fault (R183). -/
def State.countLatches (s : State) : State :=
  let bad := s.bk.fuseBad
  let srcs := latchedSources s.bk
  let s := srcs.foldl (fun s n => (s.faultCount n).faultCapture { source := n }) s
  let s := if srcs.isEmpty then s else { s with flt := { s.flt with latchClasses := insertSorted 2 s.flt.latchClasses } }
  let s := if s.bk.collectorLatch then s.faultCount 203 else s
  let s := { s with bk := { s.bk with clkFail := 0, fuseBad := [], collectorLatch := false } }
  if hasNat 6 bad then s.fireSrc 78 0xFFFF 0xFFFF else s

/-- Step 5: the collector and Bowline are released, BOOT_ID rises, the latches are counted, and the failed-start rule
applies (R426, R427, R436). -/
def State.stepFive (s : State) : State :=
  let s := ({ s with bk := { s.bk with bootId := (s.bk.bootId + 1) % 4294967296 }, boot := { s.boot with step := 6 } }).countLatches
  if 4 ≤ s.bk.startCount then (if s.dev = .recovery then s else s.enterRecovery .full)
  else { s with bk := { s.bk with startCount := s.bk.startCount + 1 } }

/-! ### Clocks start and fail (R418 to R422, R425, R426) -/

/-- Whether every clock of a list is stable. -/
def State.allStable (s : State) (ks : List Clock) : Bool := ks.all (fun k => hasClock k s.clk.stable)

/-- The boot source in force: xSPI under an ambiguous strap (R434, R435). -/
def State.bootFrom (s : State) : BootSource := if s.bk.strapAmbig then .xspi else bootSource s.bk.strapChoice

/-- Q0–Q1 and the PCIe function are released (R426). -/
def State.hostLink (s : State) : State := (s.setPll 0 .locked).setPll 1 .locked

/-- Steps 6 and 7: XA, then XB if it is used, then the PLLs; with them the domains and, but under UART load, Q0–Q1 are released. In
RECOVERY only PLL_CORE follows XA (R426, R428). -/
def State.clockSteps (s : State) : State :=
  if s.dev = .recovery then
    let s := if s.boot.step = 6 && hasClock .xa s.clk.stable then s.enableClock .pllCore else s
    if hasClock .pllCore s.clk.stable && decide (s.bootFrom ≠ .uart) then s.hostLink else s
  else if s.boot.step = 6 && hasClock .xa s.clk.stable then
    if s.boot.xbUsed && !hasClock .xb s.clk.stable then s.enableClock .xb
    else (devicePlls.foldl (fun s k => s.enableClock k) s).setStep 7
  else if s.boot.step = 7 && decide (s.dev = .starting) && s.allStable devicePlls then (if s.bootFrom = .uart then s else s.hostLink).setStep 8
  else s

/-- A clock that runs has passed its judgement (R418, R419, R426). Every clock but FIO is judged against FIO or XA. -/
def State.clockPasses (k : Clock) (s : State) : State :=
  if !hasClock k s.clk.enabled || hasClock k s.clk.stable || (k ≠ .fio && !hasClock .fio s.clk.stable) then s
  else
    let s := { s with clk := { s.clk with stable := k :: s.clk.stable } }
    if k = .fio && s.boot.step = 4 then s.stepFive else s.clockSteps

/-- CLOCK_STABLE (R418): the windows counted since the clock was enabled, from the first at which a PLL shows lock, pass. -/
def State.clockStable (counts : List Nat) (k : Clock) (s : State) : State :=
  if eightPass (s.nominalKhz k) 0 counts then s.clockPasses k else s

/-- A FIO start attempt fails (R422): it is latched, and FIO is disabled for 1 ms. -/
def State.fioFails (s : State) : State :=
  let s := s.disableClock .fio
  { s with bk := { s.bk with clkFail := 1, fioTries := s.bk.fioTries + 1 }, clk := { s.clk with fioWait := true } }

/-- CLOCK_JUDGE_TIMEOUT (R419): a clock that has not become stable falls back to 2^20 edges of its own; `count` is the window after
them, none if they do not arrive. If that window passes, the clock is stable. Otherwise it has failed to start: a FIO attempt fails, and
any other clock that a start waits for fails the start. -/
def State.clockTimeout (count : Option Nat) (k : Clock) (s : State) : State :=
  if !hasClock k s.clk.enabled || hasClock k s.clk.stable then s
  else if count.any (fun n => windowPasses (s.nominalKhz k) 2 n) then s.clockPasses k
  else if s.boot.step = 4 then (if k = .fio then s.fioFails else s)
  else if s.dev = .starting && decide (s.boot.step = 6 || s.boot.step = 7) then
    ({ s with bk := { s.bk with clkFail := k.code } }).failStart
  else if s.dev = .recovery then s.disableClock k
  else s

/-- The clients of a failed clock change over (R421): to FIO, to SIO, or into reset; the raster stops with PLL_TIME, and device
memory is lost with PLL_MEM. -/
def State.changeOver (k : Clock) (s : State) : State :=
  match k with
  | .pllCore | .pllCodec | .pllComp => { s with clk := { s.clk with onFio := k :: s.clk.onFio } }
  | .pllPix =>
    let t : State := { s with clk := { s.clk with onFio := k :: s.clk.onFio } }
    t.heads.foldl (fun u e => u.rescaleStrobe e.1) t
  | .pllTime => { s with clk := { s.clk with onFio := k :: s.clk.onFio }, raster := { s.raster with run := false } }
  | .pllMem => { s with clk := { s.clk with held := k :: s.clk.held }, mem := { s.mem with bytes := [], trained := false } }
  | .fio => { s with clk := { s.clk with safeOnSio := true } }
  | .sio | .xa | .xb => s

/-- CLOCK_MONITOR_FAIL (R420 to R422): a running clock is off frequency or stopped; `counts` are its latest windows, none where an edge
is missing. Before FIO is stable this ends the attempt; afterwards the clock's clients change over and its source fires. -/
def State.monitorFail (counts : List Nat) (k : Clock) (s : State) : State :=
  if s.boot.step = 4 && k = .fio && hasClock .fio s.clk.enabled then (if attemptTrips counts then s.fioFails else s)
  else if !hasClock k s.clk.stable || s.boot.step < 6 || !monitorTrips (s.nominalKhz k) counts then s
  else
    let s := { s.unstable k with bk := { s.bk with clkFail := k.code } }
    (s.changeOver k).fireSrc k.source 0xFFFF 0xFFFF

/-- FIO_RETRY (R422): FIO starts again 1 ms after a failed attempt, or RECOVERY on SIO follows the third. -/
def State.fioRetry (s : State) : State :=
  if !s.clk.fioWait then s
  else if 3 ≤ s.bk.fioTries then s.enterRecovery .sio
  else ({ s with clk := { s.clk with fioWait := false } }).enableClock .fio

/-! ### Resets from outside (R423, R424, R449, R453) -/

/-- VDD_SAFE and VDD_IO18 in the order of R448. -/
def porRails : List Nat := [2, 9]

/-- Power-on reset is held: everything that is not fuse or flash is lost (R423, R442). -/
def State.powerOff (s : State) : State :=
  { State.reset with
    pending := s.pending
    flash := (s.flash.abandon s.fw).tear s.calWriting
    fuses := { s.fuses with committed := false }
    pins := { s.pins with fetchStopped := false, pwrFailLow := false, gasp := none }
    temp := { readings := s.temp.readings }
    time := { upTicks := s.time.upTicks }
    out := s.out
    free := s.free }

/-- Programming of the customer palette is torn by the loss of VDD_FUSE (R183, R472). -/
def State.tearPalette (s : State) : State :=
  if s.bg.palette.isSome then { s with fuses := { s.fuses with paletteProgrammed := true, paletteBad := true } } else s

/-- RAIL_EXCURSION (R423, R449): POR from VDD_SAFE and VDD_IO18, a supply reset from any other monitored rail. VDD_FUSE has no
monitor: its row says that the board switches it on or off (log entry 34). Rails are numbered in the order of R448. -/
def State.railTrip (rail : Nat) (s : State) : State :=
  if 12 ≤ rail then s
  else if rail = 11 then
    let s := if s.pins.vddFuse then s.tearPalette else s
    { s with pins := { s.pins with vddFuse := !s.pins.vddFuse } }
  else
    let s := { s.tearPalette with pins := { s.pins with railsBad := insertSorted rail s.pins.railsBad } }
    if hasNat rail porRails then s.powerOff
    else if s.dev = .off then s
    else s.resetTo .supply 0

/-- The start begins once no reset is held (R424, R426, R453). -/
def State.beginStart (s : State) : State :=
  if s.dev = .starting && decide (s.boot.step = 0) && s.pins.railsBad.isEmpty && !s.pins.resetLow then s.setStep 2 else s

/-- POR (R426): released 1 ms after VDD_SAFE and VDD_IO18 have come within range. A rail that is still out holds the rest of
the device (R453). -/
def State.porRelease (s : State) : State :=
  if s.dev ≠ .off then s
  else
    let s := { s with pins := { s.pins with railsBad := s.pins.railsBad.filter (fun r => !hasNat r porRails), resetLow := false } }
    (s.resetTo .por 0).beginStart

/-- SUPPLY_RESET_RELEASE (R453): every monitored rail is within its thresholds. -/
def State.supplyRelease (s : State) : State :=
  if s.dev = .off then s else ({ s with pins := { s.pins with railsBad := [] } }).beginStart

/-- RESET_N_ASSERT (R424): a pulse that is taken holds the device in reset. -/
def State.resetAssert (s : State) : State :=
  if s.dev = .off || s.pins.resetLow then s
  else
    let s := s.resetTo .pin 0
    { s with pins := { s.pins with resetLow := true } }

/-- RESET_N_RELEASE (R424). A restricted TAP instruction acts as BYPASS from then on (R396). -/
def State.resetRelease (s : State) : State :=
  let d : Debug := if s.dbg.pinDrive.isSome then { s.dbg with ir := .bypass, pinDrive := none } else s.dbg
  ({ s with pins := { s.pins with resetLow := false }, dbg := d }).beginStart

/-- PERST_N (R423, R446): the PCIe function alone; the ring registers return to their reset values. -/
def State.perst (s : State) : State := { s with rings := [] }

/-! ### Fuses and strap (R430 to R435, R463) -/

/-- The pin state that a customer code gives over a factory code (R433). -/
def pinState (factory customer : Nat) : Nat :=
  match customer with
  | 0 => if factory < 5 then factory else 0
  | 2 => 1 | 3 => 2 | 4 => 3 | 5 => 4 | _ => 0

/-- The pin map: the factory map, with the customer's overrides where block 4 is programmed and sound (R431, R433). -/
def pinMapOf (f : Fuses) (cust : Bool) : List Nat :=
  (List.range 70).map (fun i => pinState (f.pinFactory.getD i 0) (if cust then f.pinOverrides.getD i 0 else 0))

/-- The highest code of each strap choice (R435). -/
def strapTops : List Nat := [34, 102, 170, 238, 307, 375, 443, 511, 580, 648, 716, 785, 853, 921, 989, 1023]

/-- The choice that a strap reading decodes to (R435). -/
def strapChoiceOf (code : Nat) : Nat := strapTops.findIdx (fun t => decide (code ≤ t))

/-- The choice of sixteen readings, if they agree (R434). -/
def strapDecode (readings : List Nat) : Option Nat :=
  match readings.map strapChoiceOf with
  | [] => none
  | c :: t => if t.all (fun x => decide (x = c)) && decide (readings.length = 16) then some c else none

/-- Whether a choice forces RECOVERY (R435). -/
def strapForces (c : Nat) : Bool := decide (c = 0) || inRange 12 14 c

/-- The lane preset of a choice (R435). -/
def strapPreset (c : Nat) : Nat := if c < 12 then c % 4 else if c = 15 then 0 else c - 11

/-- The strap is measured after a POR (R434). -/
def State.strapMeasure (readings : List Nat) (s : State) : State :=
  match strapDecode readings with
  | some c => { s with bk := { s.bk with strapChoice := c, strapAmbig := false } }
  | none => { s with bk := { s.bk with strapChoice := 0, strapAmbig := true } }

/-- Blocks whose second check fails: those that the load reports, and programmed banks that are torn (R430, R431). -/
def badFuses (f : Fuses) (bad : List Nat) : List Nat :=
  let l := bad.foldl (fun a b => if b < 8 then insertSorted b a else a) []
  let l := if f.paletteProgrammed && f.paletteBad then insertSorted 6 l else l
  if f.custProgrammed && f.custBad then insertSorted 4 l else l

/-- FUSE_LOAD_DONE (R430 to R434): failed blocks are latched and handled, the shadows are committed, the pin map applies, XA is
enabled, the strap is measured after a POR, and FIO's first attempt begins. -/
def State.fuseLoad (bad readings : List Nat) (s : State) : State :=
  if s.dev ≠ .starting || s.boot.step ≠ 2 || s.boot.failed then s
  else
    let f := s.fuses
    let l := badFuses f bad
    let s := { s with bk := { s.bk with fuseBad := l.foldl (fun a b => insertSorted b a) s.bk.fuseBad, fioTries := 0 } }
    if hasNat 0 l || hasNat 1 l then s.enterRecovery .sio
    else if [2, 3, 5, 7].any (fun b => hasNat b l) then s.failStart
    else
      let cust := f.custProgrammed && !hasNat 4 l
      let s := { s with
        fuses := { f with committed := true }
        boot := { s.boot with step := 4, pinMap := pinMapOf f cust, xbUsed := cust && decide (f.xbFreqKhz ≠ 0)
                              palette := if f.paletteProgrammed && !hasNat 6 l then f.paletteCustomer else f.paletteFactory } }
      let s := (s.enableClock .xa).enableClock .fio
      let s := if s.boot.afterPor then s.strapMeasure readings else s
      if s.bk.strapAmbig || strapForces s.bk.strapChoice then s.enterRecovery .full else s

/-! ### Image, training, completion (R310, R319, R426 to R429, R432, R443) -/

/-- The valid images of slots A and B, the newer first by image sequence (R429). -/
def Flash.bootSlots (f : Flash) : List (Nat × ImageSlot) :=
  (if f.slotA.seq < f.slotB.seq then [(1, f.slotB), (0, f.slotA)] else [(0, f.slotA), (1, f.slotB)]).filter (fun e => e.2.valid)

/-- Whether a fuse request may be programmed: CRC and the range of its XB_EXT (R431, R432). -/
def fuseReqOk (q : FuseReq) : Bool :=
  q.crcOk && (if q.xbExt then inRange 10000 100000 q.xbFreqKhz else inRange 20000 50000 q.xbFreqKhz || decide (q.xbFreqKhz = 0))

/-- Firmware programs block 4 from a fuse request while the block is blank; it takes effect at the next reset (R432). -/
def State.fuseRequest (s : State) : State :=
  match s.flash.fuseReq with
  | none => s
  | some q =>
    if s.flash.fitted && s.pins.vddFuse && !s.fuses.custProgrammed && fuseReqOk q then
      { s with fuses := { s.fuses with custProgrammed := true, xbFreqKhz := q.xbFreqKhz, xbExt := q.xbExt, pinOverrides := q.pinOverrides } }
    else s

/-- The image is loaded and verified: the processors are released, and Cleat serves commands from then on (R426). Under UART load the
firmware releases the PCIe function (R429). -/
def State.releaseProcs (slot : Nat) (im : ImageSlot) (s : State) : State :=
  let s := if s.bootFrom = .uart then s.hostLink else s
  ({ s with boot := { s.boot with step := 9, fwSlot := slot, fwVersion := im.version, cleatUp := true } }).fuseRequest

/-- The image of the boot source (R429): of the flash the newer valid one that passes its check, or the other; under a load source the
staged one, which RECOVERY waits for at any start without one (DESIGN CHOICE: R50 and R429 say so of POR; log entry 124). -/
def State.chooseImage (bad : List Nat) (s : State) : State :=
  match s.bootFrom with
  | .xspi => match (if s.flash.fitted then s.flash.bootSlots.find? (fun e => !hasNat e.1 bad) else none) with
    | some e => s.releaseProcs e.1 e.2
    | none => s.failStart
  | _ => if !s.bk.stageValid then s.enterRecovery .full else if !hasNat 2 bad then s.releaseProcs 2 s.flash.staged else s.failStart

/-- The count of the start record, where one is valid. -/
def Flash.startCount (f : Flash) : Nat := if f.fitted then (f.startRec.map (fun r => r.count)).getD 0 else 0

/-- IMAGE_LOADED (R426 to R429): the boot loader applies the failed-start rule to the start record, writes the new count, and
takes its image; `bad` lists the slots whose image fails its CRC or signature. -/
def State.imageLoad (bad : List Nat) (s : State) : State :=
  if s.dev ≠ .starting || s.boot.step ≠ 8 || s.boot.failed then s
  else if s.boot.afterPor && decide (4 ≤ s.flash.startCount) then s.enterRecovery .full
  else (s.setStartCount (if s.boot.afterPor then s.flash.startCount + 1 else s.bk.startCount)).chooseImage bad

/-- MEM_TRAINING_DONE (R310, R402): training results are kept and memory is zero-filled, or the start fails and the channels'
sources fire. -/
def State.memTrained (failed : List Nat) (s : State) : State :=
  if s.dev ≠ .starting || s.boot.step ≠ 9 || s.boot.failed then s
  else
    let bad := failed.filter (fun c => decide (c < 32))
    if bad.isEmpty then
      { s with
        mem := { s.mem with trained := true, bytes := [] }
        ret := { s.ret with trainSeq := s.ret.trainSeq + 1, trained := List.range 32 }
        boot := { s.boot with step := 10 } }
    else bad.foldl (fun s c => s.fireSrc (if c < 30 then 70 else 71) (50 + c) 0xFFFF) s.failStart

/-- The quads of a lane preset (R319). -/
def presetQuads (p : Nat) : Tab QuadCfg :=
  let run := fun (lo n : Nat) (c : QuadCfg) => (List.range n).map (fun i => (lo + i, c))
  if p = 0 then []
  else run 2 8 { mode := 2 } ++
    (if p = 3 then [(10, { mode := 4 })]
     else run 10 2 { mode := 4, ethRate := p, ethFec := if p = 1 then 1 else 0 } ++ run 12 4 { mode := 5 } ++ run 16 8 { mode := 3 })

/-- A quad's PLL starts (R318). -/
def State.startQuads (q : Tab QuadCfg) (s : State) : State := q.foldl (fun s e => s.setPll e.1 .locking) s

/-- Lanes of quads Q2 to Q23. -/
def userLanes : List Nat := (List.range 88).map (fun i => 8 + i)

/-- The first transaction ID of a start (R443). -/
def State.firstTxn (s : State) : Nat :=
  1 + max ((s.ret.commit.map (fun r => r.txnHigh)).getD 0)
    (if s.flash.fitted then max ((s.flash.lastGasp.map (fun g => g.txnHigh)).getD 0) ((s.flash.startRec.map (fun r => r.txnReserved)).getD 0) else 0)

/-- The entries that firmware writes over retained memory and the privileged control space, locked and granting nothing to the
debug masters (R389, R397; log entry 29). -/
def firmwareEntries (t : Tab AccessCfg) : Tab AccessCfg :=
  let own := fun (base limit : Nat) => ({ enable := true, read := true, write := true, priv := true, lock := true, base := base, limit := limit,
                                          masters := 8191 } : AccessCfg)
  let put := fun (i : Nat) (e : AccessCfg) (t : Tab AccessCfg) => if (t.get {} i).lock then t else t.set {} i e
  put 1 (own 0x1108000000 0x1110000000) (put 0 (own 0x1002000000 0x1002010000) t)

/-- BOOT_COMPLETE (R50, R69, R319, R389, R427, R443): START_COUNT goes to zero, the lane preset's quads start, the first
transaction ID is fixed, the device enters CONFIGURING, and the raster is to start at the next wall frame. -/
def State.bootComplete (s : State) : State :=
  if s.dev ≠ .starting || s.boot.step ≠ 10 || s.boot.failed then s
  else
    let quads := presetQuads (if s.bk.strapAmbig then 0 else strapPreset s.bk.strapChoice)
    let s := s.setStartCount 0
    let s := { s with
      boot := { s.boot with step := 11 }
      lay := { s.lay with quads := quads, access := firmwareEntries s.lay.access }
      txns := { s.txns with next := s.firstTxn }
      raster := { first := firstFrameAfter s.lay.dev.wallRate s.wallNs } }
    let s := (List.range 40).foldl (fun s i => s.allocSource (984 + i)) s
    let s := (s.startQuads quads).restLanes userLanes
    s.setDev .configuring 0xFFFF

/-- START_TIMEOUT (R426): a start that has passed step 5 and has not reached its end within 10 s fails. -/
def State.startTimeout (s : State) : State := if s.dev = .starting && decide (6 ≤ s.boot.step) then s.failStart else s

/-- FAILED_START_RESET (R427): the chip reset 100 ms after a failed start. -/
def State.failedStart (s : State) : State := if s.boot.failed then s.chipReset .failedStart else s

/-! ### Power loss (R440, R441) -/

/-- The last-gasp record of now (R441). -/
def State.gaspRecord (s : State) : LastGasp :=
  { seq := (s.flash.lastGasp.map (fun g => g.seq)).getD 0 + 1, bootId := s.bk.bootId, startCount := s.bk.startCount, wallFrame := s.raster.frame,
    committedTxn := s.splice.committedTxn, txnHigh := s.txns.next - 1, committedFrame := s.splice.committedFrame, devState := s.dev.code,
    resetCause := s.bk.resetCause.code, events := (s.log.recs.take 120).reverse, fenced := s.flt.fenced }

/-- Calibration writes in progress stop torn, and their commands are answered E_INTERNAL (R440, log entry 35). -/
def State.stopSaves (s : State) : State :=
  let t : State := { s with flash := s.flash.tear s.calWriting }
  t.desks.foldl (fun (s : State) (e : Nat × DeskRt) => match e.2.baseWrite with
    | none => s
    | some w => (s.modDesk e.1 (fun k => { k with baseWrite := none })).refuse specTouchBaseline w.1 .eInternal 178) t

/-- PWR_FAIL_ASSERT (R440): source 178 fires, fetching stops, a calibration write stops, and the boot loader begins the
last-gasp record. The reset controller reads the pin from step 5 on (R463). -/
def State.powerWarn (s : State) : State :=
  if s.dev = .off || s.boot.step < 6 || s.pins.pwrFailLow then s
  else
    let s := (s.fireSrc 178 0xFFFF 0xFFFF).stopSaves
    { s with pins := { s.pins with pwrFailLow := true, fetchStopped := true, gasp := if s.flash.fitted then some s.gaspRecord else none } }

/-- PWR_FAIL_RELEASE (R440): fetching resumes, and a record that is written stands. -/
def State.powerBack (s : State) : State := { s with pins := { s.pins with pwrFailLow := false, fetchStopped := false } }

/-- LAST_GASP_WRITE_DONE (R441): the record is whole and is the newest. -/
def State.gaspDone (s : State) : State :=
  match s.pins.gasp with
  | none => s
  | some g => { s with flash := { s.flash with lastGasp := some g }, pins := { s.pins with gasp := none }
                       out := { s.out with flash := (lastGaspAt g.seq, gaspBytes g) :: s.out.flash } }

/-! ### The rows -/

/-- Run `f` on the clock that a CLK_FAIL code names. -/
def State.onClock (n : Nat) (f : Clock → State → State) (s : State) : State := match clockOf n with | none => s | some k => f k s

/-- POR. -/
def execPor (dt : Nat) (s : State) : Host.Outcome State Fault Refusal := .next (s.advance dt).porRelease

/-- RAIL_EXCURSION. -/
def execRailExcursion (dt : Nat) (rail : Nat) (s : State) : Host.Outcome State Fault Refusal := .next ((s.advance dt).railTrip rail)

/-- RESET_N_ASSERT. -/
def execResetNAssert (dt : Nat) (s : State) : Host.Outcome State Fault Refusal := .next (s.advance dt).resetAssert

/-- PERST_N. -/
def execPerstN (dt : Nat) (s : State) : Host.Outcome State Fault Refusal := .next (s.advance dt).perst

/-- RESET_N_RELEASE. -/
def execResetNRelease (dt : Nat) (s : State) : Host.Outcome State Fault Refusal := .next (s.advance dt).resetRelease

/-- SUPPLY_RESET_RELEASE. -/
def execSupplyResetRelease (dt : Nat) (s : State) : Host.Outcome State Fault Refusal := .next (s.advance dt).supplyRelease

/-- FUSE_LOAD_DONE. -/
def execFuseLoadDone (dt : Nat) (badBlocks strapReadings : List Nat) (s : State) : Host.Outcome State Fault Refusal :=
  .next ((s.advance dt).fuseLoad badBlocks strapReadings).drain

/-- CLOCK_STABLE. -/
def execClockStable (dt : Nat) (c : ClockCounts) (s : State) : Host.Outcome State Fault Refusal :=
  .next ((s.advance dt).onClock c.clock (State.clockStable c.counts)).drain

/-- CLOCK_JUDGE_TIMEOUT. -/
def execClockJudgeTimeout (dt : Nat) (clock : Nat) (count : Option Nat) (s : State) : Host.Outcome State Fault Refusal :=
  .next ((s.advance dt).onClock clock (State.clockTimeout count)).drain

/-- CLOCK_MONITOR_FAIL. -/
def execClockMonitorFail (dt : Nat) (c : ClockCounts) (s : State) : Host.Outcome State Fault Refusal :=
  .next ((s.advance dt).onClock c.clock (State.monitorFail c.counts))

/-- FIO_RETRY. -/
def execFioRetry (dt : Nat) (s : State) : Host.Outcome State Fault Refusal := .next (s.advance dt).fioRetry.drain

/-- IMAGE_LOADED. -/
def execImageLoaded (dt : Nat) (bad : List Nat) (s : State) : Host.Outcome State Fault Refusal := .next ((s.advance dt).imageLoad bad).drain

/-- MEM_TRAINING_DONE. -/
def execMemTrainingDone (dt : Nat) (failed : List Nat) (s : State) : Host.Outcome State Fault Refusal := .next ((s.advance dt).memTrained failed)

/-- BOOT_COMPLETE. -/
def execBootComplete (dt : Nat) (s : State) : Host.Outcome State Fault Refusal := .next (s.advance dt).bootComplete

/-- START_TIMEOUT. -/
def execStartTimeout (dt : Nat) (s : State) : Host.Outcome State Fault Refusal := .next (s.advance dt).startTimeout

/-- FAILED_START_RESET. -/
def execFailedStartReset (dt : Nat) (s : State) : Host.Outcome State Fault Refusal := .next (s.advance dt).failedStart

/-- PWR_FAIL_ASSERT. -/
def execPwrFailAssert (dt : Nat) (s : State) : Host.Outcome State Fault Refusal := .next (s.advance dt).powerWarn

/-- PWR_FAIL_RELEASE. -/
def execPwrFailRelease (dt : Nat) (s : State) : Host.Outcome State Fault Refusal := .next (s.advance dt).powerBack.drain

/-- LAST_GASP_WRITE_DONE. -/
def execLastGaspWriteDone (dt : Nat) (s : State) : Host.Outcome State Fault Refusal := .next (s.advance dt).gaspDone

end Sys2Proof.Machine
end

