-- ==== Sys2Proof/Machine/Decoding.lean ====
section
/-! DEFINITION. A decode completes: concealment, taint, the refresh guard, reference marks, and output (R113 to R141). -/

namespace Sys2Proof.Machine

open Sys2Proof

/-! ### Sample planes (R119, R134, R135) -/

/-- A plane of samples, line by line. -/
abbrev Plane := List (List Nat)

/-- A sample of a plane. -/
def sampleAt (p : Plane) (x y : Nat) : Nat := (p.getD y []).getD x 0

/-- Samples per line of a plane. -/
def planeWidth (p : Plane) : Nat := (p.getD 0 []).length

/-- The CTU, macroblock or MCU that holds place (x, y) of plane `q`, where `l` is the luma plane: units `n` wide and `m` high in
raster order. -/
def unitAt (l q : Plane) (n m x y : Nat) : Nat :=
  let lx := x * planeWidth l / planeWidth q
  let ly := y * l.length / q.length
  ly / m * ((planeWidth l + (n - 1)) / n) + lx / n

/-- The nearest line above `y`, or else below it, whose unit at column `x` was decoded (R134). -/
def decodedLine (ok : Nat → Bool) (y h : Nat) : Option Nat :=
  match List.find? ok ((List.range y).reverse) with
  | some j => some j
  | none => List.find? ok ((List.range (h - y)).map (fun i => y + i))

/-- One plane with its concealed units filled: from the reference where there is one, else from the nearest decoded line of
the column, else mid-grey where nothing of the picture is decoded (R134, R135). In a column without a decoded unit, of a picture that
has one, the spec states no value (log entry 118). -/
def concealPlane (bad : Nat → Bool) (n m grey range i : Nat) (none_ : Bool) (ref : Option Plane) (l q : Plane) : Plane :=
  q.mapIdx (fun y line => line.mapIdx (fun x v =>
    if !bad (unitAt l q n m x y) then v
    else match ref with
      | some r => sampleAt r x y
      | none => match decodedLine (fun j => !bad (unitAt l q n m x j)) y q.length with
        | some j => sampleAt q x j
        | none => if none_ then grey else Config.concealSample i x y % range))

/-- The reference that concealment copies: the first of list 0 where the context holds it, else the nearest (R134). -/
def CtxRt.concealFrom (rt : CtxRt) (d : PicDesc) : Option PoolPic :=
  match d.refs.head?.bind (fun r => rt.holds r) with
  | some p => some p
  | none => nearestPic d.poc (rt.dpb.filter (fun p => (p.shortRef || p.longRef) && !p.grey))

/-- The units of a decoded picture: width, height, number. -/
def unitForm (r : DecodeResult) : Nat × Nat × Nat :=
  let l := r.planes.getD 0 []
  let m := unitHeight (decide (r.jpeg = 9)) r.ctuSize
  (r.ctuSize, m, unitsIn (planeWidth l) l.length r.ctuSize m)

/-- What the slices of a picture cover: the units decoded, how each was predicted, and how many slices are abandoned. -/
structure Covered where
  units : List Nat := []
  ctus : List CtuInfo := []
  abandoned : Nat := 0

/-- One slice (R134): abandoned where a segment of it is lost or its parameter set is not active, where its syntax breaks, or where it
overlaps units already decoded. -/
def Covered.slice (v : Covered) (x : Bool × SliceResult) : Covered :=
  let us := x.2.ctus.map (fun u => u.index)
  if !x.1 || x.2.broken || us.any (fun u => hasNat u v.units) then { v with abandoned := v.abandoned + 1 }
  else { units := v.units ++ us, ctus := v.ctus ++ x.2.ctus, abandoned := v.abandoned }

/-- What is decoded of a picture, slice by slice. -/
def CodedPic.covered (p : CodedPic) (r : DecodeResult) : Covered :=
  (p.slices.mapIdx (fun i ok => (ok, r.slices.getD i {}))).foldl Covered.slice {}

/-- The stretches of MCUs that a JPEG picture lacks: by lost packets, by Huffman errors, and where its decode stopped (R131, R135). -/
def CodedPic.stretches (p : CodedPic) (r : DecodeResult) : List (List Nat) :=
  let n := (unitForm r).2.2
  if p.blank then [List.range n]
  else (p.breaks ++ r.scanErrors.map (fun m => (m, m + 1))).map (fun (b : Nat × Nat) => stretch p.restart n b.1 b.2)

/-- How many stretches stand apart: one that begins inside an earlier one is no other. -/
def apart (ss : List (List Nat)) : Nat :=
  (ss.foldl (fun (a : List Nat × Nat) s => match s with
    | [] => a
    | u :: _ => (a.1 ++ s, if hasNat u a.1 then a.2 else a.2 + 1)) ([], 0)).2

/-- The units that no decoded slice covers, in order (R131, R134, R135). -/
def CodedPic.concealedUnits (codec : Nat) (p : CodedPic) (r : DecodeResult) : List Nat :=
  let all := List.range (unitForm r).2.2
  if codec = 2 then
    let gone := (p.stretches r).flatten
    all.filter (fun u => hasNat u gone || r.scanStop.any (fun m => decide (m ≤ u)))
  else
    let v := p.covered r
    all.filter (fun u => !hasNat u v.units)

/-- Slices abandoned, and JPEG stretches (R140). -/
def CodedPic.abandoned (codec : Nat) (p : CodedPic) (r : DecodeResult) : Nat :=
  if codec = 2 then apart (p.stretches r) else (p.covered r).abandoned + p.sliceLoss

/-- The planes of a picture after concealment of `units`: from the reference (R134), or for JPEG from the previous output picture, with
mid-grey where there is none (R135). -/
def concealed (codec : Nat) (rt : CtxRt) (d : PicDesc) (r : DecodeResult) (units : List Nat) : List Plane :=
  let l := r.planes.getD 0 []
  let grey := if r.depth = 8 then 0x80 else 0x200
  let bad := fun u => hasNat u units
  let nothing := decide ((unitForm r).2.2 ≤ units.length)
  r.planes.mapIdx (fun i q =>
    let blank := q.map (fun line => line.map (fun _ => grey))
    let ref := if codec = 2 then some (rt.prevOut.getD i blank)
      else (rt.concealFrom d).map (fun p => if p.grey then blank else p.planes.getD i [])
    concealPlane bad (unitForm r).1 (unitForm r).2.1 grey (2 ^ r.depth) i nothing ref l q)

/-! ### Taint (R136) -/

/-- Whether a CTU of a reference is tainted. A substitute counts as tainted whole. -/
def CtxRt.refTainted (rt : CtxRt) (poc : Int) (u : Nat) : Bool :=
  match rt.holds poc with
  | none => true
  | some p => p.allTainted || decide (p.poc ≠ poc) || hasNat u p.taintMap

/-- The taint map of a picture whose concealed units are given, unit by unit in decode order (R136). -/
def taintMap (rt : CtxRt) (r : DecodeResult) (ctus : List CtuInfo) (gone : List Nat) : List Nat :=
  ctus.foldl (fun t u =>
    if u.interReads.any (fun x => rt.refTainted x.1 x.2) ||
       (!r.constrainedIntra && u.intraReads.any (fun n => hasNat n t)) then insertSorted u.index t else t)
    gone

/-- Visible luma samples of a list of units `n` wide and `m` high. -/
def unitSamples (l : Plane) (n m : Nat) (us : List Nat) : Nat :=
  let w := planeWidth l
  let cols := (w + (n - 1)) / n
  us.foldl (fun a u => a + (min ((u % cols + 1) * n) w - u % cols * n) * (min ((u / cols + 1) * m) l.length - u / cols * m)) 0

/-! ### Output (R109, R119, R133) -/

/-- An output sample (R119). -/
def outSample (outDepth depth v : Nat) : Nat :=
  if outDepth = 8 then (if depth = 8 then v else min 255 ((v + 2) / 4)) else (if depth = 8 then 4 * v else v)

/-- One averaged sample of a group of side `g` (R119). -/
def groupMean (p : Plane) (g x y : Nat) : Nat :=
  let xs := (List.range g).map (fun i => g * x + i)
  let ys := (List.range g).map (fun i => g * y + i)
  let vs := ((ys.filter (fun j => decide (j < p.length))).map (fun j =>
    (xs.filter (fun i => decide (i < planeWidth p))).map (fun i => sampleAt p i j))).flatten
  (2 * vs.foldl (fun a v => a + v) 0 + vs.length) / (2 * vs.length)

/-- A plane scaled by CTX_OUT_SCALE (R119). -/
def scalePlane (scale : Nat) (p : Plane) : Plane :=
  if scale = 0 then p
  else
    let g := if scale = 1 then 2 else 4
    (List.range ((p.length + (g - 1)) / g)).map (fun y => (List.range ((planeWidth p + (g - 1)) / g)).map (fun x => groupMean p g x y))

/-- The bytes of an output line: 8-bit samples, or 10-bit ones in bits [15:6] (R109). -/
def outBytes (outDepth : Nat) (vs : List Nat) : List Byte :=
  if outDepth = 8 then vs.map (fun v => BitVec.ofNat 8 v) else (vs.map (fun v => leBytes 2 (64 * v))).flatten

/-- Two chroma lines interleaved. -/
def interleave : List Nat → List Nat → List Nat
  | a :: s, b :: t => a :: b :: interleave s t
  | _, _ => []

/-- FORMAT of an output picture (R119). -/
def outFormat (codec : Nat) (p : PoolPic) : Nat :=
  if codec = 2 then p.jpeg else if p.outDepth = 8 then 1 else 2

/-- Chroma planes of a picture; greyscale has 0x80 throughout (R119). -/
def chromaOf (ps : List Plane) : Plane × Plane :=
  match ps with
  | [_, cb, cr] => (cb, cr)
  | [l] => let g := List.replicate ((l.length + 1) / 2) (List.replicate ((planeWidth l + 1) / 2) 0x80); (g, g)
  | _ => ([], [])

/-- The frame that a picture gives, in the form of the version that it was decoded under (R109, R119, R141). With a smaller size and
another depth, it is scaled first (log entry 122). -/
def outFrame (codec : Nat) (p : PoolPic) : FrameBuf :=
  let d := if codec = 2 then 8 else p.outDepth
  let ps := p.planes.map (fun q => (scalePlane p.outScale q).map (fun line => line.map (outSample d p.depth)))
  let l := ps.getD 0 []
  let ch := chromaOf ps
  let f := outFormat codec p
  { width := planeWidth l, height := l.length, format := f,
    lines := l.map (outBytes d) ++ (if f = 10 then ch.1.map (outBytes d) ++ ch.2.map (outBytes d)
      else (ch.1.zip ch.2).map (fun x => outBytes d (interleave x.1 x.2))) }

/-- The picture with the lowest POC among those that wait for output. -/
def firstOutput : List PoolPic → Option PoolPic
  | [] => none
  | p :: t => if !p.outputPending || p.sent then firstOutput t else match firstOutput t with
    | none => some p
    | some q => if p.poc ≤ q.poc then some p else some q

/-- One picture is output: it goes to the seal unit, or waits for an output buffer under CTX_OUT_SCALE (R119, R132, R133). What
CONCEALED_FRACTION counts of a scaled output is log entry 122. -/
def State.outputPic (c : Nat) (p : PoolPic) (s : State) : State :=
  let cfg := (s.ctxRt c).cfg
  let i := cfg.source
  let b := if p.outScale = 0 then some p.buf else s.freeOutBuf c
  match b with
  | none => s
  | some b =>
    let fr := outFrame cfg.codec p
    let n := unitSamples (p.planes.getD 0 []) p.ctuSize (unitHeight (decide (p.jpeg = 9)) p.ctuSize) p.taintMap
    let g := if p.outScale = 0 then 1 else if p.outScale = 1 then 4 else 16
    let fr := { fr with addr := s.bufAddr i b, pitchUp := if p.outScale = 0 then p.pitchUp else (s.srcRt i).pitchUp, writing := true, tainted := p.tainted }
    let s := s.modBuf i b (fun _ => fr)
    let s := if p.tainted then s.count 0x02 c 3 1 else s
    let sent := fun (q : PoolPic) => if q.buf ≠ p.buf then q else if p.outScale = 0 then { q with sent := true } else { q with outputPending := false }
    let prev := if cfg.codec = 2 then some p.planes else none
    (s.modCtx c (fun rt => { rt with dpb := (rt.dpb.map sent).filter PoolPic.marked, prevOut := prev.getD rt.prevOut })).makeReady i
      { buf := b, capture := p.capture, captSrc := p.captSrc, arrival := p.arrival, concealedPixels := (n + (g - 1)) / g, concealed := p.tainted,
        fractionMin := 1, origin := c, cls := p.cls }

/-- Pictures are output while more wait than the reorder depth allows (R133). The fuel is the number of pictures held. -/
def State.outputPics (c depth : Nat) : Nat → State → State
  | 0, s => s
  | n + 1, s =>
    let rt := s.ctxRt c
    if (rt.dpb.filter (fun p => p.outputPending && !p.sent)).length ≤ depth then s
    else match firstOutput rt.dpb with
      | none => s
      | some p => State.outputPics c depth n (s.outputPic c p)

/-! ### Completion (R124, R129 to R138) -/

/-- Whether a picture is one that a refresh can rest on: its own CTUs all decoded. JPEG pictures stand alone (R135). -/
def wholeIrap (codec : Nat) (d : PicDesc) (map : List Nat) : Bool := (d.irap || decide (codec = 2)) && map.isEmpty

/-- The refresh guard and the pending refresh after a picture (R138). `hurt` says that it has a concealed CTU. -/
def CtxRt.refresh (codec : Nat) (d : PicDesc) (map : List Nat) (hurt : Bool) (rt : CtxRt) : CtxRt :=
  let rt := if hurt then { rt with guard := true, recovery := none } else rt
  let rt := match d.recovery with
    | some n => if hurt || !rt.guard then rt
      else { rt with recovery := some (match rt.recovery with | none => d.poc + n | some t => min t (d.poc + n)) }
    | none => rt
  let reached := match rt.recovery with | none => false | some t => decide (t ≤ d.poc)
  if rt.guard && (wholeIrap codec d map || (reached && map.isEmpty && !hurt)) then { rt with guard := false, recovery := none } else rt

/-- What an IRAP picture does to the RASL pictures that follow it (R138). -/
def CtxRt.irapRasl (d : PicDesc) (rt : CtxRt) : CtxRt :=
  if d.irap then { rt with raslDiscard := d.bla || decide (rt.picCount = 0), discarded := [] } else rt

/-- The picture as it enters the pool (R132, R136). H.265 marks every decoded picture a short-term reference. -/
def newPic (codec : Nat) (rt : CtxRt) (b : Nat) (p : CodedPic) (r : DecodeResult) (planes : List Plane) (map : List Nat) : PoolPic :=
  { buf := b, poc := p.desc.poc, shortRef := decide (codec ≠ 2) && (decide (codec = 0) || !p.desc.nonRef) && !p.desc.longTerm.any (fun q => decide (q = p.desc.poc)),
    longRef := decide (codec ≠ 2) && p.desc.longTerm.any (fun q => decide (q = p.desc.poc)), outputPending := p.desc.output,
    tainted := !map.isEmpty || rt.guard, taintMap := map, capture := p.capture, captSrc := p.captSrc, arrival := p.arrival,
    planes := planes, depth := r.depth, jpeg := r.jpeg, ctuSize := r.ctuSize, outDepth := rt.cfg.outDepth, outScale := rt.cfg.outScale, cls := p.cls }

/-- A save record that reads back wrong is not used, and the context enters WAIT_IRAP before picture `p` (R122, R129). -/
def State.restoreFail (e c : Nat) (p : CodedPic) (s : State) : State :=
  let s := (s.modEngine e (fun en => { en with pic := none, last := none })).count 0x02 c 8 1
  let s := s.unreadPic c p
  let s := (s.ctxWaitIrap c).ctxSettle c
  let s := if s.ctxClass c = 0 then boundCheck { s with dec := { s.dec with lastRestore := some s.raster.frame } } else s
  (alarmUpdate s).dispatch.fireSrc 76 0xFFFF c

/-- Whether a picture's deadline has passed (R79, R130). -/
def State.pastDeadline (s : State) (c : Nat) (p : CodedPic) : Bool :=
  let d := s.ctxDeadline c p
  decide (d < 0) || decide (lineStartNs s.lay.dev.wallRate (d.toNat / 4096) (d.toNat % 4096) < s.wallNs)

/-- A decode ends with picture `p` of context `c` in pool buffer `b`: completed, or stopped at its picture time (R131). -/
def State.pictureDone (e c b : Nat) (p : CodedPic) (whole : Bool) (r : DecodeResult) (s : State) : State :=
  let codec := (s.ctxRt c).cfg.codec
  let late := s.pastDeadline c p
  let s := (s.count 0x02 c (if whole then 0 else 6) 1).count 0x02 c 2 (p.abandoned codec r)
  let s := if late then s.count 0x02 c 5 1 else s
  let s := s.modCtx c (CtxRt.irapRasl p.desc)
  let s := if p.desc.newSeq then s.outputPics c 0 (s.ctxRt c).dpb.length else s
  let rt := s.ctxRt c
  let gone := p.concealedUnits codec r
  let planes := concealed codec rt p.desc r gone
  let map := if codec = 2 then gone else taintMap rt r (p.covered r).ctus gone
  let s := s.modCtx c (CtxRt.refresh codec p.desc map (!gone.isEmpty))
  let s := if codec = 1 then s.modCtx c (CtxRt.keep p.desc) else s
  let s := s.modCtx c (fun rt =>
    { rt with dpb := rt.dpb ++ [{ newPic codec rt b p r planes map with pitchUp := (s.srcRt rt.cfg.source).pitchUp }], writing := none, picCount := rt.picCount + 1, pictures := rt.pictures + 1,
              reorder := if codec = 2 then 0 else p.desc.reorder })
  let s := s.outputPics c (s.ctxRt c).reorder (s.ctxRt c).dpb.length
  let s := s.modCtx c (fun rt => { rt with dpb := rt.dpb.filter PoolPic.marked })
  let s := s.modEngine e (fun en => { en with pic := none, last := some c })
  let s := if (s.ctxRt c).resync then s.ctxWaitIrap c else s
  (alarmUpdate ((s.saveCtx c).ctxSettle c)).dispatch

/-- Whether the save record that engine `e` restored for context `c` is not used: an uncorrectable error, or a picture count that is not
Reeve's own (R122). -/
def State.restoreBad (s : State) (e c : Nat) (r : DecodeResult) : Bool :=
  let rt := s.ctxRt c
  (s.dec.engines.get {} e).switched &&
    (r.restoreError || decide (r.restored.getD ((rt.save.map (fun x => x.count)).getD 0) ≠ rt.pictures))

/-- DECODE_PICTURE_COMPLETE (R124, R133): engine `e` completes its picture. -/
def State.decodeComplete (e : Nat) (r : DecodeResult) (s : State) : State :=
  match (s.dec.engines.get {} e).pic with
  | none => s
  | some x =>
    if !s.writersRun || s.isFenced (32 + e) then s
    else if s.restoreBad e x.1 r then s.restoreFail e x.1 x.2
    else s.pictureDone e x.1 ((s.ctxRt x.1).writing.getD 0) x.2 true r

/-- DECODE_OVERRUN (R131): the picture is stopped at its picture time; what was not decoded is concealed. -/
def State.decodeOverrun (e : Nat) (r : DecodeResult) (s : State) : State :=
  match (s.dec.engines.get {} e).pic with
  | none => s
  | some x => if !s.writersRun || s.isFenced (32 + e) then s else s.pictureDone e x.1 ((s.ctxRt x.1).writing.getD 0) x.2 false r

/-- POOL_BUFFER_FREED (R124, R132): a picture that waits for a buffer of the pool may start, and an output that waits for an
output buffer may be written. -/
def State.poolFreed (c : Nat) (s : State) : State :=
  if !s.writersRun then s
  else
    let rt := s.ctxRt c
    let s := s.outputPics c rt.reorder rt.dpb.length
    if (s.ctxRt c).waiting then s.dispatch else s

/-! ### The rows -/

/-- DECODE_PICTURE_COMPLETE. -/
def execDecodePictureComplete (dt : Nat) (engine : Nat) (res : DecodeResult) (s : State) : Host.Outcome State Fault Refusal :=
  .next ((s.advance dt).decodeComplete engine res)

/-- DECODE_OVERRUN. -/
def execDecodeOverrun (dt : Nat) (engine : Nat) (res : DecodeResult) (s : State) : Host.Outcome State Fault Refusal :=
  .next ((s.advance dt).decodeOverrun engine res)

/-- POOL_BUFFER_FREED. -/
def execPoolBufferFreed (dt : Nat) (ctx : Nat) (s : State) : Host.Outcome State Fault Refusal := .next ((s.advance dt).poolFreed ctx)

end Sys2Proof.Machine
end

