-- ==== Sys2Proof/Machine/Points.lean ====
section
/-! DEFINITION. Telemetry points (R215 to R221) and the point overlay engine (R222 to R231). -/

namespace Sys2Proof.Machine

open Sys2Proof

/-! ### Records and datagrams as bytes (R218, R221) -/

/-- A record of a datagram or of a slot of ring 18 (R218); `rsvBad` says that a reserved bit of it is set. -/
structure PointRec where
  index : Nat := 0
  value : Nat := 0
  flags : Nat := 0
  seq : Nat := 0
  time : Nat := 0
  rsvBad : Bool := false
  deriving DecidableEq, Repr

/-- The number in `n` bytes at offset `o`. -/
def numAt (bs : List Byte) (o n : Nat) : Nat := leNat ((bs.drop o).take n)

/-- The 24-byte record at offset `o` (R218). -/
def recordAt (bs : List Byte) (o : Nat) : PointRec :=
  { index := numAt bs o 4 % 8388608, value := numAt bs (o + 4) 4, flags := numAt bs (o + 8) 2, seq := numAt bs (o + 10) 2, time := numAt bs (o + 16) 8,
    rsvBad := decide (8388608 ≤ numAt bs o 4) || decide (numAt bs (o + 12) 4 ≠ 0) }

/-- A point datagram as the point ingest unit reads it (R218). `crcOk` says that DG_CRC is the folded CRC-32C of R28. -/
structure Datagram where
  version : Nat := 1
  count : Nat := 1
  seq : Nat := 0
  crcOk : Bool := true
  udpLen : Nat := 48
  rsvBad : Bool := false
  recs : List PointRec := []
  deriving DecidableEq, Repr

/-- The check of a datagram of flow `f`: from its first header byte to the end of its last record, with the check field read as zero
(R28). Of a pair, each flow's datagrams fold its own ID (log entry 123). -/
def datagramCrc (f : Nat) (bs : List Byte) : Word :=
  foldCrc 0 (numAt bs 4 4) f ((bs.take 8 ++ List.replicate 4 0#8 ++ bs.drop 12).take (24 + 24 * numAt bs 2 2))

/-- A datagram of flow `f` from its bytes (R218). -/
def readDatagram (f : Nat) (bs : List Byte) : Datagram :=
  { version := numAt bs 0 2, count := numAt bs 2 2, seq := numAt bs 4 4, crcOk := decide (datagramCrc f bs = BitVec.ofNat 32 (numAt bs 8 4)),
    udpLen := bs.length, rsvBad := decide (numAt bs 12 12 ≠ 0), recs := (List.range (numAt bs 2 2)).map (fun k => recordAt bs (24 + 24 * k)) }

/-! ### The point table (R215, R220) -/

/-- A point record. -/
def State.point (s : State) (i : Nat) : PointEntry := s.pts.table.get {} i

/-- Whether an update of time `t` and sequence `q` replaces the stored record (R220). -/
def replacesPoint (old : PointEntry) (t : Int) (q : Nat) : Bool :=
  decide ((old.time : Int) < t) || (decide ((old.time : Int) = t) && inRange 1 32767 ((q + 65536 - old.seq % 65536) % 65536))

/-- Where a record's counters stand: a point flow's block, or that of ring 18 with other indices (R230, R375). -/
structure PointCounters where
  block : Nat
  inst : Nat
  range : Nat
  old : Nat
  clamped : Nat

/-- The counters of a point flow. -/
def flowCounters (k : Nat) : PointCounters := ⟨0x08, k, 6, 7, 8⟩


/-- One record is applied (R220): `time` is the time taken for it and whether it was clamped. -/
def State.applyRecord (k : PointCounters) (inRange_ : Bool) (time : Int × Bool) (r : PointRec) (s : State) : State :=
  if !inRange_ then s.count k.block k.inst k.range 1
  else
    let s := if time.2 then s.count k.block k.inst k.clamped 1 else s
    if replacesPoint (s.point r.index) time.1 r.seq then
      let e : PointEntry := { value := r.value, flags := r.flags, seq := r.seq, time := time.1.toNat }
      { s with pts := { s.pts with table := s.pts.table.set {} r.index e } }
    else s.count k.block k.inst k.old 1

/-- The time of a flow's record, and whether it is clamped (R220). -/
def State.recordTime (s : State) (c : FlowCfg) (r : PointRec) : Int × Bool :=
  let arrival : Int := s.wallNs
  let d := s.time.domain c.tsMode
  if c.pfTimeMode = 1 || c.tsMode = 2 || d.state = .absent then (arrival, false)
  else
    let t : Int := (r.time : Int) - ((d.ns : Int) - arrival)
    (min t arrival, decide (arrival < t))

/-! ### Datagrams (R218, R219) -/

/-- DG_SEQ extended to 64 bits next to the highest accepted (R93, R219). -/
def extendSeq (highest seq : Nat) : Int := (highest : Int) + tsDiff seq (highest % 4294967296)

/-- Whether a datagram is malformed (R219). -/
def malformed (d : Datagram) : Bool :=
  decide (d.version ≠ 1) || !inRange 1 360 d.count || decide (d.udpLen ≠ 24 + 24 * d.count) || d.rsvBad || d.recs.any (fun r => r.rsvBad)

/-- The sequence state after a datagram is accepted, with the gap and whether it is a jump (R219). -/
def PointFlowRt.accept (p : PointFlowRt) (seq : Nat) : PointFlowRt × Nat × Bool :=
  if !p.started then ({ started := true, highest := firstSeq seq, accepted := [seq] }, 0, false)
  else
    let x := extendSeq p.highest seq
    let d : Int := x - p.highest
    let jump := decide (1024 < d.natAbs)
    ({ p with highest := if jump then firstSeq seq else max p.highest x.toNat, accepted := (seq :: p.accepted).take 1024 },
      if jump then 0 else (d - 1).toNat, jump)

/-- A datagram of the point flow with settings `c`, whose state stands under flow ID `k`, is discarded or applied (R218 to R220). -/
def State.takeDatagram (k : Nat) (c : FlowCfg) (d : Datagram) (s : State) : State :=
  let p := s.pts.flows.get {} k
  if !d.crcOk then s.count 0x08 k 1 1
  else if malformed d then s.count 0x08 k 2 1
  else if hasNat d.seq p.accepted then s.count 0x08 k 3 1
  else
    let a := p.accept d.seq
    let s := ({ s with pts := { s.pts with flows := s.pts.flows.set {} k a.1 } }).count 0x08 k 0 1
    let s := s.count 0x08 k 4 a.2.1
    let s := if a.2.2 then s.count 0x08 k 5 1 else s
    d.recs.foldl (fun s (r : PointRec) => s.applyRecord (flowCounters k)
      (decide (c.pfIndexBase ≤ r.index) && decide (r.index < c.pfIndexBase + c.pfIndexCount)) (s.recordTime c r) r) s

/-- POINT_DATAGRAM_RX (R91, R96, R218 to R220): the packet matches an entry of type 4, and its datagram is read from its bytes. -/
def State.pointDatagram (d : PointDatagram) (s : State) : State :=
  if !s.macLive d.mac || !s.writersRun then s
  else match matchFlow s.lay d.mac d.vlan d.dst d.dstPort d.src 0 with
    | none => s
    | some e => if e.2.type ≠ 4 then s else (s.count 0x01 e.1 0 1).takeDatagram (flowKey e.2 e.1) e.2 (readDatagram e.1 d.payload)

/-! ### Ring 18 (R221) -/

/-- The device fetches the next slot of ring 18: its place is free for host software again (R43, R44). -/
def State.fetchSlot (s : State) : State :=
  let r := s.ring 18
  s.setRing 18 { r with wbConsumer := (r.wbConsumer + 1) % 4294967296, wbGeneration := s.snap.generation }

/-- The records of a slot of ring 18 that HP_COUNT names (R221). -/
def slotRecords (slot : List Byte) : List PointRec := (List.range (min 2 (numAt slot 0 2))).map (fun k => recordAt slot (16 + 24 * k))

/-- HOST_POINT_SLOT (R221): a slot that ring 18 has announced is fetched and applied. -/
def State.hostSlot (slot : List Byte) (s : State) : State :=
  let q := s.ring 18
  let recs := slotRecords slot
  if !q.runs || decide (idxDiff q.producer q.wbConsumer = 0) || !s.writersRun || s.pins.fetchStopped then s
  else
    let s := s.fetchSlot
    if !inRange 1 2 (numAt slot 0 2) || decide (numAt slot 2 14 ≠ 0) || recs.any (fun r => r.rsvBad) then s.count 0x09 0 3 1
    else recs.foldl (fun s (r : PointRec) =>
      s.applyRecord ⟨0x09, 0, 0, 1, 2⟩ true (min (r.time : Int) s.wallNs, decide (s.wallNs < r.time)) r) s

/-! ### Glyphs (R222 to R225) -/

/-- A 32-bit value as the instance's kind compares it (R222). -/
def glyphValue (kind v : Nat) : Int := if kind = 2 || v < 2147483648 then (v : Int) else (v : Int) - 4294967296

/-- The band of a value: how many of the first GI_NTH thresholds it reaches (R224). -/
def glyphBand (g : GlyphCfg) (v : Nat) : Nat :=
  ((g.thresh.take g.nth).filter (fun t => decide (glyphValue g.kind t ≤ glyphValue g.kind v))).length

/-- The decimal digits of a number as numbers. The fuel bounds how many. -/
def digitsOf : Nat → Nat → List Nat
  | 0, _ => []
  | n + 1, v => if v < 10 then [v] else digitsOf n (v / 10) ++ [v % 10]

/-- The `n` lowest decimal digits, leading zeros kept. -/
def fixedDigits : Nat → Nat → List Nat
  | 0, _ => []
  | n + 1, v => fixedDigits n (v / 10) ++ [v % 10]

/-- A value's text as offsets from SET_DIGIT_BASE: digits 0 to 9, minus 10, point 11, space 12, dash 13, overflow 14
(R223, R224). -/
def glyphText (g : GlyphCfg) (v : Nat) : List Nat :=
  let x := glyphValue g.kind v
  let a := x.natAbs
  let body := if g.kind = 3 then digitsOf 11 (a / 10 ^ g.decimals) ++ [11] ++ fixedDigits g.decimals a else digitsOf 11 a
  let t := (if x < 0 then [10] else []) ++ body
  if g.digits < t.length then List.replicate g.digits 14 else List.replicate (g.digits - t.length) 12 ++ t

/-- The three variants of R225. -/
inductive GlyphVariant where
  | normal | stale | void
  deriving DecidableEq, Repr

/-- The variant of an instance at T_DRAW, from the record it reads; a record that reads back wrong is void (R225, R302). -/
def glyphVariant (g : GlyphCfg) (e : PointEntry) (tDraw : Nat) (readBad : Bool) : GlyphVariant :=
  if readBad || decide (e.time = 0) || e.flags.testBit 0 then .void
  else if decide (g.staleMs * 1000000 < tDraw - e.time) || e.flags.testBit 1 || e.flags.testBit 2 then .stale
  else .normal

/-- Whether pixel (x, y) of an atlas mask is set (R223, R362). -/
def maskBit (l : Layout) (glyph x y : Nat) : Bool :=
  decide (x < 64) && decide (y < 64) && (((l.atlas.get [] glyph).getD (8 * y + x / 8) 0#8).toNat).testBit (x % 8)

/-- The glyph drawn in cell `i` of an instance (R223 to R225). -/
def cellGlyph (l : Layout) (g : GlyphCfg) (e : PointEntry) (v : GlyphVariant) (i : Nat) : Option Nat :=
  let set := l.glyphSets.get {} g.set
  if g.kind = 0 then (if v = .void then none else some (set.bandGlyph.getD (glyphBand g e.value) 0))
  else some (set.digitBase + (if v = .void then 13 else (glyphText g e.value).getD i 12))

/-- The palette entry STALE (R182). -/
def staleColour (pal : List Nat) : Rgb := rgbOfWord (pal.getD 0 0)

/-- What an instance draws at head pixel (x, y), or none where it is transparent (R223 to R226). -/
def glyphPixel (l : Layout) (pal : List Nat) (g : GlyphCfg) (e : PointEntry) (v : GlyphVariant) (x y : Nat) : Option Rgb :=
  let set := l.glyphSets.get {} g.set
  let b := glyphBox l g
  if x < g.x || g.x + b.1 ≤ x || y < g.y || g.y + b.2 ≤ y then none
  else
    let u := x - g.x
    let w := y - g.y
    let border := decide (u = 0) || decide (w = 0) || decide (u + 1 = b.1) || decide (w + 1 = b.2)
    let hatch := decide ((x + y) % 4 < 2)
    let mask := match cellGlyph l g e v (u / set.cellW) with | none => false | some k => maskBit l k (u % set.cellW) w
    let colour := rgbOfWord (l.colours.getD (set.bandColour.getD (glyphBand g e.value) 0) 0)
    match v with
    | .normal => if mask then some colour else none
    | .stale => if border then some (staleColour pal) else if mask then some (if hatch then staleColour pal else colour) else none
    | .void => if border || hatch || mask then some (staleColour pal) else none

/-- A drawn pixel; a colour equal to the key is written as (0, 0, 1) (R226). -/
def surfaceColour (c : Option Rgb) : Rgb :=
  match c with
  | none => overlayKey
  | some c => if c = overlayKey then (0, 0, 1) else c

/-- An enabled instance of a head with the record it reads and its variant. -/
structure Drawn where
  cfg : GlyphCfg
  entry : PointEntry
  variant : GlyphVariant
  deriving DecidableEq, Repr

/-- The instances of a surface, lower indices first. -/
def State.drawnGlyphs (s : State) (l : Layout) (h tDraw : Nat) (errs : List Nat) : List Drawn :=
  (l.glyphs.filter (fun g => g.2.enable && decide (g.2.head = h))).map (fun g =>
    let e := s.point g.2.point
    { cfg := g.2, entry := e, variant := glyphVariant g.2 e tDraw (hasNat g.1 errs) })

/-- A surface's line: the higher index is drawn on top (R225). -/
def surfaceLine (l : Layout) (pal : List Nat) (gs : List Drawn) (w y : Nat) : List Byte :=
  ((List.range w).map (fun x =>
    leBytes 4 (pixelWord 0 (surfaceColour (gs.foldl (fun a d => match glyphPixel l pal d.cfg d.entry d.variant x y with | none => a | some c => some c) none))).toNat)).flatten

/-! ### Drawing windows (R226, R227) -/

/-- An overlay's surfaces and seals. -/
def State.overlay (s : State) (h : Nat) : OverlayRt := s.pts.overlays.get {} h

/-- Apply `f` to a head's overlay. -/
def State.modOverlay (h : Nat) (f : OverlayRt → OverlayRt) (s : State) : State :=
  { s with pts := { s.pts with overlays := s.pts.overlays.modify {} h f } }

/-- The drawing window of head frame (f, half) begins: the engine takes a free surface buffer (R226, R227). -/
def State.overlayBegin (h f half : Nat) (s : State) : State :=
  let i := overlaySource h
  let c := (s.layoutFor f).head h
  if !s.writersRun then s
  else match s.freeOf i 3 with
    | none => s.count 0x0A h 2 1
    | some b =>
      let fb : FrameBuf := { addr := s.bufAddr i b, pitchUp := (s.srcRt i).pitchUp, width := c.hActive, height := c.vActive, format := 7, writing := true }
      let d : OvlDraw := { frame := f, half := half, tag := s.tagFor f, at_ := s.wallNs, buf := b }
      (s.modBuf i b (fun _ => fb)).modOverlay h (fun o => { o with drawing := o.drawing ++ [d] })

/-- The wall line in which the drawing window of a surface of head `h` ends (R227). -/
def State.drawEnd (s : State) (h : Nat) (d : OvlDraw) : Int := rowBeginPos ((s.layoutFor d.frame).head h) d.frame d.half 0

/-- Whether no surface of another head has an earlier window's end than `d` (R227). -/
def State.drawsNext (s : State) (h : Nat) (d : OvlDraw) : Bool :=
  s.pts.overlays.all (fun e => match e.2.drawing with
    | [] => true
    | x :: _ => decide (s.drawEnd h d ≤ s.drawEnd e.1 x))

/-- OVERLAY_SURFACE_DONE (R225 to R227): the oldest surface under way is drawn and sealed, in the order of the window ends. `errs`
lists the instances whose point record reads back as an error. -/
def State.overlayDone (h : Nat) (errs : List Nat) (s : State) : State :=
  match (s.overlay h).drawing with
  | [] => s
  | d :: rest =>
    if !s.writersRun || !s.drawsNext h d then s
    else
      let i := overlaySource h
      let l := s.layoutFor d.frame
      let gs := s.drawnGlyphs l h d.at_ errs
      let s := s.modBuf i d.buf (fun fb => { fb with lines := (List.range fb.height).map (surfaceLine l s.boot.palette gs fb.width) })
      let s := s.modOverlay h (fun o => { o with drawing := rest })
      let f : ReadyFrame := { buf := d.buf, capture := d.at_, captSrc := 4, arrival := d.at_, origin := h, cls := (s.lay.source i).cls,
                              drawn := some (d.frame, d.half, d.tag) }
      let s := if s.stepsBack i f then s else s.count 0x0A h 0 1
      let s := s.setCounter 0x0A h 3 (gs.filter (fun x => decide (x.variant = .stale))).length
      let s := s.setCounter 0x0A h 4 (gs.filter (fun x => decide (x.variant = .void))).length
      s.sealFrame i f

/-- Mark the first surface that is not late yet. -/
def markLate : List OvlDraw → List OvlDraw
  | [] => []
  | d :: t => if d.late then d :: markLate t else { d with late := true } :: t

/-- The first surface that is not late yet. -/
def firstOnTime (l : List OvlDraw) : Option OvlDraw := List.find? (fun (d : OvlDraw) => !d.late) l

/-- OVERLAY_WINDOW_END (R227): a surface not sealed by its window's end is late, and is still drawn. -/
def State.overlayWindowEnd (h : Nat) (s : State) : State :=
  match firstOnTime (s.overlay h).drawing with
  | none => s
  | some d =>
    if (s.raster.pos : Int) < s.drawEnd h d then s
    else (s.modOverlay h (fun o => { o with drawing := markLate o.drawing })).count 0x0A h 1 1

/-! ### The rows -/

/-- POINT_DATAGRAM_RX. -/
def execPointDatagramRx (dt : Nat) (d : PointDatagram) (s : State) : Host.Outcome State Fault Refusal := .next ((s.advance dt).pointDatagram d)

/-- HOST_POINT_SLOT: the slot's HP_COUNT, its reserved bytes and the bytes of its two records. -/
def execHostPointSlot (dt : Nat) (count : Nat) (rsv recs : List Byte) (s : State) : Host.Outcome State Fault Refusal :=
  .next ((s.advance dt).hostSlot (leBytes 2 count ++ rsv ++ recs))

/-- OVERLAY_SURFACE_DONE. -/
def execOverlaySurfaceDone (dt : Nat) (head : Nat) (readErrors : List Nat) (s : State) : Host.Outcome State Fault Refusal :=
  .next ((s.advance dt).overlayDone head readErrors)

/-- OVERLAY_WINDOW_END. -/
def execOverlayWindowEnd (dt : Nat) (head : Nat) (s : State) : Host.Outcome State Fault Refusal := .next ((s.advance dt).overlayWindowEnd head)

end Sys2Proof.Machine
end

