-- ==== Sys2Proof/Machine/Ports.lean ====
section
/-! DEFINITION. The links of MACs and DPRX ports come up, and a MAC's goes down (R323, R325). -/

namespace Sys2Proof.Machine

open Sys2Proof

/-- Set the clock recovery of lanes. -/
def State.setCdr (lns : List Nat) (b : Bool) (s : State) : State := lns.foldl (fun s ln => s.modLane ln (fun x => { x with cdrLocked := b })) s

/-- A MAC's lanes (R320). -/
def macLanes (l : Layout) (c : MacCfg) : List Nat := (List.range 4).map (fun i => 4 * quadOf c.lane + i) |>.filter (macHasLane l c)

/-- ETH_LINK_DOWN: an enabled MAC loses block lock. -/
def State.ethDown (m : Nat) (s : State) : State :=
  let c := s.lay.macs.get {} m
  if c.enable && hasNat m s.ing.macUp then (s.macDown m).setCdr (macLanes s.lay c) false else s

/-- ETH_BLOCK_LOCK (R325): an enabled MAC that is not fenced gains block lock on lanes of a locked quad. -/
def State.ethUp (m : Nat) (s : State) : State :=
  let c := s.lay.macs.get {} m
  if c.enable && !s.isFenced (120 + m) && decide (s.pll (quadOf c.lane) = .locked) then
    ({ s with ing := { s.ing with macUp := insertSorted m s.ing.macUp } }).setCdr (macLanes s.lay c) true
  else s

/-- DPRX_SYMBOL_LOCK (R325): an enabled port that is not fenced gains symbol lock on lanes that have left Rest. -/
def State.dprxUp (p : Nat) (s : State) : State :=
  let c := s.lay.dprxs.get {} p
  let lns := (List.range c.lanes).map (fun i => c.lane0 + i)
  if c.enable && !s.isFenced (104 + p) && decide (s.pll (quadOf c.lane0) = .locked) && lns.all (fun ln => !(s.lane ln).rest) then
    ({ s with ing := { s.ing with dprx := s.ing.dprx.modify {} p (fun r => { r with up := true }) } }).setCdr lns true
  else s

/-- ETH_LINK_DOWN. -/
def execEthLinkDown (dt : Nat) (mac : Nat) (s : State) : Host.Outcome State Fault Refusal := .next ((s.advance dt).ethDown mac)

/-- ETH_BLOCK_LOCK. -/
def execEthBlockLock (dt : Nat) (mac : Nat) (s : State) : Host.Outcome State Fault Refusal := .next ((s.advance dt).ethUp mac)

/-- DPRX_SYMBOL_LOCK. -/
def execDprxSymbolLock (dt : Nat) (port : Nat) (s : State) : Host.Outcome State Fault Refusal := .next ((s.advance dt).dprxUp port)

end Sys2Proof.Machine
end

