-- ==== Sys2Proof/Machine/Tap.lean ====
section
/-! DEFINITION. The debug port: a test access port with an access port, a trace writer and halt requests (R396 to R398). -/

namespace Sys2Proof.Machine

open Sys2Proof

/-- The device identification register (R396). -/
def idcodeValue : Nat := 0x157965AB

/-- An instruction is loaded that takes no pin. -/
def Debug.load (d : Debug) (i : TapInstr) : Debug := { d with ir := i, pinDrive := none }

/-- Apply `f` to the debug port, which stands still while the device has no power. -/
def State.tap (f : Debug → Debug) (s : State) : State := if s.dev = .off then s else { s with dbg := f s.dbg }

/-- BYPASS selects a register of one bit (R396). -/
def Debug.bypassed (d : Debug) : Debug := { d.load .bypass with data := [0#8] }

/-- EXTEST, CLAMP and HIGHZ (R396): they take the pins only while RESET_N is held low, and act as BYPASS otherwise. -/
def State.takePins (i : TapInstr) (s : State) : State :=
  s.tap (fun d => if s.pins.resetLow then { d with ir := i, pinDrive := some i } else d.bypassed)

/-- IDCODE (R396). -/
def Debug.identify (d : Debug) : Debug := { d.load .idcode with data := leBytes 4 idcodeValue }

/-! ### DBG_ACCESS (R391 to R394, R397) -/

/-- Whether the CORE domain, and with it the interconnect, runs (R426, R428). -/
def State.coreRuns (s : State) : Bool := decide (8 ≤ s.boot.step) || decide (s.boot.recovery = .full)

/-- The number in a register of `size` bytes at `base` after a write of `data` from `addr` on; bytes not written keep those of
`old`. -/
def mergeBytes (base size addr old : Nat) (data : List Byte) : Nat :=
  leNat ((List.range size).map (fun i => if addr ≤ base + i ∧ base + i < addr + data.length then data.getD (base + i - addr) 0#8
    else (leBytes size old).getD i 0#8))

/-- Whether a write of `n` bytes from `addr` on touches a register. -/
def overlaps (base size addr n : Nat) : Bool := decide (addr < base + size) && decide (base < addr + n)

/-- The registers of a ring block: offset, size and what a partial write keeps; RING_STATUS keeps nothing, since it clears on 1. -/
def ringRegs (r : Ring) : List (Nat × Nat × Nat) := [(0x00, 8, r.base), (0x10, 8, r.cplBase), (0x18, 8, r.wbAddr), (0x0C, 4, 0), (0x08, 4, r.ctrl)]

/-- A write to BAR0's registers through the control space (R41, R43, R386). The packets that such a doorbell announces are not
in the row (log entry 7). -/
def State.barWrite (o : Nat) (data : List Byte) (s : State) : State :=
  (List.range 19).foldl (fun s n =>
    let block := 0x10000 + 256 * n
    let page := 0x100000 + 4096 * n
    let s := (ringRegs (s.ring n)).foldl (fun s r =>
      if overlaps (block + r.1) r.2.1 o data.length then s.writeReg n r.1 (mergeBytes (block + r.1) r.2.1 o r.2.2 data) else s) s
    let s := if overlaps page 4 o data.length then s.doorProducer n (mergeBytes page 4 o 0 data) [] else s
    if overlaps (page + 8) 4 o data.length then s.doorConsumer n (mergeBytes (page + 8) 4 o 0 data) else s) s

/-- A write that completes: to BAR0's registers, or to memory. -/
def State.busWrite (a : Nat) (data : List Byte) (s : State) : State :=
  if inControl a then (if a < 0x1101000000 then s.barWrite (a - 0x1100000000) data else s) else s.pokeBytes a data

/-- `n` bytes as a read without error returns them. -/
def State.busRead (s : State) (a n : Nat) : List Byte := (List.range n).map (fun i => s.byteAt (a + i))

/-- DBG_ACCESS (R391 to R394, R397): an access by master 41. A denial sets the sticky error bit, and a denied read returns zeros. -/
def State.debugAccess (a : Access) (s : State) : State :=
  if s.dev = .off || !s.coreRuns || !inRange 1 4096 a.len then s
  else
    let s := s.tap (fun d => d.load .dbgAccess)
    let r := s.access 41 a.write a.addr a.len
    let s := r.2
    if !r.1 then s.tap (fun d => { d with sticky := true, data := List.replicate a.len 0#8 })
    else if a.write then s.busWrite a.addr (a.data.take a.len ++ List.replicate (a.len - a.data.length) 0#8)
    else s.tap (fun d => { d with data := s.busRead a.addr a.len })

/-! ### DBG_HALT (R397, R398) -/

/-- The processor of a master ID, numbered as its watchdog is; none for Bowline and for what is no processor (R387, R398). -/
def procOf (id : Nat) : Option Nat := if id < 2 then some id else if inRange 3 10 id then some (id - 1) else none

/-- A request that the port refuses: the sticky bit and LASH_DEBUG (R398). -/
def State.haltRefused (s : State) : State := (s.tap (fun d => { d with sticky := true })).fireAccess 65 41 0 0 0

/-- DBG_HALT (R397, R398). A step leaves the processor halted; what its one instruction does is firmware's. -/
def State.debugHalt (op : HaltOp) (id : Nat) (s : State) : State :=
  if s.dev = .off || !s.coreRuns || 10 < id then s
  else
    let s := s.tap (fun d => d.load .dbgHalt)
    if !s.privileged 41 then s.haltRefused
    else match op, procOf id with
      | .halt, none => s.haltRefused
      | .halt, some p => s.tap (fun d => { d with halted := insertSorted p d.halted })
      | .step, _ => s
      | .resume, none => s
      | .resume, some p =>
        let s := s.tap (fun d => { d with halted := removeNat p d.halted })
        if p < 2 then s.drain else s.dispatch

/-! ### The rows -/

/-- EXTEST. -/
def execExtest (dt : Nat) (s : State) : Host.Outcome State Fault Refusal := .next ((s.advance dt).takePins .extest)

/-- SAMPLE_PRELOAD. -/
def execSamplePreload (dt : Nat) (scan : List Bool) (s : State) : Host.Outcome State Fault Refusal :=
  .next ((s.advance dt).tap (fun d => { d.load .samplePreload with scan := scan }))

/-- IDCODE. -/
def execIdcode (dt : Nat) (s : State) : Host.Outcome State Fault Refusal := .next ((s.advance dt).tap Debug.identify)

/-- CLAMP. -/
def execClamp (dt : Nat) (s : State) : Host.Outcome State Fault Refusal := .next ((s.advance dt).takePins .clamp)

/-- HIGHZ. -/
def execHighz (dt : Nat) (s : State) : Host.Outcome State Fault Refusal := .next ((s.advance dt).takePins .highz)

/-- DBG_ACCESS. -/
def execDbgAccess (dt : Nat) (a : Access) (s : State) : Host.Outcome State Fault Refusal := .next ((s.advance dt).debugAccess a)

/-- DBG_TRACE: the trace writer takes its buffer. -/
def execDbgTrace (dt : Nat) (base size : Nat) (s : State) : Host.Outcome State Fault Refusal :=
  .next ((s.advance dt).tap (fun d => { d.load .dbgTrace with trace := some (base, size) }))

/-- DBG_HALT. -/
def execDbgHalt (dt : Nat) (op : HaltOp) (proc : Nat) (s : State) : Host.Outcome State Fault Refusal := .next ((s.advance dt).debugHalt op proc)

/-- BYPASS. -/
def execBypass (dt : Nat) (s : State) : Host.Outcome State Fault Refusal := .next ((s.advance dt).tap Debug.bypassed)

/-- TRST_N: test-logic reset selects IDCODE (R396). -/
def execTrstN (dt : Nat) (s : State) : Host.Outcome State Fault Refusal := .next ((s.advance dt).tap Debug.identify)

end Sys2Proof.Machine
end

