-- ==== Sys2Proof/Machine/Apply.lean ====
section
/-! DEFINITION. A set applies at wall line 0 of its wall frame (R50, R58, R82, R83, R85): the Splice store, the device state,
and each unit that takes its settings at that line. Heads, the Braid, desks and pictures take theirs at boundaries of their own. -/

namespace Sys2Proof.Machine

open Sys2Proof

/-- The keys that two tables list. -/
def bothKeys {α : Type} (a b : Tab α) : List Nat := (a.map (fun e => e.1) ++ b.map (fun e => e.1)).foldl (fun l k => insertSorted k l) []

/-! ### The Splice store and the device state (R50, R58, R81, R82) -/

/-- The single objects that versions change for a later commit to conflict with (R57). The second set of R75 changes none. -/
def changedKeys (objs : List StagedObj) (commit : Bool) : List Nat :=
  objs.foldl (fun a o => if !commit && isHeadObj o then a else a ++ stagedKeys o) []

/-- The set with the versions' objects comes into force for wall frame `f` (R58, R63, R81, R82). An object's generation is that
of the snapshot which shows the change. WALL_RATE changes only in CONFIGURING (R70). -/
def State.takeSet (f : Nat) (vs : List Version) (s : State) : State :=
  let objs := vs.foldl (fun a v => a ++ v.objs) []
  let txns := vs.foldl (fun a v => a ++ v.txns) []
  let set := s.lay.applyAll objs
  let new := if s.dev = .configuring then set else { set with dev := { set.dev with wallRate := s.lay.dev.wallRate } }
  let past := if s.splice.history.isEmpty then [(s.splice.tag, s.lay)] else s.splice.history
  { s with
    lay := new
    splice := { s.splice with
      versions := s.splice.versions.filter (fun v => !vs.any (fun w => decide (w.frame = v.frame)))
      history := ((f, new) :: past).take 6
      changed := (changedKeys objs (!txns.isEmpty)).foldl (fun t k => t.set 0 k (s.generation + 1)) s.splice.changed
      awaiting := s.splice.awaiting ++ txns.map (fun t => { txn := t, frame := f, heads := new.enabledHeads })
      committedTxn := txns.getLast?.getD s.splice.committedTxn
      committedFrame := if txns.isEmpty then s.splice.committedFrame else f
      tag := f } }

/-- The device state follows whether the set enables a head (R50). -/
def State.setDevice (s : State) : State :=
  if s.dev = .configuring && s.headsEnabled then s.setDev (if s.flt.fenced.isEmpty then .running else .degraded) 0xFFFF
  else if (s.dev = .running || s.dev = .degraded) && !s.headsEnabled then s.setDev .configuring 0xFFFF
  else s

/-- Commits whose set enables no head have applied (R58). -/
def State.appliedNow (s : State) : State :=
  let done := s.splice.awaiting.filter (fun a => a.heads.isEmpty)
  let s := { s with splice := { s.splice with awaiting := s.splice.awaiting.filter (fun a => !a.heads.isEmpty) } }
  done.foldl (fun s a => s.event 0x0002 a.txn a.frame) s

/-! ### Flows, sources and ports (R86, R92, R100, R107, R112) -/

/-- Whether a set defines a source anew (R86). -/
def newlyDefined (a b : SourceCfg) : Bool := decide (b.kind ≠ 0) && decide (a.kind ≠ b.kind)

/-- Whether a set takes a source from the unit that fed it. -/
def leavesOrigin (a b : SourceCfg) : Bool := decide (a.kind ≠ b.kind) || decide (a.origin ≠ b.origin)

/-- The frames that a flow is receiving are discarded, with their buffers (R112). -/
def State.dropFrames (k : Nat) (c : FlowCfg) (s : State) : State :=
  let s := if c.type = 3 then (s.flowRt k).frames.foldl (fun s f => match f.buf with
      | none => s
      | some b => (s.dropBuf c.target b).countDrop c.target none) s else s
  s.modFlow k (fun fl => { fl with frames := [] })

/-- A flow at its boundary: disabled, or cut off from its source (R112). -/
def State.applyFlow (old : Layout) (k : Nat) (s : State) : State :=
  let a := old.flows.get {} k
  let b := s.lay.flows.get {} k
  let cut := !b.enable || decide (a.type ≠ b.type) || decide (a.target ≠ b.target) ||
    (decide (a.type = 3) && leavesOrigin (old.source a.target) (s.lay.source a.target))
  let s := if cut then s.dropFrames k a else s
  if b.enable then s else s.modFlow k (fun _ => {})

/-- Whether a MAC has an enabled entry for a multicast group. -/
def needsGroup (l : Layout) (mac dst : Nat) : Bool := l.flows.any (fun e => e.2.enable && decide (e.2.mac = mac) && decide (e.2.dstAddr = dst))

/-- Multicast groups are joined and left: a report for each entry that is newly enabled, or that now names another group (R92). -/
def State.applyGroups (old : Layout) (s : State) : State :=
  let multi := fun (c : FlowCfg) => c.enable && isMulticast c.dstAddr
  let same := fun (c d : FlowCfg) => decide (d.mac = c.mac) && decide (d.dstAddr = c.dstAddr) && decide (reportSource d = reportSource c)
  let fresh := s.lay.flows.filter (fun e => multi e.2 && !(multi (old.flows.get {} e.1) && same e.2 (old.flows.get {} e.1)))
  let gone := ((old.flows.filter (fun e => multi e.2 && !needsGroup s.lay e.2.mac e.2.dstAddr)).map (fun e => e.2)).foldl
    (fun (a : List (Nat × Nat)) c => if a.any (fun x => decide (x = (c.mac, c.dstAddr))) then a else a ++ [(c.mac, c.dstAddr)]) []
  let s := fresh.foldl (fun s e => if s.macLive e.2.mac then s.send e.2.mac 4 [e.2.dstAddr, reportSource e.2] else s) s
  gone.foldl (fun s g => if s.macLive g.1 then s.send g.1 5 [g.2] else s) s

/-- A port at its boundary (R100): a frame whose source is no longer the port's goes, the link goes with the port or its lanes,
and a new EDID holds HPD low. -/
def State.applyPort (old : Layout) (p : Nat) (s : State) : State :=
  let a := old.dprxs.get {} p
  let b := s.lay.dprxs.get {} p
  let r := s.ing.dprx.get {} p
  let moved := decide (sourceOfPort old p ≠ sourceOfPort s.lay p)
  let s := if r.inFrame && moved then
      (match sourceOfPort old p, r.frameBuf with
        | some i, some x => (s.dropBuf i x).countDrop i none
        | _, _ => s).modDprx p (fun r => { r with inFrame := false, frameBuf := none })
    else s
  let s := if a.enable && (!b.enable || decide (a.lane0 ≠ b.lane0) || decide (a.lanes ≠ b.lanes)) then s.dprxDown p else s
  if decide (a.edidLen ≠ b.edidLen) || decide (a.edid ≠ b.edid) then s.modDprx p (fun r => { r with hpdLow := true }) else s

/-- A MAC that is disabled or moves to another lane goes link-down. -/
def State.applyMac (old : Layout) (m : Nat) (s : State) : State :=
  let a := old.macs.get {} m
  let b := s.lay.macs.get {} m
  if a.enable && (!b.enable || decide (a.lane ≠ b.lane)) then s.macDown m else s

/-- Frames of a source that wait for their seal go, with their buffers. -/
def State.dropWaiting (i : Nat) (s : State) : State :=
  ((s.srcRt i).ready.foldl (fun s f => ((s.dropBuf i f.buf).countDrop i f.flow).sentPic i f) s).modSrc i (fun rt => { rt with ready := [] })

/-- Whether a set gives a source's buffers new places: another class, or a surface of another size (R87, R88, R295). -/
def replaced (a b : SourceCfg) : Bool :=
  decide (a.cls ≠ b.cls) || (decide (b.kind = 4) && (decide (a.surfWidth ≠ b.surfWidth) || decide (a.surfHeight ≠ b.surfHeight) || decide (a.surfFormat ≠ b.surfFormat)))

/-- A source at its boundary (R83, R86, R107, R197): a definition that is new or gone ends its seals, but not its status entry;
another class or size places its buffers afresh (R87, R295). -/
def State.applySource (old : Layout) (f i : Nat) (s : State) : State :=
  let a := old.source i
  let b := s.lay.source i
  if a = b then s
  else if newlyDefined a b && decide (i < 984) then
    ((((s.dropWaiting i).modSrc i (fun rt => { rt with seals := [], nextSeq := some (f % 4294967296), pitchUp := 0, moveDue := false })).allocSource i).releaseBufs i)
  else if b.kind = 0 && decide (i < 984) then ((s.dropWaiting i).modSrc i (fun rt => { rt with seals := [] })).releaseBufs i
  else if replaced a b then s.allocSource i else s

/-! ### Codecs (R83, R120, R141, R233, R234) -/

/-- A decode context at its boundary: enabled, or settled between two pictures. -/
def State.applyContext (c : Nat) (s : State) : State :=
  let new := s.lay.contexts.get {} c
  if (s.ctxRt c).state = .idle then
    (if new.enable then s.modCtx c (fun _ => CtxRt.outOfBand new { state := .waitIrap, cfg := new }) else s)
  else
    let s := if s.ctxBusy c then s else s.ctxSettle c
    if (s.ctxRt c).state = .idle then s else s.modCtx c (CtxRt.outOfBand new)

/-- An encode context at its boundary: enabled, or IDLE between two pictures. -/
def State.applyEncoder (f c : Nat) (s : State) : State :=
  let new := s.lay.encoders.get {} c
  if new.enable && decide ((s.encRt c).state = .idle) then
    s.modEnc c (fun r => { seals := r.seals, rtpSeq := r.rtpSeq, state := .starting, cfg := new, nextSeq := some (f % 4294967296) })
  else s.encSettle c

/-! ### Lanes, domains, pulses (R257, R265, R318, R335) -/

/-- A quad at its boundary: its PLL starts or stops (R318). One that is fenced stays off. -/
def State.applyQuad (old : Layout) (q : Nat) (s : State) : State :=
  let a := old.quads.get {} q
  let b := s.lay.quads.get {} q
  if (a.mode = b.mode && a.ethRate = b.ethRate && a.ethFec = b.ethFec) || s.isFenced (80 + q) then s
  else if b.mode = 0 then (List.range 4).foldl (fun s i => s.modLane (4 * q + i) (fun r => { r with rest := false })) (s.setPll q .off)
  else s.setPll q .locking

/-- Whether a lane test runs: GEN_EN, CHK_EN, LOOPBACK, INJ_RATE or TEST_RATE is not zero (R326, R335). -/
def underTest (r : LaneRt) : Bool := decide (ctrlField r.ctrl.toNat 3 2 + ctrlField r.ctrl.toNat 6 2 + ctrlField r.ctrl.toNat 9 8 ≠ 0)

/-- A set that enables a user on a lane under test ends the tests of the quad; a test's rate gives the PLL back (R335). -/
def State.applyTests (old : Layout) (q : Nat) (s : State) : State :=
  let lanes := (List.range 4).map (fun i => 4 * q + i)
  if lanes.any (fun ln => laneUsed s.lay ln && !laneUsed old ln && underTest (s.lane ln)) then
    let rate := lanes.any (fun ln => decide (ctrlField (s.lane ln).ctrl.toNat 13 4 ≠ 0))
    let s := s.endLaneTests q
    if rate then s.setPll q .locking else s
  else s

/-- A time domain that a set disables is ABSENT (R257, R259). -/
def State.applyDomain (old : Layout) (d : Nat) (s : State) : State :=
  if (old.domains.get {} d).enable && !(s.lay.domains.get {} d).enable then
    s.modDomain d (fun x => { x with state := .absent, gm := 0, good := 0, bad := 0, masters := [], heard := [], pendingSync := none, delayReq := none, exchange := none })
  else s

/-- A pulse output takes new settings (R265). -/
def State.applyPulse (old : Layout) (o : Nat) (s : State) : State :=
  if old.pulses.get {} (2 + o) = s.lay.pulses.get {} (2 + o) then s else s.tpoStart o

/-! ### The reserve and rebases (R297, R298, R313) -/

/-- Whether the buffers of a source lie on the wrong side of an enabled reserve (R297). -/
def State.misplaced (s : State) (i : Nat) (c : SourceCfg) : Bool := (s.srcRt i).inReserve != decide (c.cls = 0)

/-- A change of MEM_RESERVE: enabled, buffers in the wrong place move as R313 moves them; disabled for a fenced channel, class-0
buffers take places in the general region (R297, R298). -/
def State.applyReserve (old : Layout) (s : State) : State :=
  let srcs := s.lay.sources.filter (fun e => decide (e.2.kind ≠ 0) || decide (984 ≤ e.1))
  if old.dev.memReserve = 0 && decide (s.lay.dev.memReserve = 1) then
    srcs.foldl (fun s e => if !s.misplaced e.1 e.2 then s else if e.2.kind = 2 then s.modSrc e.1 (fun rt => { rt with moveDue := true }) else s.moveSource e.1) s
  else if old.dev.memReserve = 1 && decide (s.lay.dev.memReserve = 0) && (s.isFenced 80 || s.isFenced 81) then
    srcs.foldl (fun s e => if e.2.cls = 0 then s.allocSource e.1 else s) s
  else s

/-- One rebase (R313): a source's buffers at once, a decode pool at its next IRAP picture, and with 2,048 + h the tile-row rings
of head h. A source that the set defines anew has new buffers already. -/
def State.applyRebase (old : Layout) (f : Nat) (s : State) (x : Nat) : State :=
  if 2048 ≤ x then { s with splice := { s.splice with ringMoves := s.splice.ringMoves ++ [(x - 2048, f)] } }
  else
    let b := s.lay.source x
    if leavesOrigin (old.source x) b then s
    else if b.kind = 2 then s.modSrc x (fun rt => { rt with moveDue := true }) else s.moveSource x

/-! ### The whole set -/

/-- What ingest takes at wall line 0. -/
def State.applyIngest (old : Layout) (f : Nat) (s : State) : State :=
  let s := (s.ing.flows.map (fun e => e.1)).foldl (fun s k => s.applyFlow old k) s
  let s := (List.range 16).foldl (fun s p => s.applyPort old p) s
  let s := (List.range 8).foldl (fun s m => s.applyMac old m) s
  let s := (bothKeys old.sources s.lay.sources).foldl (fun s i => s.applySource old f i) s
  s.applyGroups old

/-- What the codecs take at wall line 0, or at the boundary that it already is. Only a commit binds encode contexts anew (R233). -/
def State.applyCodecs (old : Layout) (f : Nat) (commit : Bool) (s : State) : State :=
  let s := (bothKeys old.contexts s.lay.contexts).foldl (fun s c => s.applyContext c) s
  let s := (bothKeys old.encoders s.lay.encoders).foldl (fun s c => s.applyEncoder f c) s
  let s := if commit then s.encRebind else s
  (alarmUpdate s.releaseAll).dispatch

/-- What lanes, domains and pulses take at wall line 0. -/
def State.applyLinks (old : Layout) (s : State) : State :=
  let s := (List.range 22).foldl (fun s i => (s.applyQuad old (2 + i)).applyTests old (2 + i)) s
  let s := s.restLanes ((List.range 88).map (fun i => 8 + i))
  let s := (List.range 2).foldl (fun s d => s.applyDomain old d) s
  (List.range 4).foldl (fun s o => s.applyPulse old o) s

/-- The versions `vs`, in commit order, apply as one set at wall line 0 of frame `f` (R83). -/
def State.applySet (f : Nat) (vs : List Version) (s : State) : State :=
  if vs.isEmpty then s
  else
    let old := s.lay
    let s := (s.takeSet f vs).setDevice.appliedNow
    let s := if vs.any (fun v => !v.txns.isEmpty) then s.writeCommitRec else s
    let s := ((s.applyIngest old f).applyLinks old).applyReserve old
    let s := (vs.foldl (fun a v => a ++ v.rebase) []).foldl (fun s x => s.applyRebase old f x) s
    s.applyCodecs old f (vs.any (fun v => !v.txns.isEmpty))

end Sys2Proof.Machine
end

