-- ==== Sys2Proof/Machine/Wall.lean ====
section
/-! DEFINITION. The wall raster (R66 to R85): what a wall line 0 does, in the order of R70, R78, R267 and R390, what every wall line
does, and the start of the raster. -/

namespace Sys2Proof.Machine

open Sys2Proof

/-! ### Units at wall line 0 -/

/-- FAULT_REACT's new masks take effect (R383). -/
def State.takeMasks (s : State) : State :=
  { s with flt := { s.flt with srcs := s.flt.srcs.map (fun e => match e.2.next with
      | none => e
      | some m => (e.1, { e.2 with mask := some m, next := none })) } }

/-- Units whose test has passed leave their fence (R410). An enabled head does so at its frame start. -/
def State.returnUnits (s : State) : State :=
  (s.flt.passedTests.filter (fun u => decide (32 ≤ u) || !(s.lay.head u).enable)).foldl (fun s u => s.unfence u) s

/-- A test pattern generator draws and seals its frame of wall frame `f` (R88, R103). -/
def State.patternSeal (f n : Nat) (s : State) : State :=
  let i := 984 + n
  if !s.writersRun then s
  else match s.freeSrcBuf i with
    | none => s.countDrop i none
    | some b =>
      let p := Config.testPattern n f
      let t := lineStartNs s.lay.dev.wallRate f 0
      let fb : FrameBuf := { addr := s.bufAddr i b, pitchUp := (s.srcRt i).pitchUp, format := p.1, width := p.2.1, height := p.2.2.1, lines := p.2.2.2, writing := true }
      (s.modBuf i b (fun _ => fb)).sealFrame i
        { buf := b, capture := t, captSrc := 4, arrival := t, origin := n, cls := (s.lay.source i).cls }

/-- The die temperature sensors are read (R196, R466). -/
def State.takeTemps (ts : List Int) (s : State) : State :=
  if ts.isEmpty then s
  else
    let bad := ts.any (fun t => !tempOk t)
    let inside := ts.all tempInside
    let s := { s with temp := { readings := ts, insideSinceLine0 := inside,
                                failing := bad || (s.temp.failing && !(inside && s.temp.insideSinceLine0)) } }
    let s := if bad then s.fireSrc 201 0xFFFF 0xFFFF else s
    if ts.any (fun t => decide (115000 < t)) then s.fireSrc 202 0xFFFF 0xFFFF else s

/-- The least number of refreshes in a wall frame: ⌊D ÷ 3.904 µs⌋ − 1 (R307). -/
def refreshMin (rate : Nat) : Nat := 1000000000 * (wallRateHz rate).2 / (3904 * (wallRateHz rate).1) - 1

/-- The fault source of a channel (R402). -/
def chanSource (c : Nat) : Nat := if c < 30 then 70 else 71

/-- Refresh accounting over the previous wall frame, if there was one (R307, R314). -/
def State.refreshCheck (first : Bool) (s : State) : State :=
  if !s.mem.trained then s
  else (List.range 32).foldl (fun s c =>
    let n := (s.mem.chans.get {} c).refreshes
    let s := s.modChan c (fun x => { x with refreshes := 0 })
    if first then s
    else
      let s := s.setCounter 0x11 c 3 n
      if n < refreshMin s.lay.dev.wallRate then s.fireSrc (chanSource c) (50 + c) 0xFFFF else s) s

/-- Channels that drifted are retrained in a stall, which voids condition 1 for the wall frame (R311). -/
def State.retrainStall (s : State) : State :=
  if s.mem.retrain.isEmpty then s
  else
    let t := s.mem.retrain.foldl (fun s c => s.count 0x11 c 4 1) s
    { t with mem := { t.mem with retrain := [], retrainFrame := some t.raster.frame } }

/-- Traffic of Sheave's ports (R314). -/
def State.portNote (o : PortObs) (s : State) : State :=
  ((s.count 0x12 o.port 3 o.reads).count 0x12 o.port 4 o.writes).count 0x12 o.port 0 o.partials

/-! ### Hotspots and rebases (R312, R313) -/

/-- What a sampled address is charged to: a source, or with 2,048 + h the tile-row rings of head h. Items in an enabled reserve
never move. -/
def State.chargeOf (s : State) (a : Nat) : Option Nat :=
  if inWindow a && decide (s.lay.dev.memReserve = 1) then none
  else match s.bufferAt a with
    | some x => some x.1
    | none => (s.slotAt a).map (fun x => 2048 + x.1 / 128)

/-- The item with the most samples, ties to the lower. -/
def mostSampled (t : Tab Nat) : Option (Nat × Nat) :=
  t.foldl (fun b e => match b with
    | none => some e
    | some x => if x.2 < e.2 then some e else some x) none

/-- The items to rebase, most samples first, until what is left accounts for less than half (R313). The fuel is their limit. -/
def hotItems (total : Nat) : Nat → Tab Nat → List Nat
  | 0, _ => []
  | n + 1, t =>
    if 2 * t.foldl (fun a e => a + e.2) 0 < total then []
    else match mostSampled t with
      | none => []
      | some x => x.1 :: hotItems total n (t.erase x.1)

/-- Bytes that an item's new places take. -/
def State.itemBytes (s : State) (x : Nat) : Nat :=
  if 2048 ≤ x then tileRows (s.lay.head (x - 2048)) * 2 * 16384 * tileCols (s.lay.head (x - 2048)) else sourceBytes s.lay (s.lay.source x)

/-- Cleat rebases what loads a hot channel, as far as there is room (R313). -/
def State.rebase (c : Nat) (addrs : List Nat) (s : State) : State :=
  if decide (s.lay.dev.memRebase = 0) || !s.cleatUp then s
  else
    let charged := (addrs.take 256).filterMap s.chargeOf
    let items := hotItems (addrs.take 256).length 16 (charged.foldl (fun (t : Tab Nat) x => t.modify 0 x (fun n => n + 1)) [])
    let r := items.foldl (fun (a : Nat × State) x =>
      let n := a.1 + a.2.itemBytes x
      if n ≤ 62411243520 then
        (n, ({ a.2 with splice := { a.2.splice with wantRebase := insertSorted x a.2.splice.wantRebase } }).count 0x13 0 1 1)
      else (a.1, a.2.count 0x13 0 2 1)) ((memoryUse s.lay).2, s)
    if r.2.splice.wantRebase.isEmpty then r.2 else r.2.modChan c (fun x => { x with judged := true, hotRun := 0 })

/-- A channel's run of hot wall frames has reached 64 (R312). `num` and `den` give the mean occupancy. -/
def State.hotspot (c occ num den : Nat) (addrs : List Nat) (s : State) : State :=
  let s := (s.modChan c (fun x => { x with judged := false })).event 0x000D c (occ * 256 * den / num)
  (s.fireSrc 74 (50 + c) 0xFFFF).rebase c addrs

/-- One general channel's occupancy is judged (R312). -/
def State.judgeOcc (occs : List Nat) (samples : List (Nat × Nat)) (s : State) (c : Nat) : State :=
  let live := (List.range 30).filter (fun x => !s.isFenced (50 + x))
  let sum := live.foldl (fun a x => a + occs.getD x 0) 0
  let occ := occs.getD c 0
  let hot := hasNat c live && decide (2 * sum < occ * live.length) && decide (8192 < occ)
  let s := s.modChan c (fun x => { x with
    occ := occ, hotRun := if hot then x.hotRun + 1 else 0, coolRun := if hot then 0 else x.coolRun + 1
    judged := x.judged || (!hot && decide (64 ≤ x.coolRun + 1)) })
  let r := s.mem.chans.get {} c
  let s := if hot then s.setCounter 0x11 c 5 r.hotRun else s
  if hot && r.judged && decide (r.hotRun = 64) then
    s.hotspot c occ sum live.length ((samples.filter (fun e => decide (e.1 = c))).map (fun e => e.2))
  else s

/-- Channel occupancy over the wall frame (R312, R314). -/
def State.takeOccs (o : LineObs) (s : State) : State :=
  if o.occs.isEmpty then s
  else
    let s := (List.range 32).foldl (fun s c => s.setCounter 0x11 c 0 (o.occs.getD c 0)) s
    (List.range 30).foldl (State.judgeOcc o.occs o.samples) s

/-! ### Stopper and signatures (R189, R192) -/

/-- Disagreements in a third wall frame in a row count as a failure of both checkers of a unit (R189). -/
def State.stopperCheck (s : State) (u : Nat) : State :=
  let x := s.stop.units.get {} u
  let n := if x.disagreed then x.disagreeFrames + 1 else 0
  let s := { s with stop := { s.stop with units := s.stop.units.modify {} u (fun x =>
    { x with disagreed := false, disagreeFrames := if 3 ≤ n then 0 else n }) } }
  if 3 ≤ n then s.fireSrc (52 + u) (46 + u) 0xFFFF else s

/-- Each signature unit arms its accumulator for the next head of its group (R192). -/
def State.armSigs (s : State) : State :=
  { s with stop := { s.stop with sigs := (List.range 8).foldl (fun (t : Tab SigUnit) g =>
      t.modify {} g (fun u => { u with armed := some (4 * g + u.rotation), rotation := (u.rotation + 1) % 4 })) s.stop.sigs } }

/-! ### Wall line 0 (R70, R78, R83, R267) -/

/-- The versions that apply at wall line 0 of frame `f`; after a re-anchor every one (R70, R83). -/
def State.dueVersions (s : State) (f : Nat) (all : Bool) : List Version := s.splice.versions.filter (fun v => all || decide (v.frame ≤ f))

/-- Cleat raises the heartbeat and takes the snapshot (R62, R64). -/
def State.cleatLine0 (s : State) : State :=
  if s.cleatUp then ({ s with mirror := { s.mirror with heartbeat := (s.mirror.heartbeat + 1) % 4294967296 } }).wallSnapshot else s

/-- The steps of a wall line 0, in order. The switch comes before the set (R267), the set before the rest, and the snapshot last. -/
def lineZeroSteps (f : Nat) (vs : List Version) (first : Bool) (o : LineObs) : List (State → State) :=
  [State.switchLine0,
   fun s => { s with time := { s.time with incrAtLine0 := (s.time.domain s.time.active).incr } },
   State.takeMasks,
   State.dueFaultEvents,
   State.applySet f vs,
   State.whipLine0,
   State.returnUnits,
   fun s => (List.range 8).foldl (fun s n => s.patternSeal f n) s,
   State.takeTemps o.temps,
   State.refreshCheck first,
   State.retrainStall,
   State.takeOccs o,
   fun s => o.traffic.foldl (fun s t => s.portNote t) s,
   fun s => o.prbs.foldl (fun s p => s.prbsNote p) s,
   State.strandsLine0,
   fun s => (List.range 4).foldl State.stopperCheck s,
   State.armSigs,
   State.endSaves,
   State.placeInternal,
   boundLine0,
   State.idleCheck,
   State.cleatLine0]

/-- Run steps while the raster runs: a chip reset among them ends the line. -/
def runSteps (gs : List (State → State)) (s : State) : State := gs.foldl (fun s g => if s.raster.run then g s else s) s

/-- Wall line 0 of frame `f` (R78); a set that changes WALL_RATE re-anchors after everything else (R70). -/
def State.lineZero (f : Nat) (all first : Bool) (o : LineObs) (s : State) : State :=
  let rate := s.lay.dev.wallRate
  let s := runSteps (lineZeroSteps f (s.dueVersions f all) first o) s
  if s.raster.run && decide (s.lay.dev.wallRate ≠ rate) then s.reanchor else s

/-! ### Every wall line (R71, R74, R77, R80, R227, R232) -/

/-- Wall frames whose head frames can have a point in wall frame `f`. -/
def nearFrames (f : Nat) : List Nat := (if f = 0 then [] else [f - 1]) ++ [f, f + 1]

/-- The head frames near wall frame `f` that enabled heads emit: frame, head, half, with the head's settings. -/
def State.nearHeads (s : State) (f : Nat) : List (Nat × Nat × Nat × HeadCfg) :=
  (nearFrames f).foldl (fun a g =>
    a ++ ((s.layoutFor g).enabledHeads.filter (fun h => !s.headSkips h g)).foldl (fun a h =>
      a ++ (halves ((s.layoutFor g).head h)).map (fun k => (g, h, k, (s.layoutFor g).head h))) []) []

/-- Heads that the set of frame `f` disables go off at the start of that frame (R52, R83). -/
def State.headsOff (f w : Nat) (s : State) : State :=
  s.heads.foldl (fun s e =>
    if e.2.cfg.enable && !((s.layoutFor f).head e.1).enable && decide (((s.layoutFor (f - 1)).head e.1).phase = w) then
      (s.headStarted e.1 f).headOff e.1 else s) s

/-- A head frame starts; a fenced head whose test has passed returns (R71, R410). -/
def State.frameStart (h f half pos : Nat) (l : Layout) (fails : List (Nat × Nat)) (s : State) : State :=
  (if half = 0 && hasNat h s.flt.passedTests then s.unfence h else s).headStart h f half pos l fails

/-- Whether half `half` of head frame `f` of head `h` starts at wall line `w`. -/
def State.startsAt (s : State) (h f half w : Nat) (c : HeadCfg) : Bool :=
  let r := s.headRt h
  decide (c.phase + 2048 * half = w) && (decide (half = 0) || (decide (r.frame = f) && r.startPos.isSome && r.cfg.enable))

/-- Head frames that start at this wall line (R71). -/
def State.headsStart (fails : List (Nat × Nat)) (f w : Nat) (s : State) : State :=
  (s.nearHeads f).foldl (fun s x => if decide (x.1 = f) && s.startsAt x.2.1 f x.2.2.1 w x.2.2.2 then
    s.frameStart x.2.1 f x.2.2.1 (4096 * f + w) (s.layoutFor f) fails else s) s

/-- Drawing windows that begin at this wall line (R227). -/
def State.overlaysBegin (f pos : Nat) (s : State) : State :=
  (s.nearHeads f).foldl (fun s x => if decide (x.2.2.2.overlay = 1) && decide (rowBeginPos x.2.2.2 x.1 x.2.2.1 0 - 512 = pos) then
    s.overlayBegin x.2.1 x.1 x.2.2.1 else s) s

/-- Tile rows whose first pass begins at this wall line (R77, R156). -/
def State.rowsBegin (f pos : Nat) (s : State) : State :=
  (s.nearHeads f).foldl (fun s x => (List.range (tileRows x.2.2.2)).foldl (fun s r =>
    if decide (rowBeginPos x.2.2.2 x.1 x.2.2.1 r = pos) then s.rowBegin x.2.1 r x.1 x.2.2.1 else s) s) s

/-- A row that has no pass for the head frame misses its bind (R13, R159). -/
def State.rowMiss (k f half cols : Nat) (s : State) : State :=
  (s.modRow k (fun r => { r with frame := f, half := half, due := false, bound := true, running := none, pending := none, missed := List.range cols })).count
    0x03 (k / 128) 5 1

/-- The bind point of tile row `k` for head frame (f, half) (R77, R159). -/
def State.rowReaches (k f half cols : Nat) (s : State) : State :=
  let r := s.row k
  if r.frame = f && r.half = half then (if r.bound then s else s.rowBind k)
  else if s.composes (k / 128) then s.rowMiss k f half cols else s

/-- Tile rows that bind at this wall line. -/
def State.rowsBind (f pos : Nat) (s : State) : State :=
  (s.nearHeads f).foldl (fun s x => (List.range (tileRows x.2.2.2)).foldl (fun s r =>
    if decide (rowBindPos x.2.2.2 x.1 x.2.2.1 r = pos) then s.rowReaches (rowKey x.2.1 r) x.1 x.2.2.1 (tileCols x.2.2.2) else s) s) s

/-- Touch frame slots begin at wall lines ⌊j × 4,096 ÷ k⌋ (R80). -/
def State.touchSlots (w : Nat) (s : State) : State :=
  let k := touchPerFrame s.lay.dev.wallRate
  if (List.range k).any (fun j => decide (j * 4096 / k = w)) then ((List.range 16).foldl (fun s d => s.touchSlot d) s).endSaves else s

/-- The steps of a wall line. -/
def lineSteps (fails : List (Nat × Nat)) (f w : Nat) : List (State → State) :=
  [State.linesPass,
   State.headsOff f w,
   State.headsStart fails f w,
   State.overlaysBegin f (4096 * f + w),
   State.rowsBegin f (4096 * f + w),
   State.rowsBind f (4096 * f + w),
   State.schedule,
   State.encStarts,
   State.touchSlots w]

/-- What happens at the raster's present wall line. -/
def State.lineEvents (o : LineObs) (s : State) : State := runSteps (lineSteps o.testFails s.raster.frame s.raster.line) s

/-! ### The raster's rows -/

/-- The wall position after `r` (R67). -/
def Raster.next (r : Raster) : Nat × Nat := if r.line = 4095 then (r.frame + 1, 0) else (r.frame, r.line + 1)

/-- WALL_LINE_START (R67): the next wall line begins once wall time has reached its start. -/
def State.wallLine (o : LineObs) (s : State) : State :=
  let p := s.raster.next
  if !s.raster.run || decide (s.wallNs < lineStartNs s.lay.dev.wallRate p.1 p.2) then s
  else
    let s := { s with raster := { s.raster with frame := p.1, line := p.2 } }
    (if p.2 = 0 then s.lineZero p.1 false false o else s).lineEvents o

/-- Whether the raster may start: the device is past its start, and PLL_TIME has not failed (R69, R421). -/
def State.rasterReady (s : State) : Bool :=
  !s.raster.run && decide (s.boot.step = 11) && !s.clk.onFio.any (fun k => decide (k = .pllTime)) &&
    (decide (s.dev = .configuring) || decide (s.dev = .running) || decide (s.dev = .degraded) || decide (s.dev = .safe))

/-- After a re-anchor the frame numbers of the old time mean nothing: heads still off the set go off, and the set in force counts
from the epoch (R70). -/
def State.forgetTime (s : State) : State :=
  let s := s.heads.foldl (fun s e => if e.2.cfg.enable then s.headOff e.1 else s) s
  { s with splice := { s.splice with history := [], tag := 0 } }

/-- RASTER_START (R69, R70): the raster starts, or starts again after a re-anchor, at wall line 0 of its first wall frame. -/
def State.rasterBegin (o : LineObs) (s : State) : State :=
  let f := s.raster.first
  if !s.rasterReady || decide (s.wallNs < lineStartNs s.lay.dev.wallRate f 0) then s
  else
    let again := s.raster.anchored
    let s := if again then s.forgetTime else s
    let origin := if s.raster.started then s.raster.origin else f
    let s : State := { s with raster := { run := true, started := true, frame := f, line := 0, first := f, origin := origin, anchored := false } }
    (s.lineZero f again (!again) o).lineEvents o

/-- WALL_LINE_START. -/
def execWallLineStart (dt : Nat) (obs : LineObs) (s : State) : Host.Outcome State Fault Refusal := .next ((s.advance dt).wallLine obs)

/-- RASTER_START. -/
def execRasterStart (dt : Nat) (obs : LineObs) (s : State) : Host.Outcome State Fault Refusal := .next ((s.advance dt).rasterBegin obs)

end Sys2Proof.Machine
end

