-- ==== Sys2Proof/Machine/Dispatch.lean ====
section
/-! DEFINITION. The dispatcher: one arm for each row of the opcode table. -/

namespace Sys2Proof.Machine

open Sys2Proof

def exec (i : Instr) (s : State) : Host.Outcome State Fault Refusal :=
  match i with
  | .identify dt c => Sys2Proof.Machine.execIdentify dt c s
  | .summary dt c => Sys2Proof.Machine.execSummary dt c s
  | .readLog dt c logFrom max => Sys2Proof.Machine.execReadLog dt c logFrom max s
  | .reset dt c => Sys2Proof.Machine.execReset dt c s
  | .clearStartCount dt c => Sys2Proof.Machine.execClearStartCount dt c s
  | .fwBegin dt c size => Sys2Proof.Machine.execFwBegin dt c size s
  | .fwData dt c offset data => Sys2Proof.Machine.execFwData dt c offset data s
  | .fwEnd dt c verifies imgSeq version => Sys2Proof.Machine.execFwEnd dt c verifies imgSeq version s
  | .fwLoadTimeout dt => Sys2Proof.Machine.execFwLoadTimeout dt s
  | .memConfig dt c grain hash checkInit => Sys2Proof.Machine.execMemConfig dt c grain hash checkInit s
  | .memConfigDone dt => Sys2Proof.Machine.execMemConfigDone dt s
  | .paletteProgram dt c words => Sys2Proof.Machine.execPaletteProgram dt c words s
  | .txnOpen dt c => Sys2Proof.Machine.execTxnOpen dt c s
  | .txnCommit dt c frame => Sys2Proof.Machine.execTxnCommit dt c frame s
  | .commitValidated dt => Sys2Proof.Machine.execCommitValidated dt s
  | .txnAbort dt c => Sys2Proof.Machine.execTxnAbort dt c s
  | .objectRead dt c opcode view id count => Sys2Proof.Machine.execObjectRead dt c opcode view id count s
  | .stageDevice dt c id o => Sys2Proof.Machine.execStageDevice dt c id o s
  | .stageSource dt c id o => Sys2Proof.Machine.execStageSource dt c id o s
  | .stageFlow dt c id o => Sys2Proof.Machine.execStageFlow dt c id o s
  | .stageMac dt c id o => Sys2Proof.Machine.execStageMac dt c id o s
  | .stageDprx dt c id o => Sys2Proof.Machine.execStageDprx dt c id o s
  | .stageContext dt c id o => Sys2Proof.Machine.execStageContext dt c id o s
  | .stageHead dt c id o => Sys2Proof.Machine.execStageHead dt c id o s
  | .stageWindow dt c id o => Sys2Proof.Machine.execStageWindow dt c id o s
  | .stageEncoder dt c id o => Sys2Proof.Machine.execStageEncoder dt c id o s
  | .stageGlyphs dt c first os => Sys2Proof.Machine.execStageGlyphs dt c first os s
  | .stageGlyphSet dt c id o => Sys2Proof.Machine.execStageGlyphSet dt c id o s
  | .stageAtlas dt c first masks => Sys2Proof.Machine.execStageAtlas dt c first masks s
  | .stageColours dt c id colours => Sys2Proof.Machine.execStageColours dt c id colours s
  | .stageScaler dt c id o => Sys2Proof.Machine.execStageScaler dt c id o s
  | .stageDesk dt c id o => Sys2Proof.Machine.execStageDesk dt c id o s
  | .stageQuad dt c id o => Sys2Proof.Machine.execStageQuad dt c id o s
  | .stageDomain dt c id o => Sys2Proof.Machine.execStageDomain dt c id o s
  | .stagePulse dt c id o => Sys2Proof.Machine.execStagePulse dt c id o s
  | .stageRegulator dt c id o => Sys2Proof.Machine.execStageRegulator dt c id o s
  | .stageAccess dt c id o => Sys2Proof.Machine.execStageAccess dt c id o s
  | .surfacePublish dt c source flags pitch hostAddr capture => Sys2Proof.Machine.execSurfacePublish dt c source flags pitch hostAddr capture s
  | .surfaceCopyDone dt source lines readOk => Sys2Proof.Machine.execSurfaceCopyDone dt source lines readOk s
  | .sourceQuery dt c source count => Sys2Proof.Machine.execSourceQuery dt c source count s
  | .encQuery dt c ctx count => Sys2Proof.Machine.execEncQuery dt c ctx count s
  | .pointQuery dt c first count => Sys2Proof.Machine.execPointQuery dt c first count s
  | .headQuery dt c head sect offset length => Sys2Proof.Machine.execHeadQuery dt c head sect offset length s
  | .counterRead dt c block flags inst => Sys2Proof.Machine.execCounterRead dt c block flags inst s
  | .timeAdjust dt c domain flags incr offset => Sys2Proof.Machine.execTimeAdjust dt c domain flags incr offset s
  | .timeSwitch dt c domain => Sys2Proof.Machine.execTimeSwitch dt c domain s
  | .timeStatus dt c sect sel start => Sys2Proof.Machine.execTimeStatus dt c sect sel start s
  | .whipSet dt c p => Sys2Proof.Machine.execWhipSet dt c p s
  | .probeSet dt c p => Sys2Proof.Machine.execProbeSet dt c p s
  | .laneTest dt c lane flags ctrl => Sys2Proof.Machine.execLaneTest dt c lane flags ctrl s
  | .touchBaseline dt c desk op => Sys2Proof.Machine.execTouchBaseline dt c desk op s
  | .baselineFlashWriteDone dt desk => Sys2Proof.Machine.execBaselineFlashWriteDone dt desk s
  | .faultQuery dt c first count => Sys2Proof.Machine.execFaultQuery dt c first count s
  | .faultReact dt c source mask => Sys2Proof.Machine.execFaultReact dt c source mask s
  | .faultRearm dt c classes => Sys2Proof.Machine.execFaultRearm dt c classes s
  | .unitRestore dt c unit => Sys2Proof.Machine.execUnitRestore dt c unit s
  | .unitTestDone dt unit pass => Sys2Proof.Machine.execUnitTestDone dt unit pass s
  | .debugChallenge dt c => Sys2Proof.Machine.execDebugChallenge dt c s
  | .debugUnlock dt c verifies => Sys2Proof.Machine.execDebugUnlock dt c verifies s
  | .debugChallengeExpiry dt => Sys2Proof.Machine.execDebugChallengeExpiry dt s
  | .debugLockoutExpiry dt => Sys2Proof.Machine.execDebugLockoutExpiry dt s
  | .dbProducer dt ring index packets => Sys2Proof.Machine.execDbProducer dt ring index packets s
  | .dbConsumer dt ring index => Sys2Proof.Machine.execDbConsumer dt ring index s
  | .ringEnable dt ring size cplSize msixVec modUs => Sys2Proof.Machine.execRingEnable dt ring size cplSize msixVec modUs s
  | .ringDisable dt ring => Sys2Proof.Machine.execRingDisable dt ring s
  | .ringErrClear dt ring => Sys2Proof.Machine.execRingErrClear dt ring s
  | .registerWrite dt ring reg value => Sys2Proof.Machine.execRegisterWrite dt ring reg value s
  | .bar0StrayWrite dt addr => Sys2Proof.Machine.execBar0StrayWrite dt addr s
  | .msixModerationExpiry dt ring => Sys2Proof.Machine.execMsixModerationExpiry dt ring s
  | .uartFrameRx dt raw => Sys2Proof.Machine.execUartFrameRx dt raw s
  | .uartGapTimeout dt => Sys2Proof.Machine.execUartGapTimeout dt s
  | .txnExpired dt id => Sys2Proof.Machine.execTxnExpired dt id s
  | .wallLineStart dt obs => Sys2Proof.Machine.execWallLineStart dt obs s
  | .rasterStart dt obs => Sys2Proof.Machine.execRasterStart dt obs s
  | .ethFrameRx dt mac kind vlan length fcsOk => Sys2Proof.Machine.execEthFrameRx dt mac kind vlan length fcsOk s
  | .rtpPacketRx dt p => Sys2Proof.Machine.execRtpPacketRx dt p s
  | .holeClose dt flow seq => Sys2Proof.Machine.execHoleClose dt flow seq s
  | .frameCloseTimeout dt flow => Sys2Proof.Machine.execFrameCloseTimeout dt flow s
  | .pathDown dt flow path => Sys2Proof.Machine.execPathDown dt flow path s
  | .frameSeal dt source lines => Sys2Proof.Machine.execFrameSeal dt source lines s
  | .dprxFrameStart dt port width height format => Sys2Proof.Machine.execDprxFrameStart dt port width height format s
  | .dprxLinkLoss dt port => Sys2Proof.Machine.execDprxLinkLoss dt port s
  | .dprxHpdRelease dt port => Sys2Proof.Machine.execDprxHpdRelease dt port s
  | .pointDatagramRx dt d => Sys2Proof.Machine.execPointDatagramRx dt d s
  | .hostPointSlot dt count rsv recs => Sys2Proof.Machine.execHostPointSlot dt count rsv recs s
  | .decodePictureComplete dt engine res => Sys2Proof.Machine.execDecodePictureComplete dt engine res s
  | .decodeOverrun dt engine res => Sys2Proof.Machine.execDecodeOverrun dt engine res s
  | .poolBufferFreed dt ctx => Sys2Proof.Machine.execPoolBufferFreed dt ctx s
  | .encodeRowComplete dt ctx row => Sys2Proof.Machine.execEncodeRowComplete dt ctx row s
  | .rowLate dt ctx row => Sys2Proof.Machine.execRowLate dt ctx row s
  | .encTileRowRead dt ctx region row readOk => Sys2Proof.Machine.execEncTileRowRead dt ctx region row readOk s
  | .packetLaunch dt mac => Sys2Proof.Machine.execPacketLaunch dt mac s
  | .launchSlip dt mac => Sys2Proof.Machine.execLaunchSlip dt mac s
  | .tileComputed dt head row mismatch strandA strandB readErrors => Sys2Proof.Machine.execTileComputed dt head row mismatch strandA strandB readErrors s
  | .strandSwitch dt => Sys2Proof.Machine.execStrandSwitch dt s
  | .passComplete dt head row => Sys2Proof.Machine.execPassComplete dt head row s
  | .strandSelftestDone dt strand pass => Sys2Proof.Machine.execStrandSelftestDone dt strand pass s
  | .overlaySurfaceDone dt head readErrors => Sys2Proof.Machine.execOverlaySurfaceDone dt head readErrors s
  | .overlayWindowEnd dt head => Sys2Proof.Machine.execOverlayWindowEnd dt head s
  | .bandRowFetchDone dt head band => Sys2Proof.Machine.execBandRowFetchDone dt head band s
  | .fetchUrgent dt head band => Sys2Proof.Machine.execFetchUrgent dt head band s
  | .bandRowEmit dt head band obs => Sys2Proof.Machine.execBandRowEmit dt head band obs s
  | .hpdIrq dt head => Sys2Proof.Machine.execHpdIrq dt head s
  | .hpdUnplug dt head => Sys2Proof.Machine.execHpdUnplug dt head s
  | .hpdAsserted dt head => Sys2Proof.Machine.execHpdAsserted dt head s
  | .auxReply dt head data => Sys2Proof.Machine.execAuxReply dt head data s
  | .auxTimeout dt head => Sys2Proof.Machine.execAuxTimeout dt head s
  | .trainingSuccess dt r => Sys2Proof.Machine.execTrainingSuccess dt r s
  | .trainingAttemptFail dt head => Sys2Proof.Machine.execTrainingAttemptFail dt head s
  | .trainingAttemptTimeout dt head => Sys2Proof.Machine.execTrainingAttemptTimeout dt head s
  | .trainingRetry dt head => Sys2Proof.Machine.execTrainingRetry dt head s
  | .restExitRequest dt lane => Sys2Proof.Machine.execRestExitRequest dt lane s
  | .laneIdleExit dt lane => Sys2Proof.Machine.execLaneIdleExit dt lane s
  | .quadPllLock dt quad => Sys2Proof.Machine.execQuadPllLock dt quad s
  | .quadPllLockTimeout dt quad => Sys2Proof.Machine.execQuadPllLockTimeout dt quad s
  | .quadPllUnlock dt quad => Sys2Proof.Machine.execQuadPllUnlock dt quad s
  | .cdrLoss dt lane => Sys2Proof.Machine.execCdrLoss dt lane s
  | .ptpSyncRx dt m => Sys2Proof.Machine.execPtpSyncRx dt m s
  | .followUpRx dt m => Sys2Proof.Machine.execFollowUpRx dt m s
  | .announceRx dt m => Sys2Proof.Machine.execAnnounceRx dt m s
  | .delayRespRx dt m => Sys2Proof.Machine.execDelayRespRx dt m s
  | .delayReqTx dt domain => Sys2Proof.Machine.execDelayReqTx dt domain s
  | .mgmtDiscard dt domain => Sys2Proof.Machine.execMgmtDiscard dt domain s
  | .syncTimeout dt domain => Sys2Proof.Machine.execSyncTimeout dt domain s
  | .announceTimeout dt domain master => Sys2Proof.Machine.execAnnounceTimeout dt domain master s
  | .holdoverExpiry dt domain => Sys2Proof.Machine.execHoldoverExpiry dt domain s
  | .tpiEdge dt input falling => Sys2Proof.Machine.execTpiEdge dt input falling s
  | .tpoPulse dt output => Sys2Proof.Machine.execTpoPulse dt output s
  | .sampleInstantRx dt desk count b => Sys2Proof.Machine.execSampleInstantRx dt desk count b s
  | .thimbleMessageRx dt desk blockType payload => Sys2Proof.Machine.execThimbleMessageRx dt desk blockType payload s
  | .touchFrameMeasured dt desk values noise nextNoise => Sys2Proof.Machine.execTouchFrameMeasured dt desk values noise nextNoise s
  | .deskBlockLock dt desk => Sys2Proof.Machine.execDeskBlockLock dt desk s
  | .deskInfoReadDone dt desk info => Sys2Proof.Machine.execDeskInfoReadDone dt desk info s
  | .deskStartTimeout dt desk => Sys2Proof.Machine.execDeskStartTimeout dt desk s
  | .deskLinkLoss dt desk => Sys2Proof.Machine.execDeskLinkLoss dt desk s
  | .refresh dt => Sys2Proof.Machine.execRefresh dt s
  | .mr4Poll dt rates => Sys2Proof.Machine.execMr4Poll dt rates s
  | .regulatorRelease dt port item size => Sys2Proof.Machine.execRegulatorRelease dt port item size s
  | .class2Promotion dt channel => Sys2Proof.Machine.execClass2Promotion dt channel s
  | .whipCheckDone dt unit readOk => Sys2Proof.Machine.execWhipCheckDone dt unit readOk s
  | .faultSourceFire dt f => Sys2Proof.Machine.execFaultSourceFire dt f s
  | .processorWdogExpiry dt proc => Sys2Proof.Machine.execProcessorWdogExpiry dt proc s
  | .watchdogKick dt proc => Sys2Proof.Machine.execWatchdogKick dt proc s
  | .bowlineWdog dt => Sys2Proof.Machine.execBowlineWdog dt s
  | .bowlineLockstep dt => Sys2Proof.Machine.execBowlineLockstep dt s
  | .collector dt => Sys2Proof.Machine.execCollector dt s
  | .por dt => Sys2Proof.Machine.execPor dt s
  | .railExcursion dt rail => Sys2Proof.Machine.execRailExcursion dt rail s
  | .resetNAssert dt => Sys2Proof.Machine.execResetNAssert dt s
  | .resetNRelease dt => Sys2Proof.Machine.execResetNRelease dt s
  | .perstN dt => Sys2Proof.Machine.execPerstN dt s
  | .fuseLoadDone dt badBlocks strapReadings => Sys2Proof.Machine.execFuseLoadDone dt badBlocks strapReadings s
  | .clockStable dt c => Sys2Proof.Machine.execClockStable dt c s
  | .clockJudgeTimeout dt clock count => Sys2Proof.Machine.execClockJudgeTimeout dt clock count s
  | .clockMonitorFail dt c => Sys2Proof.Machine.execClockMonitorFail dt c s
  | .fioRetry dt => Sys2Proof.Machine.execFioRetry dt s
  | .imageLoaded dt bad => Sys2Proof.Machine.execImageLoaded dt bad s
  | .memTrainingDone dt failed => Sys2Proof.Machine.execMemTrainingDone dt failed s
  | .bootComplete dt => Sys2Proof.Machine.execBootComplete dt s
  | .startTimeout dt => Sys2Proof.Machine.execStartTimeout dt s
  | .failedStartReset dt => Sys2Proof.Machine.execFailedStartReset dt s
  | .pwrFailAssert dt => Sys2Proof.Machine.execPwrFailAssert dt s
  | .pwrFailRelease dt => Sys2Proof.Machine.execPwrFailRelease dt s
  | .lastGaspWriteDone dt => Sys2Proof.Machine.execLastGaspWriteDone dt s
  | .extest dt => Sys2Proof.Machine.execExtest dt s
  | .samplePreload dt scan => Sys2Proof.Machine.execSamplePreload dt scan s
  | .idcode dt => Sys2Proof.Machine.execIdcode dt s
  | .clamp dt => Sys2Proof.Machine.execClamp dt s
  | .highz dt => Sys2Proof.Machine.execHighz dt s
  | .dbgAccess dt a => Sys2Proof.Machine.execDbgAccess dt a s
  | .dbgTrace dt base size => Sys2Proof.Machine.execDbgTrace dt base size s
  | .dbgHalt dt op proc => Sys2Proof.Machine.execDbgHalt dt op proc s
  | .bypass dt => Sys2Proof.Machine.execBypass dt s
  | .trstN dt => Sys2Proof.Machine.execTrstN dt s
  | .ethLinkDown dt mac => Sys2Proof.Machine.execEthLinkDown dt mac s
  | .ethBlockLock dt mac => Sys2Proof.Machine.execEthBlockLock dt mac s
  | .dprxSymbolLock dt port => Sys2Proof.Machine.execDprxSymbolLock dt port s
  | .dprxAuxRequest dt port offset length => Sys2Proof.Machine.execDprxAuxRequest dt port offset length s
  | .scrub dt channel read => Sys2Proof.Machine.execScrub dt channel read s
  | .supplyResetRelease dt => Sys2Proof.Machine.execSupplyResetRelease dt s
  | .paletteProgramDone dt readBackOk => Sys2Proof.Machine.execPaletteProgramDone dt readBackOk s
  | .fwDataDone dt => Sys2Proof.Machine.execFwDataDone dt s
  | .processorRestartDone dt proc => Sys2Proof.Machine.execProcessorRestartDone dt proc s

end Sys2Proof.Machine
end

