-- ==== Sys2Proof/Machine/Step.lean ====
section
/-! DEFINITION. One step: the row at the front of the queue, or one idle TIME tick. -/

namespace Sys2Proof.Machine

open Sys2Proof

/-- Take the row at the front of the queue and run it on the state with the rest of the queue. With an empty queue the
device idles for one TIME tick (log entry 3). -/
def step (s : State) : Host.Outcome State Fault Refusal :=
  match s.pending with
  | [] => .next (s.advance 1)
  | c :: rest => exec c { s with pending := rest }

/-- Put the row that a word spells at the front of the queue. No row of the table has bits, so the state is unchanged. -/
def State.withFetchWord (s : State) (nbits w : Nat) : State :=
  match decodeTableWord nbits w with
  | none => s
  | some i => { s with pending := i :: s.pending }

end Sys2Proof.Machine
end

