-- ==== Sys2Proof/Safety.lean ====
section
/-! DEFINITION. What counts as a sound state: the bounds that the spec sets on the device's stores, and the canonical
form of memory and counters. Claims are stated in these terms. -/

namespace Sys2Proof

open Sys2Proof.Machine

/-- The ticks of TIME that have passed since the row before: the first operand of every row (log entry 1). -/
def Instr.ticks : Instr → Nat
  | .identify dt _ => dt
  | .summary dt _ => dt
  | .readLog dt _ _ _ => dt
  | .reset dt _ => dt
  | .clearStartCount dt _ => dt
  | .fwBegin dt _ _ => dt
  | .fwData dt _ _ _ => dt
  | .fwEnd dt _ _ _ _ => dt
  | .fwLoadTimeout dt => dt
  | .memConfig dt _ _ _ _ => dt
  | .memConfigDone dt => dt
  | .paletteProgram dt _ _ => dt
  | .txnOpen dt _ => dt
  | .txnCommit dt _ _ => dt
  | .commitValidated dt => dt
  | .txnAbort dt _ => dt
  | .objectRead dt _ _ _ _ _ => dt
  | .stageDevice dt _ _ _ => dt
  | .stageSource dt _ _ _ => dt
  | .stageFlow dt _ _ _ => dt
  | .stageMac dt _ _ _ => dt
  | .stageDprx dt _ _ _ => dt
  | .stageContext dt _ _ _ => dt
  | .stageHead dt _ _ _ => dt
  | .stageWindow dt _ _ _ => dt
  | .stageEncoder dt _ _ _ => dt
  | .stageGlyphs dt _ _ _ => dt
  | .stageGlyphSet dt _ _ _ => dt
  | .stageAtlas dt _ _ _ => dt
  | .stageColours dt _ _ _ => dt
  | .stageScaler dt _ _ _ => dt
  | .stageDesk dt _ _ _ => dt
  | .stageQuad dt _ _ _ => dt
  | .stageDomain dt _ _ _ => dt
  | .stagePulse dt _ _ _ => dt
  | .stageRegulator dt _ _ _ => dt
  | .stageAccess dt _ _ _ => dt
  | .surfacePublish dt _ _ _ _ _ _ => dt
  | .surfaceCopyDone dt _ _ _ => dt
  | .sourceQuery dt _ _ _ => dt
  | .encQuery dt _ _ _ => dt
  | .pointQuery dt _ _ _ => dt
  | .headQuery dt _ _ _ _ _ => dt
  | .counterRead dt _ _ _ _ => dt
  | .timeAdjust dt _ _ _ _ _ => dt
  | .timeSwitch dt _ _ => dt
  | .timeStatus dt _ _ _ _ => dt
  | .whipSet dt _ _ => dt
  | .probeSet dt _ _ => dt
  | .laneTest dt _ _ _ _ => dt
  | .touchBaseline dt _ _ _ => dt
  | .baselineFlashWriteDone dt _ => dt
  | .faultQuery dt _ _ _ => dt
  | .faultReact dt _ _ _ => dt
  | .faultRearm dt _ _ => dt
  | .unitRestore dt _ _ => dt
  | .unitTestDone dt _ _ => dt
  | .debugChallenge dt _ => dt
  | .debugUnlock dt _ _ => dt
  | .debugChallengeExpiry dt => dt
  | .debugLockoutExpiry dt => dt
  | .dbProducer dt _ _ _ => dt
  | .dbConsumer dt _ _ => dt
  | .ringEnable dt _ _ _ _ _ => dt
  | .ringDisable dt _ => dt
  | .ringErrClear dt _ => dt
  | .registerWrite dt _ _ _ => dt
  | .bar0StrayWrite dt _ => dt
  | .msixModerationExpiry dt _ => dt
  | .uartFrameRx dt _ => dt
  | .uartGapTimeout dt => dt
  | .txnExpired dt _ => dt
  | .wallLineStart dt _ => dt
  | .rasterStart dt _ => dt
  | .ethFrameRx dt _ _ _ _ _ => dt
  | .rtpPacketRx dt _ => dt
  | .holeClose dt _ _ => dt
  | .frameCloseTimeout dt _ => dt
  | .pathDown dt _ _ => dt
  | .frameSeal dt _ _ => dt
  | .dprxFrameStart dt _ _ _ _ => dt
  | .dprxLinkLoss dt _ => dt
  | .dprxHpdRelease dt _ => dt
  | .pointDatagramRx dt _ => dt
  | .hostPointSlot dt _ _ _ => dt
  | .decodePictureComplete dt _ _ => dt
  | .decodeOverrun dt _ _ => dt
  | .poolBufferFreed dt _ => dt
  | .encodeRowComplete dt _ _ => dt
  | .rowLate dt _ _ => dt
  | .encTileRowRead dt _ _ _ _ => dt
  | .packetLaunch dt _ => dt
  | .launchSlip dt _ => dt
  | .tileComputed dt _ _ _ _ _ _ => dt
  | .strandSwitch dt => dt
  | .passComplete dt _ _ => dt
  | .strandSelftestDone dt _ _ => dt
  | .overlaySurfaceDone dt _ _ => dt
  | .overlayWindowEnd dt _ => dt
  | .bandRowFetchDone dt _ _ => dt
  | .fetchUrgent dt _ _ => dt
  | .bandRowEmit dt _ _ _ => dt
  | .hpdIrq dt _ => dt
  | .hpdUnplug dt _ => dt
  | .hpdAsserted dt _ => dt
  | .auxReply dt _ _ => dt
  | .auxTimeout dt _ => dt
  | .trainingSuccess dt _ => dt
  | .trainingAttemptFail dt _ => dt
  | .trainingAttemptTimeout dt _ => dt
  | .trainingRetry dt _ => dt
  | .restExitRequest dt _ => dt
  | .laneIdleExit dt _ => dt
  | .quadPllLock dt _ => dt
  | .quadPllLockTimeout dt _ => dt
  | .quadPllUnlock dt _ => dt
  | .cdrLoss dt _ => dt
  | .ptpSyncRx dt _ => dt
  | .followUpRx dt _ => dt
  | .announceRx dt _ => dt
  | .delayRespRx dt _ => dt
  | .delayReqTx dt _ => dt
  | .mgmtDiscard dt _ => dt
  | .syncTimeout dt _ => dt
  | .announceTimeout dt _ _ => dt
  | .holdoverExpiry dt _ => dt
  | .tpiEdge dt _ _ => dt
  | .tpoPulse dt _ => dt
  | .sampleInstantRx dt _ _ _ => dt
  | .thimbleMessageRx dt _ _ _ => dt
  | .touchFrameMeasured dt _ _ _ _ => dt
  | .deskBlockLock dt _ => dt
  | .deskInfoReadDone dt _ _ => dt
  | .deskStartTimeout dt _ => dt
  | .deskLinkLoss dt _ => dt
  | .refresh dt => dt
  | .mr4Poll dt _ => dt
  | .regulatorRelease dt _ _ _ => dt
  | .class2Promotion dt _ => dt
  | .whipCheckDone dt _ _ => dt
  | .faultSourceFire dt _ => dt
  | .processorWdogExpiry dt _ => dt
  | .watchdogKick dt _ => dt
  | .bowlineWdog dt => dt
  | .bowlineLockstep dt => dt
  | .collector dt => dt
  | .por dt => dt
  | .railExcursion dt _ => dt
  | .resetNAssert dt => dt
  | .resetNRelease dt => dt
  | .perstN dt => dt
  | .fuseLoadDone dt _ _ => dt
  | .clockStable dt _ => dt
  | .clockJudgeTimeout dt _ _ => dt
  | .clockMonitorFail dt _ => dt
  | .fioRetry dt => dt
  | .imageLoaded dt _ => dt
  | .memTrainingDone dt _ => dt
  | .bootComplete dt => dt
  | .startTimeout dt => dt
  | .failedStartReset dt => dt
  | .pwrFailAssert dt => dt
  | .pwrFailRelease dt => dt
  | .lastGaspWriteDone dt => dt
  | .extest dt => dt
  | .samplePreload dt _ => dt
  | .idcode dt => dt
  | .clamp dt => dt
  | .highz dt => dt
  | .dbgAccess dt _ => dt
  | .dbgTrace dt _ _ => dt
  | .dbgHalt dt _ _ => dt
  | .bypass dt => dt
  | .trstN dt => dt
  | .ethLinkDown dt _ => dt
  | .ethBlockLock dt _ => dt
  | .dprxSymbolLock dt _ => dt
  | .dprxAuxRequest dt _ _ _ => dt
  | .scrub dt _ _ => dt
  | .supplyResetRelease dt => dt
  | .paletteProgramDone dt _ => dt
  | .fwDataDone dt => dt
  | .processorRestartDone dt _ => dt

/-- The row of R338 that a host command follows; an event has none. -/
def Instr.spec : Instr → Option CmdSpec
  | .identify _ _ => some specIdentify
  | .summary _ _ => some specSummary
  | .readLog _ _ _ _ => some specReadLog
  | .reset _ _ => some specReset
  | .clearStartCount _ _ => some specClearStartCount
  | .fwBegin _ _ _ => some specFwBegin
  | .fwData _ _ _ data => some (specFwData data.length)
  | .fwEnd _ _ _ _ _ => some specFwEnd
  | .fwLoadTimeout _ => none
  | .memConfig _ _ _ _ _ => some specMemConfig
  | .memConfigDone _ => none
  | .paletteProgram _ _ _ => some specPalette
  | .txnOpen _ _ => some specTxnOpen
  | .txnCommit _ _ _ => some specTxnCommit
  | .commitValidated _ => none
  | .txnAbort _ _ => some specTxnAbort
  | .objectRead _ _ _ _ _ _ => some specObjectRead
  | .stageDevice _ _ _ o => some (specStage (.device o))
  | .stageSource _ _ id o => some (specStage (.source id o))
  | .stageFlow _ _ id o => some (specStage (.flow id o))
  | .stageMac _ _ id o => some (specStage (.mac id o))
  | .stageDprx _ _ id o => some (specStage (.dprx id o))
  | .stageContext _ _ id o => some (specStage (.context id o))
  | .stageHead _ _ id o => some (specStage (.head id o))
  | .stageWindow _ _ id o => some (specStage (.window id o))
  | .stageEncoder _ _ id o => some (specStage (.encoder id o))
  | .stageGlyphs _ _ first os => some (specStage (.glyphs first os))
  | .stageGlyphSet _ _ id o => some (specStage (.glyphSet id o))
  | .stageAtlas _ _ first os => some (specStage (.atlas first os))
  | .stageColours _ _ _ o => some (specStage (.colours o))
  | .stageScaler _ _ _ o => some (specStage (.scaler o))
  | .stageDesk _ _ id o => some (specStage (.desk id o))
  | .stageQuad _ _ id o => some (specStage (.quad id o))
  | .stageDomain _ _ id o => some (specStage (.domain id o))
  | .stagePulse _ _ id o => some (specStage (.pulse id o))
  | .stageRegulator _ _ id o => some (specStage (.regulator id o))
  | .stageAccess _ _ id o => some (specStage (.access id o))
  | .surfacePublish _ _ _ _ _ _ _ => some specSurfacePublish
  | .surfaceCopyDone _ _ _ _ => none
  | .sourceQuery _ _ _ _ => some specSourceQuery
  | .encQuery _ _ _ _ => some specEncQuery
  | .pointQuery _ _ _ _ => some specPointQuery
  | .headQuery _ _ _ _ _ _ => some specHeadQuery
  | .counterRead _ _ _ _ _ => some specCounterRead
  | .timeAdjust _ _ _ _ _ _ => some specTimeAdjust
  | .timeSwitch _ _ _ => some specTimeSwitch
  | .timeStatus _ _ _ _ _ => some specTimeStatus
  | .whipSet _ _ _ => some specWhipSet
  | .probeSet _ _ _ => some specProbeSet
  | .laneTest _ _ _ _ _ => some specLaneTest
  | .touchBaseline _ _ _ _ => some specTouchBaseline
  | .baselineFlashWriteDone _ _ => none
  | .faultQuery _ _ _ _ => some specFaultQuery
  | .faultReact _ _ _ _ => some specFaultReact
  | .faultRearm _ _ _ => some specFaultRearm
  | .unitRestore _ _ _ => some specUnitRestore
  | .unitTestDone _ _ _ => none
  | .debugChallenge _ _ => some specDebugChallenge
  | .debugUnlock _ _ _ => some specDebugUnlock
  | .debugChallengeExpiry _ => none
  | .debugLockoutExpiry _ => none
  | .dbProducer _ _ _ _ => none
  | .dbConsumer _ _ _ => none
  | .ringEnable _ _ _ _ _ _ => none
  | .ringDisable _ _ => none
  | .ringErrClear _ _ => none
  | .registerWrite _ _ _ _ => none
  | .bar0StrayWrite _ _ => none
  | .msixModerationExpiry _ _ => none
  | .uartFrameRx _ _ => none
  | .uartGapTimeout _ => none
  | .txnExpired _ _ => none
  | .wallLineStart _ _ => none
  | .rasterStart _ _ => none
  | .ethFrameRx _ _ _ _ _ _ => none
  | .rtpPacketRx _ _ => none
  | .holeClose _ _ _ => none
  | .frameCloseTimeout _ _ => none
  | .pathDown _ _ _ => none
  | .frameSeal _ _ _ => none
  | .dprxFrameStart _ _ _ _ _ => none
  | .dprxLinkLoss _ _ => none
  | .dprxHpdRelease _ _ => none
  | .pointDatagramRx _ _ => none
  | .hostPointSlot _ _ _ _ => none
  | .decodePictureComplete _ _ _ => none
  | .decodeOverrun _ _ _ => none
  | .poolBufferFreed _ _ => none
  | .encodeRowComplete _ _ _ => none
  | .rowLate _ _ _ => none
  | .encTileRowRead _ _ _ _ _ => none
  | .packetLaunch _ _ => none
  | .launchSlip _ _ => none
  | .tileComputed _ _ _ _ _ _ _ => none
  | .strandSwitch _ => none
  | .passComplete _ _ _ => none
  | .strandSelftestDone _ _ _ => none
  | .overlaySurfaceDone _ _ _ => none
  | .overlayWindowEnd _ _ => none
  | .bandRowFetchDone _ _ _ => none
  | .fetchUrgent _ _ _ => none
  | .bandRowEmit _ _ _ _ => none
  | .hpdIrq _ _ => none
  | .hpdUnplug _ _ => none
  | .hpdAsserted _ _ => none
  | .auxReply _ _ _ => none
  | .auxTimeout _ _ => none
  | .trainingSuccess _ _ => none
  | .trainingAttemptFail _ _ => none
  | .trainingAttemptTimeout _ _ => none
  | .trainingRetry _ _ => none
  | .restExitRequest _ _ => none
  | .laneIdleExit _ _ => none
  | .quadPllLock _ _ => none
  | .quadPllLockTimeout _ _ => none
  | .quadPllUnlock _ _ => none
  | .cdrLoss _ _ => none
  | .ptpSyncRx _ _ => none
  | .followUpRx _ _ => none
  | .announceRx _ _ => none
  | .delayRespRx _ _ => none
  | .delayReqTx _ _ => none
  | .mgmtDiscard _ _ => none
  | .syncTimeout _ _ => none
  | .announceTimeout _ _ _ => none
  | .holdoverExpiry _ _ => none
  | .tpiEdge _ _ _ => none
  | .tpoPulse _ _ => none
  | .sampleInstantRx _ _ _ _ => none
  | .thimbleMessageRx _ _ _ _ => none
  | .touchFrameMeasured _ _ _ _ _ => none
  | .deskBlockLock _ _ => none
  | .deskInfoReadDone _ _ _ => none
  | .deskStartTimeout _ _ => none
  | .deskLinkLoss _ _ => none
  | .refresh _ => none
  | .mr4Poll _ _ => none
  | .regulatorRelease _ _ _ _ => none
  | .class2Promotion _ _ => none
  | .whipCheckDone _ _ _ => none
  | .faultSourceFire _ _ => none
  | .processorWdogExpiry _ _ => none
  | .watchdogKick _ _ => none
  | .bowlineWdog _ => none
  | .bowlineLockstep _ => none
  | .collector _ => none
  | .por _ => none
  | .railExcursion _ _ => none
  | .resetNAssert _ => none
  | .resetNRelease _ => none
  | .perstN _ => none
  | .fuseLoadDone _ _ _ => none
  | .clockStable _ _ => none
  | .clockJudgeTimeout _ _ _ => none
  | .clockMonitorFail _ _ => none
  | .fioRetry _ => none
  | .imageLoaded _ _ => none
  | .memTrainingDone _ _ => none
  | .bootComplete _ => none
  | .startTimeout _ => none
  | .failedStartReset _ => none
  | .pwrFailAssert _ => none
  | .pwrFailRelease _ => none
  | .lastGaspWriteDone _ => none
  | .extest _ => none
  | .samplePreload _ _ => none
  | .idcode _ => none
  | .clamp _ => none
  | .highz _ => none
  | .dbgAccess _ _ => none
  | .dbgTrace _ _ _ => none
  | .dbgHalt _ _ _ => none
  | .bypass _ => none
  | .trstN _ => none
  | .ethLinkDown _ _ => none
  | .ethBlockLock _ _ => none
  | .dprxSymbolLock _ _ => none
  | .dprxAuxRequest _ _ _ _ => none
  | .scrub _ _ _ => none
  | .supplyResetRelease _ => none
  | .paletteProgramDone _ _ => none
  | .fwDataDone _ => none
  | .processorRestartDone _ _ => none

end Sys2Proof

namespace Sys2Proof.Machine

open Sys2Proof

/-- Scheduled versions stand in strictly rising order of their wall frames (R81). -/
def framesRise : List Version → Bool
  | [] => true
  | v :: t => t.all (fun w => decide (v.frame < w.frame)) && framesRise t

/-- The bounds and forms of a sound state, on the stores that they concern: open transactions, scheduled versions, the event
log, the wall line, memory, and the counters. -/
structure SoundParts (opened : List Txn) (versions : List Version) (recs : List Event) (line : Nat) (bytes : Tab Byte)
    (counters : Tab Nat) : Prop where
  /-- At most eight transactions are open (R54). -/
  opened_le : opened.length ≤ 8
  /-- A transaction holds at most 4,096 staged changes (R54). -/
  staged_le : ∀ t ∈ opened, t.staged.length ≤ 4096
  /-- At most four versions are scheduled (R81). -/
  versions_le : versions.length ≤ 4
  /-- Scheduled versions stand in strictly rising order of their wall frames (R81). -/
  versions_rise : framesRise versions = true
  /-- The log holds the newest 4,096 events (R343). -/
  recs_le : recs.length ≤ 4096
  /-- The wall line is one of 4,096 (R67). -/
  line_lt : line < 4096
  /-- Memory is in canonical form (log entry 14). -/
  bytes_wf : bytes.wf 0#8 = true
  /-- The counter table is in canonical form (log entry 12). -/
  counters_wf : counters.wf 0 = true
  /-- Every counter is a 32-bit number (R375). -/
  counters_le : ∀ e ∈ counters, e.2 ≤ 4294967295

/-- A sound state. -/
def State.Sound (s : State) : Prop :=
  SoundParts s.txns.open_ s.splice.versions s.log.recs s.raster.line s.mem.bytes s.counters

/-- A device past its start, without a FIO attempt under way: CONFIGURING, RUNNING, DEGRADED or SAFE (R50). -/
def State.Settled (s : State) : Prop :=
  s.boot.step = 11 ∧ s.clk.fioWait = false ∧ (s.dev = .configuring ∨ s.dev = .running ∨ s.dev = .degraded ∨ s.dev = .safe)

/-- A command that Cleat admits `dt` ticks after state `s` (R39), and the state in which it executes: the idle clock of the
transaction it names restarts (R55). -/
def Runs (k : CmdSpec) (c : CmdHdr) (bad : Option Nat) (dt : Nat) (s a : State) : Prop :=
  (s.advance dt).admission k c bad = .run ∧ a = (s.advance dt).touchTxn c.txn

/-- A run of rows never stops: every row the device is given is answered with a next state. -/
def NeverStops (i : Instr) : Prop := ∀ s : State, ∃ t, exec i s = .next t

/-- Lines `m` of band row `band` that were lines `l` before: each is as it was, or shows the DEAD pattern's stripes (R53, R190); or none waits. -/
def Dims (band : Nat) (l m : List (List Rgb)) : Prop :=
  m = [] ∨ (m.length = l.length ∧ ∀ i, i < l.length →
    (m.getD i [] = l.getD i [] ∨ ∃ pal, m.getD i [] = (List.range (l.getD i []).length).map (fun x => deadPixel pal x (8 * band + i))))

end Sys2Proof.Machine
end

