-- ==== Sys2Proof/WellFormed.lean ====
section
/-! DEFINITION. When an operand of a row fits its place: packet fields their widths (R37, R339), and numbers of heads, ports,
contexts, channels and units their ranges. -/

namespace Sys2Proof

/-- A number that fits `n` bits. -/
def fits (x n : Nat) : Bool := decide (x < 2 ^ n)

/-- A command channel: rings 0 to 15, or the UART (R42, R47). -/
def Channel.wf : Channel → Bool
  | .ring n => decide (n < 16)
  | .uart => true

/-- A packet header whose fields fit (R37). -/
def CmdHdr.wf (c : CmdHdr) : Bool := c.ch.wf && fits c.flags 8 && fits c.tag 16 && fits c.len 32 && fits c.txn 32 && fits c.crcCalc 32

/-- A clock code of CLK_FAIL (R436). -/
def inRangeWf (n : Nat) : Bool := decide (1 ≤ n) && decide (n ≤ 10)

/-- What a wall line 0 observes: twelve sensors, channels, ports and lanes in their ranges (R196, R312, R314, R327). -/
def LineObs.wf (o : LineObs) : Bool :=
  decide (o.temps.length ≤ 12) && decide (o.occs.length ≤ 32) && o.occs.all (fun x => fits x 17) &&
  o.samples.all (fun x => decide (x.1 < 32)) && o.testFails.all (fun e => decide (e.1 < 32) && decide (e.2 < 2)) &&
  o.traffic.all (fun t => decide (t.port < 24)) && o.prbs.all (fun p => decide (p.lane < 96))

/-- The header of a host command; an event has none. -/
def Instr.header : Instr → Option CmdHdr
  | .identify _ c => some c
  | .summary _ c => some c
  | .readLog _ c _ _ => some c
  | .reset _ c => some c
  | .clearStartCount _ c => some c
  | .fwBegin _ c _ => some c
  | .fwData _ c _ _ => some c
  | .fwEnd _ c _ _ _ => some c
  | .fwLoadTimeout _ => none
  | .memConfig _ c _ _ _ => some c
  | .memConfigDone _ => none
  | .paletteProgram _ c _ => some c
  | .txnOpen _ c => some c
  | .txnCommit _ c _ => some c
  | .commitValidated _ => none
  | .txnAbort _ c => some c
  | .objectRead _ c _ _ _ _ => some c
  | .stageDevice _ c _ _ => some c
  | .stageSource _ c _ _ => some c
  | .stageFlow _ c _ _ => some c
  | .stageMac _ c _ _ => some c
  | .stageDprx _ c _ _ => some c
  | .stageContext _ c _ _ => some c
  | .stageHead _ c _ _ => some c
  | .stageWindow _ c _ _ => some c
  | .stageEncoder _ c _ _ => some c
  | .stageGlyphs _ c _ _ => some c
  | .stageGlyphSet _ c _ _ => some c
  | .stageAtlas _ c _ _ => some c
  | .stageColours _ c _ _ => some c
  | .stageScaler _ c _ _ => some c
  | .stageDesk _ c _ _ => some c
  | .stageQuad _ c _ _ => some c
  | .stageDomain _ c _ _ => some c
  | .stagePulse _ c _ _ => some c
  | .stageRegulator _ c _ _ => some c
  | .stageAccess _ c _ _ => some c
  | .surfacePublish _ c _ _ _ _ _ => some c
  | .surfaceCopyDone _ _ _ _ => none
  | .sourceQuery _ c _ _ => some c
  | .encQuery _ c _ _ => some c
  | .pointQuery _ c _ _ => some c
  | .headQuery _ c _ _ _ _ => some c
  | .counterRead _ c _ _ _ => some c
  | .timeAdjust _ c _ _ _ _ => some c
  | .timeSwitch _ c _ => some c
  | .timeStatus _ c _ _ _ => some c
  | .whipSet _ c _ => some c
  | .probeSet _ c _ => some c
  | .laneTest _ c _ _ _ => some c
  | .touchBaseline _ c _ _ => some c
  | .baselineFlashWriteDone _ _ => none
  | .faultQuery _ c _ _ => some c
  | .faultReact _ c _ _ => some c
  | .faultRearm _ c _ => some c
  | .unitRestore _ c _ => some c
  | .unitTestDone _ _ _ => none
  | .debugChallenge _ c => some c
  | .debugUnlock _ c _ => some c
  | .debugChallengeExpiry _ => none
  | .debugLockoutExpiry _ => none
  | .dbProducer _ _ _ _ => none
  | .dbConsumer _ _ _ => none
  | .ringEnable _ _ _ _ _ _ => none
  | .ringDisable _ _ => none
  | .ringErrClear _ _ => none
  | .registerWrite _ _ _ _ => none
  | .bar0StrayWrite _ _ => none
  | .msixModerationExpiry _ _ => none
  | .uartFrameRx _ _ => none
  | .uartGapTimeout _ => none
  | .txnExpired _ _ => none
  | .wallLineStart _ _ => none
  | .rasterStart _ _ => none
  | .ethFrameRx _ _ _ _ _ _ => none
  | .rtpPacketRx _ _ => none
  | .holeClose _ _ _ => none
  | .frameCloseTimeout _ _ => none
  | .pathDown _ _ _ => none
  | .frameSeal _ _ _ => none
  | .dprxFrameStart _ _ _ _ _ => none
  | .dprxLinkLoss _ _ => none
  | .dprxHpdRelease _ _ => none
  | .pointDatagramRx _ _ => none
  | .hostPointSlot _ _ _ _ => none
  | .decodePictureComplete _ _ _ => none
  | .decodeOverrun _ _ _ => none
  | .poolBufferFreed _ _ => none
  | .encodeRowComplete _ _ _ => none
  | .rowLate _ _ _ => none
  | .encTileRowRead _ _ _ _ _ => none
  | .packetLaunch _ _ => none
  | .launchSlip _ _ => none
  | .tileComputed _ _ _ _ _ _ _ => none
  | .strandSwitch _ => none
  | .passComplete _ _ _ => none
  | .strandSelftestDone _ _ _ => none
  | .overlaySurfaceDone _ _ _ => none
  | .overlayWindowEnd _ _ => none
  | .bandRowFetchDone _ _ _ => none
  | .fetchUrgent _ _ _ => none
  | .bandRowEmit _ _ _ _ => none
  | .hpdIrq _ _ => none
  | .hpdUnplug _ _ => none
  | .hpdAsserted _ _ => none
  | .auxReply _ _ _ => none
  | .auxTimeout _ _ => none
  | .trainingSuccess _ _ => none
  | .trainingAttemptFail _ _ => none
  | .trainingAttemptTimeout _ _ => none
  | .trainingRetry _ _ => none
  | .restExitRequest _ _ => none
  | .laneIdleExit _ _ => none
  | .quadPllLock _ _ => none
  | .quadPllLockTimeout _ _ => none
  | .quadPllUnlock _ _ => none
  | .cdrLoss _ _ => none
  | .ptpSyncRx _ _ => none
  | .followUpRx _ _ => none
  | .announceRx _ _ => none
  | .delayRespRx _ _ => none
  | .delayReqTx _ _ => none
  | .mgmtDiscard _ _ => none
  | .syncTimeout _ _ => none
  | .announceTimeout _ _ _ => none
  | .holdoverExpiry _ _ => none
  | .tpiEdge _ _ _ => none
  | .tpoPulse _ _ => none
  | .sampleInstantRx _ _ _ _ => none
  | .thimbleMessageRx _ _ _ _ => none
  | .touchFrameMeasured _ _ _ _ _ => none
  | .deskBlockLock _ _ => none
  | .deskInfoReadDone _ _ _ => none
  | .deskStartTimeout _ _ => none
  | .deskLinkLoss _ _ => none
  | .refresh _ => none
  | .mr4Poll _ _ => none
  | .regulatorRelease _ _ _ _ => none
  | .class2Promotion _ _ => none
  | .whipCheckDone _ _ _ => none
  | .faultSourceFire _ _ => none
  | .processorWdogExpiry _ _ => none
  | .watchdogKick _ _ => none
  | .bowlineWdog _ => none
  | .bowlineLockstep _ => none
  | .collector _ => none
  | .por _ => none
  | .railExcursion _ _ => none
  | .resetNAssert _ => none
  | .resetNRelease _ => none
  | .perstN _ => none
  | .fuseLoadDone _ _ _ => none
  | .clockStable _ _ => none
  | .clockJudgeTimeout _ _ _ => none
  | .clockMonitorFail _ _ => none
  | .fioRetry _ => none
  | .imageLoaded _ _ => none
  | .memTrainingDone _ _ => none
  | .bootComplete _ => none
  | .startTimeout _ => none
  | .failedStartReset _ => none
  | .pwrFailAssert _ => none
  | .pwrFailRelease _ => none
  | .lastGaspWriteDone _ => none
  | .extest _ => none
  | .samplePreload _ _ => none
  | .idcode _ => none
  | .clamp _ => none
  | .highz _ => none
  | .dbgAccess _ _ => none
  | .dbgTrace _ _ _ => none
  | .dbgHalt _ _ _ => none
  | .bypass _ => none
  | .trstN _ => none
  | .ethLinkDown _ _ => none
  | .ethBlockLock _ _ => none
  | .dprxSymbolLock _ _ => none
  | .dprxAuxRequest _ _ _ _ => none
  | .scrub _ _ _ => none
  | .supplyResetRelease _ => none
  | .paletteProgramDone _ _ => none
  | .fwDataDone _ => none
  | .processorRestartDone _ _ => none

/-- Whether the operands of a row fit their places. -/
def Instr.wf : Instr → Bool
  | .identify _ c => c.wf
  | .summary _ c => c.wf
  | .readLog _ c logFrom max => c.wf && fits logFrom 64 && fits max 32
  | .reset _ c => c.wf
  | .clearStartCount _ c => c.wf
  | .fwBegin _ c size => c.wf && fits size 32
  | .fwData _ c offset _ => c.wf && fits offset 32
  | .fwEnd _ c _ imgSeq version => c.wf && fits imgSeq 32 && fits version 32
  | .fwLoadTimeout _ => true
  | .memConfig _ c grain hash checkInit => c.wf && fits grain 8 && fits hash 8 && fits checkInit 8
  | .memConfigDone _ => true
  | .paletteProgram _ c words => c.wf && decide (words.length = 11) && words.all (fun w => fits w 32)
  | .txnOpen _ c => c.wf
  | .txnCommit _ c frame => c.wf && fits frame 64
  | .commitValidated _ => true
  | .txnAbort _ c => c.wf
  | .objectRead _ c opcode view id count => c.wf && fits opcode 16 && fits view 8 && fits id 32 && fits count 32
  | .stageDevice _ c id _ => c.wf && fits id 32
  | .stageSource _ c id _ => c.wf && fits id 32
  | .stageFlow _ c id _ => c.wf && fits id 32
  | .stageMac _ c id _ => c.wf && fits id 32
  | .stageDprx _ c id _ => c.wf && fits id 32
  | .stageContext _ c id _ => c.wf && fits id 32
  | .stageHead _ c id _ => c.wf && fits id 32
  | .stageWindow _ c id _ => c.wf && fits id 32
  | .stageEncoder _ c id _ => c.wf && fits id 32
  | .stageGlyphs _ c first os => c.wf && fits first 32 && os.all (fun g => fits g.point 32)
  | .stageGlyphSet _ c id _ => c.wf && fits id 32
  | .stageAtlas _ c first masks => c.wf && fits first 32 && masks.all (fun m => decide (m.length = 512))
  | .stageColours _ c id colours => c.wf && fits id 32 && colours.all (fun w => fits w 32)
  | .stageScaler _ c id _ => c.wf && fits id 32
  | .stageDesk _ c id _ => c.wf && fits id 32
  | .stageQuad _ c id _ => c.wf && fits id 32
  | .stageDomain _ c id _ => c.wf && fits id 32
  | .stagePulse _ c id _ => c.wf && fits id 32
  | .stageRegulator _ c id _ => c.wf && fits id 32
  | .stageAccess _ c id _ => c.wf && fits id 32
  | .surfacePublish _ c source flags pitch hostAddr capture => c.wf && fits source 16 && fits flags 8 && fits pitch 32 && fits hostAddr 64 && fits capture 64
  | .surfaceCopyDone _ source _ _ => decide (source < 1024)
  | .sourceQuery _ c source count => c.wf && fits source 16 && fits count 8
  | .encQuery _ c ctx count => c.wf && fits ctx 16 && fits count 8
  | .pointQuery _ c first count => c.wf && fits first 32 && fits count 16
  | .headQuery _ c head sect offset length => c.wf && fits head 8 && fits sect 8 && fits offset 32 && fits length 32
  | .counterRead _ c block flags inst => c.wf && fits block 8 && fits flags 8 && fits inst 16
  | .timeAdjust _ c domain flags incr offset => c.wf && fits domain 8 && fits flags 8 && fits incr 64 && decide (offset.natAbs ≤ 2 ^ 63)
  | .timeSwitch _ c domain => c.wf && fits domain 8
  | .timeStatus _ c sect sel start => c.wf && fits sect 8 && fits sel 8 && fits start 32
  | .whipSet _ c p => c.wf && fits p.unit 8 && fits p.mode 8 && fits p.addr 64 && fits p.len 32
  | .probeSet _ c p => c.wf && fits p.group 8 && fits p.probe 8 && fits p.mode 8 && fits p.expect 32
  | .laneTest _ c lane flags ctrl => c.wf && fits lane 8 && fits flags 8 && fits ctrl 32
  | .touchBaseline _ c desk op => c.wf && fits desk 8 && fits op 8
  | .baselineFlashWriteDone _ desk => decide (desk < 16)
  | .faultQuery _ c first count => c.wf && fits first 16 && fits count 16
  | .faultReact _ c source mask => c.wf && fits source 16 && fits mask 8
  | .faultRearm _ c classes => c.wf && fits classes 8
  | .unitRestore _ c unit => c.wf && fits unit 16
  | .unitTestDone _ unit _ => decide (unit < 128)
  | .debugChallenge _ c => c.wf
  | .debugUnlock _ c _ => c.wf
  | .debugChallengeExpiry _ => true
  | .debugLockoutExpiry _ => true
  | .dbProducer _ ring index _ => decide (ring < 19) && fits index 32
  | .dbConsumer _ ring index => decide (ring < 18) && fits index 32
  | .ringEnable _ ring size cplSize msixVec modUs => decide (ring < 19) && decide (size ≤ 15) && decide (cplSize ≤ 15) && decide (msixVec < 64) && fits modUs 16
  | .ringDisable _ ring => decide (ring < 19)
  | .ringErrClear _ ring => decide (ring < 19)
  | .registerWrite _ ring reg value => decide (ring < 19) && fits reg 12 && fits value 64
  | .bar0StrayWrite _ addr => fits addr 21
  | .msixModerationExpiry _ ring => decide (ring < 19)
  | .uartFrameRx _ _ => true
  | .uartGapTimeout _ => true
  | .txnExpired _ id => fits id 32
  | .wallLineStart _ obs => obs.wf
  | .rasterStart _ obs => obs.wf
  | .ethFrameRx _ mac _ _ _ _ => decide (mac < 8)
  | .rtpPacketRx _ p => decide (p.mac < 8) && fits p.seq 32 && fits p.ts 32
  | .holeClose _ flow _ => decide (flow < 1024)
  | .frameCloseTimeout _ flow => decide (flow < 1024)
  | .pathDown _ flow path => decide (flow < 1024) && decide (path < 2)
  | .frameSeal _ source _ => decide (source < 1024)
  | .dprxFrameStart _ port _ _ _ => decide (port < 16)
  | .dprxLinkLoss _ port => decide (port < 16)
  | .dprxHpdRelease _ port => decide (port < 16)
  | .pointDatagramRx _ d => decide (d.mac < 8) && decide (d.payload.length ≤ 9216)
  | .hostPointSlot _ count rsv recs => fits count 16 && decide (rsv.length = 14) && decide (recs.length = 48)
  | .decodePictureComplete _ engine _ => decide (engine < 8)
  | .decodeOverrun _ engine _ => decide (engine < 8)
  | .poolBufferFreed _ ctx => decide (ctx < 256)
  | .encodeRowComplete _ ctx _ => decide (ctx < 32)
  | .rowLate _ ctx _ => decide (ctx < 32)
  | .encTileRowRead _ ctx region row _ => decide (ctx < 32) && decide (region < 16) && decide (row < 128)
  | .packetLaunch _ mac => decide (mac < 8)
  | .launchSlip _ mac => decide (mac < 8)
  | .tileComputed _ head row _ _ _ _ => decide (head < 32) && decide (row < 128)
  | .strandSwitch _ => true
  | .passComplete _ head row => decide (head < 32) && decide (row < 128)
  | .strandSelftestDone _ strand _ => decide (strand < 2)
  | .overlaySurfaceDone _ head _ => decide (head < 32)
  | .overlayWindowEnd _ head => decide (head < 32)
  | .bandRowFetchDone _ head band => decide (head < 32) && decide (band < 1024)
  | .fetchUrgent _ head band => decide (head < 32) && decide (band < 1024)
  | .bandRowEmit _ head band _ => decide (head < 32) && decide (band < 1024)
  | .hpdIrq _ head => decide (head < 32)
  | .hpdUnplug _ head => decide (head < 32)
  | .hpdAsserted _ head => decide (head < 32)
  | .auxReply _ head _ => decide (head < 32)
  | .auxTimeout _ head => decide (head < 32)
  | .trainingSuccess _ r => decide (r.head < 32) && r.presets.all (fun p => decide (p < 16))
  | .trainingAttemptFail _ head => decide (head < 32)
  | .trainingAttemptTimeout _ head => decide (head < 32)
  | .trainingRetry _ head => decide (head < 32)
  | .restExitRequest _ lane => decide (lane < 96)
  | .laneIdleExit _ lane => decide (lane < 96)
  | .quadPllLock _ quad => decide (quad < 24)
  | .quadPllLockTimeout _ quad => decide (quad < 24)
  | .quadPllUnlock _ quad => decide (quad < 24)
  | .cdrLoss _ lane => decide (lane < 96)
  | .ptpSyncRx _ m => decide (m.mac < 8) && decide (m.domainNum < 128)
  | .followUpRx _ m => decide (m.mac < 8) && decide (m.domainNum < 128)
  | .announceRx _ m => decide (m.mac < 8) && decide (m.domainNum < 128)
  | .delayRespRx _ m => decide (m.mac < 8) && decide (m.domainNum < 128)
  | .delayReqTx _ domain => decide (domain < 2)
  | .mgmtDiscard _ domain => decide (domain < 2)
  | .syncTimeout _ domain => decide (domain < 2)
  | .announceTimeout _ domain _ => decide (domain < 2)
  | .holdoverExpiry _ domain => decide (domain < 2)
  | .tpiEdge _ input _ => decide (input < 2)
  | .tpoPulse _ output => decide (output < 4)
  | .sampleInstantRx _ desk count b => decide (desk < 16) && fits count 24 && fits b.crc 32
  | .thimbleMessageRx _ desk _ _ => decide (desk < 16)
  | .touchFrameMeasured _ desk _ _ _ => decide (desk < 16)
  | .deskBlockLock _ desk => decide (desk < 16)
  | .deskInfoReadDone _ desk _ => decide (desk < 16)
  | .deskStartTimeout _ desk => decide (desk < 16)
  | .deskLinkLoss _ desk => decide (desk < 16)
  | .refresh _ => true
  | .mr4Poll _ _ => true
  | .regulatorRelease _ port _ _ => decide (port < 24)
  | .class2Promotion _ channel => decide (channel < 32)
  | .whipCheckDone _ unit _ => decide (unit < 56)
  | .faultSourceFire _ f => decide (f.source < 256)
  | .processorWdogExpiry _ proc => decide (proc < 10)
  | .watchdogKick _ proc => decide (proc < 10)
  | .bowlineWdog _ => true
  | .bowlineLockstep _ => true
  | .collector _ => true
  | .por _ => true
  | .railExcursion _ rail => decide (rail < 12)
  | .resetNAssert _ => true
  | .resetNRelease _ => true
  | .perstN _ => true
  | .fuseLoadDone _ badBlocks _ => badBlocks.all (fun b => decide (b < 8))
  | .clockStable _ c => inRangeWf c.clock
  | .clockJudgeTimeout _ clock _ => inRangeWf clock
  | .clockMonitorFail _ c => inRangeWf c.clock && decide (c.counts.length ≤ 2)
  | .fioRetry _ => true
  | .imageLoaded _ bad => bad.all (fun n => decide (n < 3))
  | .memTrainingDone _ failed => failed.all (fun c => decide (c < 32))
  | .bootComplete _ => true
  | .startTimeout _ => true
  | .failedStartReset _ => true
  | .pwrFailAssert _ => true
  | .pwrFailRelease _ => true
  | .lastGaspWriteDone _ => true
  | .extest _ => true
  | .samplePreload _ _ => true
  | .idcode _ => true
  | .clamp _ => true
  | .highz _ => true
  | .dbgAccess _ a => fits a.addr 64 && decide (a.data.length ≤ a.len)
  | .dbgTrace _ base size => fits base 64 && fits size 64
  | .dbgHalt _ _ proc => decide (proc ≤ 10)
  | .bypass _ => true
  | .trstN _ => true
  | .ethLinkDown _ mac => decide (mac < 8)
  | .ethBlockLock _ mac => decide (mac < 8)
  | .dprxSymbolLock _ port => decide (port < 16)
  | .dprxAuxRequest _ port _ _ => decide (port < 16)
  | .scrub _ channel _ => decide (channel < 32)
  | .supplyResetRelease _ => true
  | .paletteProgramDone _ _ => true
  | .fwDataDone _ => true
  | .processorRestartDone _ proc => decide (proc < 10)

end Sys2Proof
end

