-- ==== Sys2Proof/Certificates/Slice0/Obligations.lean ====
section
/-! DEFINITION. The statements about the model: what each family of rows does, by the rules of spec/, and what holds of the whole
machine. -/

open Sys2Proof Sys2Proof.Machine

/-! ### The queue, time, and the whole machine -/

/-- A step runs the row at the front of the queue, on the state that holds the rest of the queue. With an empty queue a step is one TIME
tick and nothing else: that is the model's choice (log entry 3). -/
def Obligations.StepTakesFront : Prop :=
  ∀ s : State,
    (∀ (c : Instr) (rest : List Instr), step { s with pending := c :: rest } = exec c { s with pending := rest }) ∧
    (s.pending = [] →
      step s = .next (s.advance 1) ∧ (s.advance 1).time.upTicks = s.time.upTicks + 1 ∧ { s.advance 1 with time := s.time } = s)

/-- Every row is answered with a next state, whatever the state: the model stops on no row (log entry 2). No row's effect reaches the
queue, and the count of TIME ticks rises by the row's first operand and by nothing else (log entry 1). -/
def Obligations.EveryRowAnswers : Prop :=
  ∀ i : Instr, NeverStops i ∧
    ∀ s t : State, exec i s = .next t → t.pending = s.pending ∧ t.time.upTicks = s.time.upTicks + i.ticks

/-- The state held in power-on reset is sound. -/
def Obligations.SoundAtReset : Prop := State.Sound State.reset

/-- Every step keeps soundness: at most eight open transactions, each with at most 4,096 staged changes; at most four scheduled
versions, in rising order of their wall frames; at most 4,096 logged events; a wall line below 4,096; memory and counters in
canonical form; and counters of 32 bits. -/
def Obligations.SoundKept : Prop := ∀ s t : State, s.Sound → step s = .next t → t.Sound

/-- The wall position moves only as R67 numbers it: while the raster runs, only WALL_LINE_START moves it, and only to the
next wall line; a raster that stands is started by RASTER_START alone, at wall line 0. -/
def Obligations.WallPosition : Prop :=
  ∀ (i : Instr) (s t : State), exec i s = .next t → t.raster.run = true →
    (s.raster.run = true ∧ t.raster.frame = s.raster.frame ∧ t.raster.line = s.raster.line) ∨
    (∃ dt o, i = .wallLineStart dt o ∧ s.raster.run = true ∧ (t.raster.frame, t.raster.line) =
      if s.raster.line = 4095 then (s.raster.frame + 1, 0) else (s.raster.frame, s.raster.line + 1)) ∨
    (∃ dt o, i = .rasterStart dt o ∧ s.raster.run = false ∧ t.raster.line = 0)

/-- What fuses hold for good: the field lock, the die identity, and the factory's pin map and palette stand for ever, and a
blown customer palette stays blown. -/
def Obligations.FusesLast : Prop :=
  ∀ s t : State, step s = .next t →
    t.fuses.fieldLocked = s.fuses.fieldLocked ∧ t.fuses.dieId = s.fuses.dieId ∧ t.fuses.pinFactory = s.fuses.pinFactory ∧
    t.fuses.paletteFactory = s.fuses.paletteFactory ∧ (s.fuses.paletteProgrammed = true → t.fuses.paletteProgrammed = true)

/-- A device that has started stays in CONFIGURING, RUNNING, DEGRADED or SAFE until a reset or a power loss begins its start
anew, and SAFE is left in no other way (the transitions of R50, closed under every row). -/
def Obligations.SafeHolds : Prop :=
  ∀ s t : State, s.Settled → step s = .next t → (t.Settled ∧ (s.dev = .safe → t.dev = .safe)) ∨ t.boot.step ≤ 2

/-- A head emits source content only in LIVE (R3). Whatever the row, the lines that a head has on its way are none, or those that it had
before (of which some may have turned to the DEAD pattern), or those of the band row that BAND_ROW_EMIT sends: that row is then the
head's next one, in a head that is neither DOWN nor in TRAINING. Its pixels `p` are judged content only where the head is LIVE, its band row is in the
line buffer, the device is not in SAFE and the head's unit is not fenced; in every other case each of them is a pattern of the hardware:
DEAD, the STARTING pattern, or the abort colour. The head table stays in canonical form. -/
def Obligations.ContentOnlyLive : Prop :=
  ∀ (i : Instr) (s t : State), s.heads.wf {} = true → exec i s = .next t → t.heads.wf {} = true ∧
    ∀ h : Nat,
      (t.headRt h).lit = [] ∨
      ((t.headRt h).glassBand = (s.headRt h).glassBand ∧ Dims (s.headRt h).glassBand (s.headRt h).lit (t.headRt h).lit) ∨
      ∃ dt j o u x p, i = .bandRowEmit dt h j o ∧ u = ((s.advance dt).ownFrame h j).passLines h ∧ x = u.headRt h ∧ j = x.emitted ∧
        (t.headRt h).glassBand = j ∧
        Dims j ((bandLines x.cfg j).map (fun y => (List.range x.cfg.hActive).map (fun z => p z y))) (t.headRt h).lit ∧
        x.state ≠ .down ∧ x.state ≠ .training ∧
        ((x.state = .live ∧ bandKey x.frame x.half j ∈ x.fetched ∧ u.dev ≠ .safe ∧ u.isFenced (46 + h / 8) = false) ∨
          ((u.dev = .safe ∨ u.isFenced (46 + h / 8) = true) ∧ p = deadPixel u.boot.palette) ∨
          (x.state = .starting ∧ p = startingPixel u.boot.palette h x.n) ∨
          ((x.state = .live ∨ x.state = .aborted) ∧ p = fun _ _ => paletteAt u.boot.palette 5))

/-! ### Commands and replies -/

/-- Cleat checks a command in the order of R39 and answers with the first check that fails: the check value, the transport
limit, the layout's length, the header's flags, reserved fields and parameter ranges, a busy device, the device state, and the
transaction. A command that passes them all runs. -/
def Obligations.AdmissionOrder : Prop :=
  ∀ (s : State) (k : CmdSpec) (c : CmdHdr) (bad : Option Nat),
    s.cleatRuns = true → s.channelOpen c.ch = true → s.channelHeld c.ch = false → s.validating c.txn = false →
    ∀ checks : List (Bool × Admit),
      checks =
        [(!c.crcOk, .refuse .eCrc c.crcCalc),
         (decide (lenLimit c.ch < c.len), .refuse .eLength (lenLimit c.ch)),
         (decide (c.len ≠ k.len ∨ c.len % 4 ≠ 0), .refuse .eLength k.len),
         (decide (c.flags % 2 = 1 ∨ 4 ≤ c.flags), .refuse .eParam 0x8000000000000002),
         (c.rsvAt.isSome && bad.isSome, .refuse .eParam (min (c.rsvAt.getD 0) (bad.getD 0))),
         (c.rsvAt.isSome, .refuse .eParam (c.rsvAt.getD 0)),
         (bad.isSome, .refuse .eParam (bad.getD 0)),
         (c.busy || (s.bg.memConfig.isSome && !k.exempt), .refuse .eBusy 0),
         (!k.legal.testBit s.dev.code, .refuse .eState 0),
         (!s.txnOk k.txn c.txn, .refuse .eTxn 0)] →
      s.admission k c bad = ((checks.find? (fun x : Bool × Admit => x.1)).map (fun x : Bool × Admit => x.2)).getD .run

/-- A host command that the checks of R39 turn away has no effect but its reply and the restart of the idle clock of the
transaction it names (R40, R55); one that has to wait leaves everything as it is. Said of every command row at once. -/
def Obligations.RefusalOnlyReplies : Prop :=
  ∀ (i : Instr) (c : CmdHdr) (k : CmdSpec) (s : State), i.header = some c → i.spec = some k →
    ((s.advance i.ticks).admission k c none = .wait → exec i s = .next (s.advance i.ticks)) ∧
    (∀ st d, (s.advance i.ticks).admission k c none = .refuse st d →
      ∃ st' d', (st' = st ∧ d' = d ∨ st' = .eParam) ∧
        exec i s = .next ((if c.crcOk then (s.advance i.ticks).touchTxn c.txn else s.advance i.ticks).refuse k c st' d'))

/-- A reply changes nothing but the rings and what has left the device, and carries the header's echo, the device state, the
generation and the status of R38. On the UART its bytes leave at once, framed (R47). On a ring its bytes go to the slots of the
completion ring in host memory (R42) where that ring has room and no earlier reply waits; otherwise it is held and CPL_FULL is set; a
ring that does not run takes nothing. QUIET suppresses a reply with status OK (R37). -/
def Obligations.ReplyEffect : Prop :=
  ∀ (s t : State) (op : Nat) (c : CmdHdr) (st : Status) (legal detail : Nat) (data : ReplyData) (len : Nat) (r : Reply),
    t = s.reply op c st legal detail data len →
    r = { ch := c.ch, opcode := op, tag := c.tag, txn := c.txn, status := st, devState := s.dev.code, legalStates := legal,
          generation := s.snap.generation, detail := detail, data := data, len := len } →
    { t with rings := s.rings, out := s.out } = s ∧
    (c.flags.testBit 1 = true → st = .ok → t = s) ∧
    ((c.flags.testBit 1 = false ∨ st ≠ .ok) →
      (c.ch = .uart → t = { s with out := { s.out with replies := r :: s.out.replies, uartSent := uartFraming (replyBytes r) :: s.out.uartSent } }) ∧
      (∀ n, c.ch = .ring n →
        ((s.ring n).runs = false → t = s) ∧
        ((s.ring n).runs = true → (s.ring n).held = [] → (s.ring n).unread + packetSlots (24 + len) ≤ (s.ring n).cplSlots →
          t.out.replies = r :: s.out.replies ∧ (t.ring n).wbProducer = ((s.ring n).wbProducer + packetSlots (24 + len)) % 4294967296 ∧
          ∀ i < packetSlots (24 + len),
            ((s.ring n).slotAddr n ((s.ring n).wbProducer + i), inSlots 1 ((replyBytes r).drop (64 * i))) ∈ t.out.hostWrites) ∧
        ((s.ring n).runs = true → ((s.ring n).held ≠ [] ∨ (s.ring n).cplSlots < (s.ring n).unread + packetSlots (24 + len)) →
          t.out = s.out ∧ (t.ring n).held = (s.ring n).held ++ [r] ∧ (t.ring n).cplFull = true)))

/-- An event takes the next EVT_SEQ and stands in front of the log of 4,096 events; where ring 16 runs and has a slot, its bytes go to
that slot in host memory; otherwise it is counted as lost (R59, R60). Nothing but the log, the rings and what has left the device
changes. -/
def Obligations.EventEffect : Prop :=
  ∀ (s t : State) (code subject data : Nat) (e : Event), t = s.event code subject data →
    e = { seq := s.log.next, frame := s.raster.frame, line := s.raster.line, code := code, subject := subject, data := data } →
    { t with log := s.log, rings := s.rings, out := s.out } = s ∧
    t.log.next = s.log.next + 1 ∧ t.log.recs = (e :: s.log.recs).take 4096 ∧
    ((s.ring 16).runs = true → (s.ring 16).unread < (s.ring 16).slots →
      t.out.events = e :: s.out.events ∧ t.log.lost = s.log.lost ∧
      ((s.ring 16).slotAddr 16 (s.ring 16).wbProducer, inSlots 1 (eventBytes e)) ∈ t.out.hostWrites) ∧
    (((s.ring 16).runs = false ∨ (s.ring 16).slots ≤ (s.ring 16).unread) →
      t.out = s.out ∧ t.log.lost = s.log.lost + 1 ∧ (s.log.lost = 0 → t.log.firstLost = e.seq))

/-- A counter saturates at 2^32 − 1, and no other counter moves with it (R375). -/
def Obligations.CounterSaturates : Prop :=
  ∀ (s : State) (block inst idx n block' inst' idx' : Nat), s.Sound → inst < 65536 → idx < 256 → inst' < 65536 → idx' < 256 →
    (s.count block inst idx n).counter block inst idx = min (s.counter block inst idx + n) 4294967295 ∧
    ((block', inst', idx') ≠ (block, inst, idx) → (s.count block inst idx n).counter block' inst' idx' = s.counter block' inst' idx') ∧
    { s.count block inst idx n with counters := s.counters } = s

/-! ### Device, firmware and memory commands -/

/-- IDENTIFY answers with the part, the running firmware and the boot identity (R342); SUMMARY with the latest snapshot, or, until
the raster's first wall line 0, with one taken now under a new generation and with zero wall fields (R62); READ_LOG with the
oldest logged events from a sequence on, cut to what one reply holds (R343); CLEAR_START_COUNT zeroes the start count (R344). -/
def Obligations.DeviceCommands : Prop :=
  ∀ (dt : Nat) (c : CmdHdr) (s a : State),
    (Runs specIdentify c none dt s a →
      exec (.identify dt c) s = .next (a.ok specIdentify c (.words (([0x5796, 0xB1, if a.fuses.fieldLocked then 1 else 0, 1, a.boot.fwVersion,
        a.boot.fwSlot, a.bk.strapChoice, a.fuses.dieId, a.bk.bootId] : List Int) ++
        [79, 87, 57, 54, 45, 73, if a.fuses.fieldLocked then 70 else 79, 45, 66, 49, 0, 0, 0, 0, 0, 0])) 64)) ∧
    (Runs specSummary c none dt s a →
      (a.raster.started = true → exec (.summary dt c) s = .next (a.ok specSummary c (.summary a.snap) 2560)) ∧
      (a.raster.started = false → ∃ x, x.generation = a.generation + 1 ∧ x.wallFrame = 0 ∧ x.wallLine = 0 ∧ x.core = a.snapCore ∧
        exec (.summary dt c) s = .next (State.ok specSummary c (.summary x) 2560
          { a with snap := x, generation := x.generation, mirror := { a.mirror with snapCount := a.mirror.snapCount + 2, snap := x } }))) ∧
    (∀ start max recs, Runs specReadLog c none dt s a → 1 ≤ max → max ≤ 2046 →
      recs = (a.log.recs.reverse.filter (fun e => decide (start ≤ e.seq))).take (min max (a.fits c.ch 16 32)) →
      exec (.readLog dt c start max) s = .next (a.ok specReadLog c
        (.events (match recs with | [] => a.log.next | e :: _ => e.seq) recs.length recs) (16 + 32 * recs.length))) ∧
    (Runs specClearStartCount c none dt s a →
      ∃ b : State, exec (.clearStartCount dt c) s = .next (b.ok specClearStartCount c .empty 0) ∧ b.bk = { a.bk with startCount := 0 } ∧
        { b with bk := a.bk, flash := a.flash, out := a.out } = a ∧ (a.flash.fitted = false → b.flash = a.flash ∧ b.out = a.out) ∧
        (a.flash.fitted = true → ∃ r, r.count = 0 ∧ b.flash = { a.flash with startRec := some r } ∧
          b.out = { a.out with flash := (startRecAt r.seq, startRecBytes r) :: a.out.flash }))

/-- RESET replies and, once its reply is written, resets the chip: the device is STARTING at step 2 of its start, RESET_CAUSE records the
command, and every transaction, version, event, counter and fault record is gone (R51, R423). The boot identity, retained memory, the
fuses and locked access entries stay, and vector 63 follows the reply (R46). On the UART, and on a ring that takes the reply, that is
at once; where the completion ring cannot take it, the reset waits for it. -/
def Obligations.ResetCommand : Prop :=
  ∀ (dt : Nat) (c : CmdHdr) (s a : State), Runs specReset c none dt s a →
    ∃ u t : State, u = a.ok specReset c .empty 0 ∧ exec (.reset dt c) s = .next t ∧
      (∀ n, c.ch = .ring n → (u.ring n).held ≠ [] → t = { u with bg := { u.bg with resetDue := some n } }) ∧
      ((c.ch = .uart ∨ ∃ n, c.ch = .ring n ∧ (u.ring n).held = []) →
      t.dev = .starting ∧ t.boot.step = 2 ∧ t.boot.afterPor = false ∧ t.bk = { a.bk with resetCause := .command } ∧
      t.txns = {} ∧ t.splice = {} ∧ t.log = {} ∧ t.counters = [] ∧ t.flt = {} ∧ t.raster = {} ∧ t.heads = [] ∧ t.rings = [] ∧
      t.mem = {} ∧ t.auth = {} ∧ t.dbg.halted = [] ∧ t.mirror.devState = 1 ∧ t.lay = { access := a.lay.access.filter (fun e => e.2.lock) } ∧
      t.fuses = { a.fuses with committed := false } ∧ t.ret = a.ret ∧
      t.out = { u.out with msix := if a.dev = .starting then u.out.msix else 63 :: u.out.msix })

/-- A firmware load (R345): FW_BEGIN opens the one load and voids its slot; FW_DATA takes the blocks in order and is answered once
its write ends; FW_END validates the slot where the image verifies, and voids it otherwise; and a load left idle is abandoned with
its slot void. -/
def Obligations.FirmwareLoad : Prop :=
  ∀ (dt : Nat) (c : CmdHdr) (s a : State),
    (∀ size, Runs specFwBegin c none dt s a → size % 4 = 0 → size ≤ 8388608 →
      (a.fw.open_ = true → exec (.fwBegin dt c size) s = .next (a.refuse specFwBegin c .eBusy 0)) ∧
      (a.fw.open_ = false → exec (.fwBegin dt c size) s = .next (State.ok specFwBegin c (.words [a.fwTarget]) 4
        { a.voidSlot a.fwTarget with fw := { open_ := true, slot := a.fwTarget, size := size, received := 0, data := [], idleFrom := a.time.upTicks } }))) ∧
    (∀ offset data, Runs (specFwData data.length) c none dt s a →
      (a.fw.open_ = false → exec (.fwData dt c offset data) s = .next (a.refuse (specFwData data.length) c .eNotFound 0)) ∧
      (a.fw.open_ = true → offset = a.fw.received → a.fw.received + data.length ≤ a.fw.size → exec (.fwData dt c offset data) s = .next
        { a with fw := { a.fw with idleFrom := a.time.upTicks, received := offset + data.length, data := a.fw.data ++ data },
                 bg := { a.bg with fwData := a.bg.fwData ++ [c] } })) ∧
    (∀ verifies q v, Runs specFwEnd c none dt s a →
      (a.fw.open_ = false → exec (.fwEnd dt c verifies q v) s = .next (a.refuse specFwEnd c .eNotFound 0)) ∧
      (a.fw.open_ = true → a.fw.slot ≠ 2 → a.fw.received = a.fw.size → verifies = true →
        exec (.fwEnd dt c verifies q v) s = .next (State.ok specFwEnd c (.words [a.fw.slot, q]) 4
          { a with fw := {}, flash := a.flash.setSlot a.fw.slot { valid := true, seq := q, version := v } })) ∧
      (a.fw.open_ = true → (a.fw.received ≠ a.fw.size ∨ verifies = false) →
        exec (.fwEnd dt c verifies q v) s = .next (State.refuse specFwEnd c .eAuth 0 { a.voidSlot a.fw.slot with fw := {} }))) ∧
    (s.fw.open_ = true → exec (.fwLoadTimeout dt) s = .next { (s.advance dt).voidSlot s.fw.slot with fw := {} }) ∧
    (∀ rest, s.procDown 0 = false → s.procDown 1 = false → s.bg.fwData = c :: rest →
      exec (.fwDataDone dt) s = .next (State.ok (specFwData (c.len - 4)) c .empty 0 { s.advance dt with bg := { s.bg with fwData := rest } }).drain)

/-- MEM_CONFIG runs in the background where no set defines a source or enables a head, and its end zero-fills memory under the new
map (R292, R346). PALETTE_PROGRAM blows the customer palette once, while VDD_FUSE is present (R183, R347). -/
def Obligations.MemoryAndPalette : Prop :=
  ∀ (dt : Nat) (c : CmdHdr) (s a : State),
    (∀ grain hash check, Runs specMemConfig c none dt s a → grain ≤ 8 → hash ≤ 1 → check ≤ 1 → (check = 1 ∨ a.fuses.fieldLocked = false) →
      (a.definesNow = true → exec (.memConfig dt c grain hash check) s = .next (a.refuse specMemConfig c .eState 0)) ∧
      (a.definesNow = false → exec (.memConfig dt c grain hash check) s = .next { a with bg := { a.bg with memConfig := some (c, grain, hash, check) } })) ∧
    (∀ grain hash check, s.procDown 0 = false → s.procDown 1 = false → s.bg.memConfig = some (c, grain, hash, check) →
      ∃ z : State, exec (.memConfigDone dt) s = .next (State.ok specMemConfig c .empty 0 z).drain ∧ z.bg.memConfig = none ∧
        z.mem.grain = grain ∧ z.mem.hash = decide (hash = 1) ∧ z.mem.checkInit = decide (check = 1) ∧
        (∀ e ∈ z.mem.bytes, inMemory e.1 = false) ∧
        { z with bg := (s.advance dt).bg, mem := (s.advance dt).mem, ing := (s.advance dt).ing } = s.advance dt) ∧
    (∀ words, Runs specPalette c (paletteBad words) dt s a →
      (a.fuses.paletteProgrammed = true → exec (.paletteProgram dt c words) s = .next (a.refuse specPalette c .eLocked 0)) ∧
      (a.fuses.paletteProgrammed = false → (a.pins.vddFuse = false ∨ a.bg.palette.isSome = true) →
        exec (.paletteProgram dt c words) s = .next (a.refuse specPalette c .eBusy 0)) ∧
      (a.fuses.paletteProgrammed = false → a.pins.vddFuse = true → a.bg.palette = none →
        exec (.paletteProgram dt c words) s = .next { a with bg := { a.bg with palette := some (c, words) } })) ∧
    (∀ words, s.procDown 0 = false → s.procDown 1 = false → s.bg.palette = some (c, words) → s.fuses.paletteBad = false →
      exec (.paletteProgramDone dt true) s = .next (State.ok specPalette c .empty 0
        { s.advance dt with bg := { s.bg with palette := none },
                            fuses := { s.fuses with paletteProgrammed := true, paletteCustomer := words, paletteBad := false } }).drain)

/-! ### Transactions and staging -/

/-- TXN_OPEN opens one of at most eight transactions under the next identity; TXN_ABORT closes the one named; TXN_COMMIT has it
validated in the background; and a transaction that has reached its idle limit by wall line 0 expires there with its event (R54, R55,
R78, R348). -/
def Obligations.TransactionCommands : Prop :=
  ∀ (dt : Nat) (c : CmdHdr) (s a : State),
    (Runs specTxnOpen c none dt s a →
      (8 ≤ a.txns.open_.length → exec (.txnOpen dt c) s = .next (a.refuse specTxnOpen c .eTxnLimit 8)) ∧
      (a.txns.open_.length < 8 → ∃ b : State, exec (.txnOpen dt c) s = .next (b.ok specTxnOpen c (.words [(a.txns.next : Int)]) 4) ∧
        b.txns.next = a.txns.next + 1 ∧
        b.txns.open_ = a.txns.open_ ++ [{ id := a.txns.next, channel := c.ch, staged := [], lastFrame := a.raster.frame, lastTick := a.time.upTicks }] ∧
        (∃ r : CommitRec, b.ret.commit = some r ∧ r.txnHigh = a.txns.next) ∧ { b with txns := a.txns, ret := a.ret, flash := a.flash, out := a.out } = a)) ∧
    (∀ frame, Runs specTxnCommit c none dt s a → exec (.txnCommit dt c frame) s = .next { a with bg := { a.bg with commit := a.bg.commit ++ [(c, frame)] } }) ∧
    (Runs specTxnAbort c none dt s a → exec (.txnAbort dt c) s = .next (State.ok specTxnAbort c .empty 0
      { a with txns := { a.txns with open_ := a.txns.open_.filter (fun t => decide (t.id ≠ c.txn)) } })) ∧
    (∀ t, s.txnOf t.id = some t → s.raster.run = true → s.raster.line = 0 →
      s.lay.dev.txnIdleS * 500000000 ≤ s.time.upTicks + dt - t.lastTick → s.cleatRuns = true → s.validating t.id = false →
      exec (.txnExpired dt t.id) s = .next (State.event 0x0003 t.id t.staged.length
        { s.advance dt with txns := { s.txns with open_ := s.txns.open_.filter (fun u => decide (u.id ≠ t.id)) } }))

/-- The end of a validation (R57, R58): a refused commit changes nothing but the queue of commits and leaves its transaction open; an
accepted one closes its transaction, enters the Splice store, and names its wall frame, with W_BOUND_VOID where conditions 2 or 3
of R9 would break. -/
def Obligations.CommitValidation : Prop :=
  ∀ (dt frame : Nat) (c : CmdHdr) (rest : List (CmdHdr × Nat)) (t : Txn) (s a : State),
    s.procDown 0 = false → s.procDown 1 = false → s.bg.commit = (c, frame) :: rest → s.txnOf c.txn = some t →
    a = { s.advance dt with bg := { s.bg with commit := rest } } →
    (∀ st d legal, a.validate t frame = .refuse st d legal →
      exec (.commitValidated dt) s = .next (boundCheck (a.reply 0x0101 c st legal d .empty 0)).drain) ∧
    (∀ fr mask, a.validate t frame = .accept fr mask → ∃ b : State,
      exec (.commitValidated dt) s = .next (boundCheck (b.reply 0x0101 c (if mask = 0 then .ok else .wBoundVoid) 0
        (if mask = 0 then fr else mask) (.words [(fr : Int)]) 8)).drain ∧
      b.txns.open_ = a.txns.open_.filter (fun u => decide (u.id ≠ t.id)) ∧
      (∃ v ∈ b.splice.versions, v.frame = fr ∧ t.id ∈ v.txns ∧ ∀ o ∈ t.staged, o.obj ∈ v.objs) ∧ b.splice.stagedGen = noteStaged t.staged a.splice.stagedGen ∧
      { b with txns := a.txns, splice := { b.splice with versions := a.splice.versions, stagedGen := a.splice.stagedGen } } = a)

/-- A staging command puts its object, with the generation then current, into the transaction it names, and changes nothing else
(R54, R350): staging an object again replaces it, a locked access entry is refused (R389), and a full transaction takes no more.
Said of every one of the twenty staging rows. -/
def Obligations.StagingCommands : Prop :=
  ∀ (i : Instr) (c : CmdHdr) (o : StagedObj) (bad : Option Nat) (s a : State),
    (∃ dt id, (∃ x, i = .stageDevice dt c id x ∧ o = .device x ∧ bad = checkDevice id x) ∨
      (∃ x, i = .stageSource dt c id x ∧ o = .source id x ∧ bad = checkSource id x) ∨
      (∃ x, i = .stageFlow dt c id x ∧ o = .flow id x ∧ bad = checkFlow id x) ∨
      (∃ x, i = .stageMac dt c id x ∧ o = .mac id x ∧ bad = checkMac id x) ∨
      (∃ x, i = .stageDprx dt c id x ∧ o = .dprx id x ∧ bad = checkDprx id x) ∨
      (∃ x, i = .stageContext dt c id x ∧ o = .context id x ∧ bad = checkContext id x) ∨
      (∃ x, i = .stageHead dt c id x ∧ o = .head id x ∧ bad = checkHead id x) ∨
      (∃ x, i = .stageWindow dt c id x ∧ o = .window id x ∧ bad = checkWindow id x) ∨
      (∃ x, i = .stageEncoder dt c id x ∧ o = .encoder id x ∧ bad = checkEncoder id x) ∨
      (∃ x, i = .stageGlyphs dt c id x ∧ o = .glyphs id x ∧ bad = checkGlyphs id x) ∨
      (∃ x, i = .stageGlyphSet dt c id x ∧ o = .glyphSet id x ∧ bad = checkGlyphSet id x) ∨
      (∃ x, i = .stageAtlas dt c id x ∧ o = .atlas id x ∧ bad = checkAtlas id x) ∨
      (∃ x, i = .stageColours dt c id x ∧ o = .colours x ∧ bad = checkColours id x) ∨
      (∃ x, i = .stageScaler dt c id x ∧ o = .scaler x ∧ bad = checkScaler id x) ∨
      (∃ x, i = .stageDesk dt c id x ∧ o = .desk id x ∧ bad = checkDesk id x) ∨
      (∃ x, i = .stageQuad dt c id x ∧ o = .quad id x ∧ bad = checkQuad id x) ∨
      (∃ x, i = .stageDomain dt c id x ∧ o = .domain id x ∧ bad = checkDomain id x) ∨
      (∃ x, i = .stagePulse dt c id x ∧ o = .pulse id x ∧ bad = checkPulse id x) ∨
      (∃ x, i = .stageRegulator dt c id x ∧ o = .regulator id x ∧ bad = checkRegulator id x) ∨
      (∃ x, i = .stageAccess dt c id x ∧ o = .access id x ∧ bad = checkAccess id x)) →
    Runs (specStage o) c bad i.ticks s a →
    (lockedNow a.lay o = true → exec i s = .next (a.refuse (specStage o) c .eLocked 0)) ∧
    (lockedNow a.lay o = false → (∀ t ∈ a.txns.open_, t.id = c.txn → t.staged.length < 4096) →
      ∃ b : State, exec i s = .next (b.ok (specStage o) c .empty 0) ∧ { b with txns := a.txns } = a ∧ b.txns.next = a.txns.next ∧
        b.txns.open_.map (fun t => t.id) = a.txns.open_.map (fun t => t.id) ∧
        (∀ t ∈ b.txns.open_, t.id ≠ c.txn → t ∈ a.txns.open_) ∧
        (∀ t ∈ b.txns.open_, t.id = c.txn → { obj := o, gen := a.generation } ∈ t.staged ∧
          ∃ u ∈ a.txns.open_, u.id = c.txn ∧ ∀ x ∈ u.staged, stagedKey x.obj ≠ stagedKey o → x ∈ t.staged)) ∧
    (lockedNow a.lay o = false →
      (∃ t ∈ a.txns.open_, t.id = c.txn ∧ 4096 ≤ t.staged.length ∧ ∀ y ∈ t.staged, stagedKey y.obj ≠ stagedKey o) →
      exec i s = .next (a.refuse (specStage o) c .eTxnLimit 4096))

/-- OBJECT_READ answers with an object of the set in force, of the latest scheduled set, or of the transaction it names, each with
the generation of its latest change or, in a scheduled set or a transaction, its latest staging (R369; how the two combine in a
scheduled set is DEDUCED, entry 88). -/
def Obligations.ObjectReadCommand : Prop :=
  ∀ (dt : Nat) (c : CmdHdr) (opcode view id n : Nat) (s a : State), Runs specObjectRead c none dt s a →
    0x200 ≤ opcode → opcode ≤ 0x213 → view ≤ 2 → objIdOk opcode id = true →
    ((opcode = 0x209 ∨ opcode = 0x20B) ∧ 1 ≤ n ∧ objIdOk opcode (id + n - 1) = true ∨ opcode ≠ 0x209 ∧ opcode ≠ 0x20B ∧ n = 1) →
    a.runFits c.ch opcode n = n →
    (view ≠ 2 → ∃ g o, exec (.objectRead dt c opcode view id n) s = .next (a.ok specObjectRead c (.object g o) (8 + stagedLen o)) ∧
      o = objOf (if view = 0 then a.lay else a.layoutAhead a.lastVersion) opcode id n ∧
      (∀ k ∈ readKeys opcode id n, a.objGen view k ≤ g) ∧ (g = 0 ∨ ∃ k ∈ readKeys opcode id n, g = a.objGen view k)) ∧
    (view = 2 → ∀ t, a.txnOf c.txn = some t →
      (∀ x, stagedAs t opcode id n = some x → exec (.objectRead dt c opcode view id n) s = .next
        (a.ok specObjectRead c (.object x.1 x.2) (8 + stagedLen x.2))) ∧
      (stagedAs t opcode id n = none → exec (.objectRead dt c opcode view id n) s = .next (a.refuse specObjectRead c .eNotFound id)))

/-! ### Queries, time, faults, debug, surfaces and checks -/

/-- The queries answer with what the state holds and change nothing but the reply's ring: sources and their seals, newest first
(R371), encode contexts (R372), point records (R373), heads and their sink data (R374), and the fault sources with the three
first-error records (R382). -/
def Obligations.QueryCommands : Prop :=
  ∀ (dt : Nat) (c : CmdHdr) (s a : State),
    (∀ src n, Runs specSourceQuery c none dt s a → src ≤ 1023 → 1 ≤ n → n ≤ 8 →
      (srcDefined a.lay src = false → exec (.sourceQuery dt c src n) s = .next (a.refuse specSourceQuery c .eNotFound src)) ∧
      (srcDefined a.lay src = true → ∀ seals, seals = (a.srcRt src).seals.take (min n (a.fits c.ch 24 64)) →
        exec (.sourceQuery dt c src n) s = .next (a.ok specSourceQuery c
          (.source (a.srcRt src).status.latestSeq (a.srcRt src).status.flags (a.lay.source src).kind (a.lay.source src).cls
            (a.srcRt src).status.lastAdvance seals) (24 + 64 * seals.length)))) ∧
    (∀ x n seals, Runs specEncQuery c none dt s a → x ≤ 31 → 1 ≤ n → n ≤ 8 → seals = (a.encRt x).seals.take (min n (a.fits c.ch 8 64)) →
      exec (.encQuery dt c x n) s = .next (a.ok specEncQuery c
        (.encoder (a.encRt x).state.code ((a.encRt x).engine.getD 0xFF) (a.encRt x).k seals) (8 + 64 * seals.length))) ∧
    (∀ first n recs, Runs specPointQuery c none dt s a → first ≤ 8388607 → first + n ≤ 8388608 →
      recs = (List.range (min n (a.fits c.ch 8 16))).map (fun j => a.pts.table.get {} (first + j)) →
      exec (.pointQuery dt c first n) s = .next (a.ok specPointQuery c (.points recs) (8 + 16 * recs.length))) ∧
    (∀ h sect offset length, Runs specHeadQuery c none dt s a → h ≤ 31 → sect ≤ 3 →
      (sect = 0 → exec (.headQuery dt c h sect offset length) s = .next (a.ok specHeadQuery c
        (.words (([(a.headRt h).state.code, (a.headRt h).rate, (a.headRt h).lanes, (a.headRt h).n, (a.headRt h).frame] : List Int) ++
          (a.headRt h).dpcdStatus.map (fun b => (b.toNat : Int)))) 32)) ∧
      (sect ≠ 0 → ∀ all part, all = (if sect = 1 then (a.headRt h).dpcdCaps else if sect = 2 then (a.headRt h).lttpr else (a.headRt h).edid) →
        part = (all.drop offset).take (min length (a.fits c.ch 8 1)) →
        exec (.headQuery dt c h sect offset length) s = .next (a.ok specHeadQuery c (.bytes all.length part) (8 + part.length)))) ∧
    (∀ first n rows, Runs specFaultQuery c none dt s a → first ≤ 255 → 1 ≤ n → n ≤ 256 →
      rows = (List.range (min (min n (256 - first)) (a.fits c.ch 96 8))).map (fun j =>
        ((a.faultSrc (first + j)).count, (srcInfo (first + j)).cls, a.faultMask (first + j))) →
      exec (.faultQuery dt c first n) s = .next (a.ok specFaultQuery c
        (.faults [a.flt.first.get {} 0, a.flt.first.get {} 1, a.flt.first.get {} 2] rows) (96 + 8 * rows.length)))

/-- COUNTER_READ answers with the count of words, the wall frame and the counters of the instance; with CLEAR the counters it
read are zero afterwards, and every other counter is as it was (R375). -/
def Obligations.CounterReadCommand : Prop :=
  ∀ (dt : Nat) (c : CmdHdr) (block flags inst n lo hi : Nat) (s a : State),
    Runs specCounterRead c none dt s a → s.Sound → flags ≤ 1 → counterBlock block = some (n, lo, hi) → lo ≤ inst → inst ≤ hi →
    ∃ b : State, exec (.counterRead dt c block flags inst) s = .next (b.ok specCounterRead c
        (.words ((n : Int) :: (a.raster.frame : Int) :: (List.range n).map (fun i => (a.counter block inst i : Int)))) (16 + 4 * n)) ∧
      { b with counters := a.counters } = a ∧ (flags = 0 → b = a) ∧
      (flags = 1 → (∀ i, i < n → b.counter block inst i = 0) ∧
        ∀ block' inst' i', inst' < 65536 → i' < 256 → (block', inst') ≠ (block, inst) → b.counter block' inst' i' = a.counter block' inst' i')

/-- TIME_STATUS answers with WALL_RESID, the domain offset, the active domain, a pending switch and both counters, read at one tick;
with a domain's samples from a sequence on, which then count as read; or with a pulse input's records, which the reply removes
(R258, R264, R377). TIME_ADJUST writes TD_INCR and steps the counter of the domain it names (R260). On the inactive domain nothing
else changes. On the active domain, with no re-anchor, the offset goes into WALL_RESID, so that wall time does not move; an offset
that would take the residual beyond 1,000,000,000 ns is refused. TIME_SWITCH notes the domain that is to become active at the next
wall line 0; naming the active domain cancels a pending switch; and an ABSENT domain, or one whose switch would take WALL_RESID
beyond 1,000,000,000 ns, is refused without effect (R263). -/
def Obligations.TimeCommands : Prop :=
  (∀ (dt : Nat) (c : CmdHdr) (sel start : Nat) (s a : State), Runs specTimeStatus c none dt s a →
     (∀ d0 d1 : List Int, d0 = domainWords a.time.td0 → d1 = domainWords a.time.td1 →
       exec (.timeStatus dt c 0 sel start) s = .next (a.ok specTimeStatus c
         (.words ([a.time.resid / 4294967296, a.time.offset, (a.time.active : Int), ((a.time.pendingSwitch.getD 0xFF : Nat) : Int)] ++ d0 ++ d1)) 120)) ∧
     (sel ≤ 1 → ∀ xs, xs = ((a.time.domain sel).samples.reverse.filter (fun x => decide (start ≤ x.seq))).take (a.fits c.ch 8 40) →
       exec (.timeStatus dt c 1 sel start) s = .next (State.ok specTimeStatus c (.samples xs) (8 + 40 * xs.length)
         (a.modDomain sel (fun x => { x with unread := x.unread.filter (fun q => !xs.any (fun y => decide (y.seq = q))) })))) ∧
     (sel ≤ 1 → ∀ xs, xs = (a.time.tpi.get [] sel).take (a.fits c.ch 8 32) →
       exec (.timeStatus dt c 2 sel start) s = .next (State.ok specTimeStatus c (.tpis xs) (8 + 32 * xs.length)
         { a with time := { a.time with tpi := a.time.tpi.set [] sel ((a.time.tpi.get [] sel).drop xs.length) } }))) ∧
  (∀ (dt : Nat) (c : CmdHdr) (d incr : Nat) (offset : Int) (s a : State), Runs specTimeAdjust c none dt s a → d ≤ 1 →
     8585639625 ≤ incr → incr ≤ 8594229559 →
     (offset = 0 → (d ≠ a.time.active ∨ a.headsEnabled = false) →
       exec (.timeAdjust dt c d 1 incr 0) s = .next (State.ok specTimeAdjust c .empty 0 (a.modDomain d (fun x => { x with incr := incr })))) ∧
     (offset ≠ 0 → d ≠ a.time.active → 0 ≤ ((a.time.domain d).units : Int) + offset * 4294967296 → ∃ b : State,
       exec (.timeAdjust dt c d 0 0 offset) s = .next (b.ok specTimeAdjust c .empty 0) ∧
       ((b.time.domain d).units : Int) = (a.time.domain d).units + offset * 4294967296 ∧ b.time.resid = a.time.resid ∧
       b.time.active = a.time.active ∧ (∀ e, e ≤ 1 → e ≠ d → b.time.domain e = a.time.domain e) ∧ { b with time := a.time, counters := a.counters } = a) ∧
     (offset ≠ 0 → d = a.time.active → (a.dev ≠ .configuring ∨ a.headsEnabled = true) →
       0 ≤ ((a.time.domain d).units : Int) + offset * 4294967296 →
       (1000000000 * 4294967296 < (a.time.resid + offset * 4294967296).natAbs →
         exec (.timeAdjust dt c d 0 0 offset) s = .next (a.refuse specTimeAdjust c .eParam 16)) ∧
       ((a.time.resid + offset * 4294967296).natAbs ≤ 1000000000 * 4294967296 → ∃ b : State,
         exec (.timeAdjust dt c d 0 0 offset) s = .next (b.ok specTimeAdjust c .empty 0) ∧
         b.time.wallUnits = a.time.wallUnits ∧ b.time.resid = a.time.resid + offset * 4294967296 ∧ { b with time := a.time, counters := a.counters } = a))) ∧
  (∀ (dt : Nat) (c : CmdHdr) (d : Nat) (s a : State), Runs specTimeSwitch c none dt s a → d ≤ 1 →
     (d = a.time.active → exec (.timeSwitch dt c d) s = .next (State.ok specTimeSwitch c .empty 0 { a with time := { a.time with pendingSwitch := none } })) ∧
     (d ≠ a.time.active → ∀ r : Int, r = a.time.resid + (a.time.domain d).units - (a.time.domain a.time.active).units →
       ((a.time.domain d).state = .absent ∨ 1000000000 * 4294967296 < r.natAbs →
         exec (.timeSwitch dt c d) s = .next (a.refuse specTimeSwitch c .eParam 0)) ∧
       ((a.time.domain d).state ≠ .absent → r.natAbs ≤ 1000000000 * 4294967296 →
         exec (.timeSwitch dt c d) s = .next (State.ok specTimeSwitch c .empty 0 { a with time := { a.time with pendingSwitch := some d } }))))

/-- FAULT_REACT keeps a mask for the next wall line 0, and refuses one that clears a fixed reaction; FAULT_REARM empties the
first-error records and FAULT_N latches of its classes, and with bit 7 the counts of their sources; UNIT_RESTORE starts the test of a
fenced unit; and a test that passes readies the unit's return, while one that fails fires the unit's source (R383, R406 to R410). -/
def Obligations.FaultCommands : Prop :=
  ∀ (dt : Nat) (c : CmdHdr) (s a : State),
    (∀ n m, Runs specFaultReact c (firstBad [(0, inRange 0 255 n), (2, decide (m < 128) && maskOk n m)]) dt s a →
      exec (.faultReact dt c n m) s = .next (State.ok specFaultReact c .empty 0 (a.modFaultSrc n (fun x => { x with next := some m })))) ∧
    (∀ n m, n ≤ 255 → (m &&& (srcInfo n).fixed ≠ (srcInfo n).fixed) →
      firstBad [(0, inRange 0 255 n), (2, decide (m < 128) && maskOk n m)] = some 2) ∧
    (∀ m, Runs specFaultRearm c none dt s a → m &&& 0x87 = m → ∃ b : State,
      exec (.faultRearm dt c m) s = .next (b.ok specFaultRearm c .empty 0) ∧ { b with flt := a.flt } = a ∧
      (∀ k, k < 3 → m.testBit k = true → b.flt.first.find? k = none ∧ k ∉ b.flt.latchClasses) ∧
      (∀ k, m.testBit k = false → (k ∈ a.flt.latchClasses → k ∈ b.flt.latchClasses)) ∧ (m.testBit 7 = false → b.flt.srcs = a.flt.srcs) ∧
      (m.testBit 7 = true → ∀ e ∈ b.flt.srcs, m.testBit (srcInfo e.1).cls = true → e.2.count = 0)) ∧
    (∀ u, Runs specUnitRestore c none dt s a → u ≤ 127 →
      (a.isFenced u = false → exec (.unitRestore dt c u) s = .next (a.refuse specUnitRestore c .eNotFound u)) ∧
      (a.isFenced u = true → hasNat u a.flt.untilReset = true → exec (.unitRestore dt c u) s = .next (a.refuse specUnitRestore c .eFenced u)) ∧
      (a.isFenced u = true → hasNat u a.flt.untilReset = false → (u < 44 ∨ 50 ≤ u) → exec (.unitRestore dt c u) s = .next
        (State.ok specUnitRestore c .empty 0 { a with flt := { a.flt with tests := a.flt.tests.filter (fun x => decide (x.1 ≠ u)) ++ [(u, true)] } }))) ∧
    (∀ u rest, s.flt.tests.find? (fun x => decide (x.1 = u)) = some (u, true) → rest = s.flt.tests.filter (fun x => decide (x.1 ≠ u)) →
      hasNat u s.flt.untilReset = false →
      exec (.unitTestDone dt u true) s = .next { s.advance dt with flt := { s.flt with tests := rest, passedTests := insertSorted u s.flt.passedTests } } ∧
      exec (.unitTestDone dt u false) s = .next (State.fireSrc (unitSource u) u 0xFFFF { s.advance dt with flt := { s.flt with tests := rest } }))

/-- The debug unlock (R384): a challenge is fresh and replaces the last one; a response that verifies unlocks a field-locked part; one
that does not is refused with E_AUTH, and the third such refusal locks the command out; challenge and lock-out end after their 60 s.
On an open part the unlock changes nothing. -/
def Obligations.DebugUnlocking : Prop :=
  ∀ (dt : Nat) (c : CmdHdr) (s a : State),
    (Runs specDebugChallenge c none dt s a → ∃ x : Nat,
      exec (.debugChallenge dt c) s = .next (State.ok specDebugChallenge c
        (.words [((x % 2 ^ 128 : Nat) : Int), (a.fuses.dieId : Int)]) 24 { a with free := a.free + 1, auth := { a.auth with challenge := some x } })) ∧
    (∀ v, Runs specDebugUnlock c none dt s a →
      (a.fuses.fieldLocked = false → exec (.debugUnlock dt c v) s = .next (a.ok specDebugUnlock c .empty 0)) ∧
      (a.fuses.fieldLocked = true → a.auth.lockout = true → exec (.debugUnlock dt c v) s = .next (a.refuse specDebugUnlock c .eBusy 0)) ∧
      (a.fuses.fieldLocked = true → a.auth.lockout = false → v = true → a.auth.challenge.isSome = true →
        exec (.debugUnlock dt c v) s = .next (State.ok specDebugUnlock c .empty 0 { a with auth := { a.auth with unlocked := true, failures := 0 } })) ∧
      (a.fuses.fieldLocked = true → a.auth.lockout = false → (v = false ∨ a.auth.challenge = none) →
        exec (.debugUnlock dt c v) s = .next (State.refuse specDebugUnlock c .eAuth 0
          { a with auth := { a.auth with failures := if a.auth.failures = 2 then 0 else a.auth.failures + 1, lockout := decide (a.auth.failures = 2) } }))) ∧
    exec (.debugChallengeExpiry dt) s = .next { s.advance dt with auth := { s.auth with challenge := none } } ∧
    exec (.debugLockoutExpiry dt) s = .next { s.advance dt with auth := { s.auth with lockout := false } }

/-- SURFACE_PUBLISH starts the copy of a host surface into a free buffer under the capture time of R103, and its end seals the frame
with HOST set and answers with its FRAME_SEQ; a failed host read seals nothing and answers E_INTERNAL (R101, R103, R370). -/
def Obligations.SurfaceCommands : Prop :=
  ∀ (dt : Nat) (c : CmdHdr) (src : Nat) (s a : State),
    (∀ flags pitch addr capture b cap, Runs specSurfacePublish c none dt s a → src < 984 → (a.lay.source src).kind = 4 → flags ≤ 1 →
      4 * (a.lay.source src).surfWidth ≤ pitch → addr % 4 = 0 → a.freeSrcBuf src = some b → (∀ k ∈ a.ing.copies, k.source ≠ src) →
      cap = (if flags = 1 ∧ capture ≤ a.wallNs then (capture, 2) else (a.wallNs, 1)) → (∀ x ∈ (a.srcRt src).seals.head?, x.capture ≤ cap.1) →
      ∃ t, exec (.surfacePublish dt c src flags pitch addr capture) s = .next t ∧
        t.ing.copies = a.ing.copies ++ [{ hdr := c, source := src, buf := b, capture := cap.1, captSrc := cap.2, arrival := a.wallNs, cls := (a.lay.source src).cls }] ∧
        { t with ing := a.ing } = a) ∧
    (∀ k lines t, s.procDown 0 = false → s.procDown 1 = false → s.ing.copies.find? (fun x => decide (x.source = src)) = some k → s.writersRun = true →
      linesOk (((s.srcRt src).bufs.get {} k.buf).format) (((s.srcRt src).bufs.get {} k.buf).width) (((s.srcRt src).bufs.get {} k.buf).height) lines = true →
      t = State.sealFrame src { buf := k.buf, capture := k.capture, captSrc := k.captSrc, arrival := k.arrival, host := true, cls := k.cls }
        (State.modBuf src k.buf (fun f => { f with lines := lines }) { s.advance dt with ing := { s.ing with copies := s.ing.copies.filter (fun x => decide (x.source ≠ src)) } }) →
      exec (.surfaceCopyDone dt src lines true) s = .next
        (t.reply 0x0300 k.hdr .ok 0 (((t.srcRt src).seals.head?.map (fun x => x.seq)).getD 0) .empty 0).drain) ∧
    (∀ k lines, s.procDown 0 = false → s.procDown 1 = false → s.ing.copies.find? (fun x => decide (x.source = src)) = some k → s.writersRun = true →
      exec (.surfaceCopyDone dt src lines false) s = .next
        (State.refuse specSurfacePublish k.hdr .eInternal 79 (State.fireSrc 79 0xFFFF 0xFFFF
          (State.dropBuf src k.buf { s.advance dt with ing := { s.ing with copies := s.ing.copies.filter (fun x => decide (x.source ≠ src)) } }))).drain)

/-- WHIP_SET, PROBE_SET and LANE_TEST (R378, R379, R380): new settings wait for wall line 0 or the head's next frame; a query or a
read changes nothing; a lane test is refused where it would take the lane from a user (R328, R329); and a check that agrees counts as
made, while one that disagrees counts a mismatch and fires the unit's source (R191). -/
def Obligations.CheckCommands : Prop :=
  ∀ (dt : Nat) (c : CmdHdr) (s a : State),
    (∀ p, Runs specWhipSet c (checkWhip p) dt s a → ∃ b : State,
      exec (.whipSet dt c p) s = .next (b.ok specWhipSet c
        (.words [((a.whip p.unit).value : Int), ((a.whip p.unit).checks : Int), ((a.whip p.unit).mismatches : Int), ((a.whip p.unit).abandoned : Int)]) 16) ∧
      (p.query = 1 → b = a) ∧ (p.query ≠ 1 → b = a.modWhip p.unit (fun w => { w with next := some (whipCfgOf p) }))) ∧
    (∀ p q, Runs specProbeSet c (checkProbe (s.advance dt) p) dt s a → q = (a.stop.sigs.get {} p.group).probes.get {} p.probe → ∃ b : State,
      exec (.probeSet dt c p) s = .next (b.ok specProbeSet c (.words [(q.latest.toNat : Int), (q.failures : Int)]) 8) ∧
      (b.stop.sigs.get {} p.group).probes.get {} p.probe = { q with next := (some
        { mode := p.mode, n := p.n, head := p.head, rect := { x := p.x, y := p.y, w := p.w, h := p.h }, expect := BitVec.ofNat 32 p.expect }) } ∧
      { b with stop := a.stop } = a) ∧
    (∀ lane flags ctrl, Runs specLaneTest c (checkLaneTest lane flags ctrl) dt s a →
      (a.laneBusy lane ctrl = true → exec (.laneTest dt c lane flags ctrl) s = .next (a.refuse specLaneTest c .eBusy 0)) ∧
      (a.laneBusy lane ctrl = false → a.laneLocked lane ctrl = true → exec (.laneTest dt c lane flags ctrl) s = .next (a.refuse specLaneTest c .eLocked 0)) ∧
      (a.laneBusy lane ctrl = false → a.laneLocked lane ctrl = false → ∃ b : State, b = (if flags = 1 then a.laneWrite lane ctrl else a) ∧
        exec (.laneTest dt c lane flags ctrl) s = .next (b.ok specLaneTest c
          (.words [((b.lane lane).ctrl.toNat : Int), (b.laneStatus lane : Int), (b.counter 0x14 lane 0 : Int)]) 12))) ∧
    (∀ u x rest b, (s.whip u).checking = x :: rest → s.dev ≠ .safe →
      State.whipRead (chunksOf ((s.advance dt).whipRegion (s.whip u) x).1 ((s.advance dt).whipRegion (s.whip u) x).2) (s.advance dt) = (true, b) →
      (b.whipValue (s.whip u) x = whipExpect (s.whip u) x → exec (.whipCheckDone dt u true) s = .next (b.modWhip u (fun w => { w with
        checking := rest, checks := w.checks + 1, value := (b.whipValue (s.whip u) x).toNat }))) ∧
      (b.whipValue (s.whip u) x ≠ whipExpect (s.whip u) x → exec (.whipCheckDone dt u true) s = .next (State.fireSrc (104 + u) 0xFFFF
        (match x with | none => 0xFFFF | some y => y.source) (b.modWhip u (fun w => { w with
          checking := if (s.whip u).cfg.stop then [] else rest, stopped := w.stopped || (s.whip u).cfg.stop, checks := w.checks + 1,
          value := (b.whipValue (s.whip u) x).toNat, mismatches := w.mismatches + 1 })))))

/-! ### Rings, interrupts and the service UART -/

/-- Doorbells (R43 to R45). A write to a ring that does not run is ignored. DB_PRODUCER of a command ring announces its packets, in
order, and Cleat takes those it can; DB_CONSUMER releases slots of a ring that holds no reply back, has no event lost and no report
held, and CPL_FULL then tells whether it is full. An index that moves backward, more than the ring size ahead of
WB_CONSUMER, or ahead of WB_PRODUCER, stops the ring with ERR_CAUSE 2 or 4 and a RING_FAULT event. -/
def Obligations.RingDoorbells : Prop :=
  ∀ (dt n index : Nat) (packets : List (List Byte)) (s : State) (r : Ring), r = s.ring n → index < 4294967296 →
    (r.runs = false → exec (.dbProducer dt n index packets) s = .next (s.advance dt) ∧ exec (.dbConsumer dt n index) s = .next (s.advance dt)) ∧
    (r.runs = true → n ≠ 16 → n ≠ 17 → n < 19 →
      (r.slots < idxDiff index r.wbConsumer ∨ idxDiff index r.wbConsumer < idxDiff r.producer r.wbConsumer →
        exec (.dbProducer dt n index packets) s = .next (State.event 0x000E n 2
          ((s.advance dt).setRing n { r with ringErr := true, errCause := 2, waiting := [], held := [] }))) ∧
      (idxDiff index r.wbConsumer ≤ r.slots → idxDiff r.producer r.wbConsumer ≤ idxDiff index r.wbConsumer →
        (n = 18 → exec (.dbProducer dt n index packets) s = .next ((s.advance dt).setRing n { r with producer := index })) ∧
        (n < 16 → exec (.dbProducer dt n index packets) s = .next (State.drain ((s.advance dt).setRing n
          { r with producer := index, waiting := r.waiting ++ packets.map (fun p => { bytes := p, busy := false, slots := packetSlots (fld p 6 2) }) }))))) ∧
    (r.runs = true → n < 18 →
      (idxDiff r.wbProducer r.released < idxDiff index r.released →
        exec (.dbConsumer dt n index) s = .next (State.event 0x000E n 4
          ((s.advance dt).setRing n { r with ringErr := true, errCause := 4, waiting := [], held := [] }))) ∧
      (idxDiff index r.released ≤ idxDiff r.wbProducer r.released → n < 16 → r.held = [] → s.bg.resetDue ≠ some n →
        exec (.dbConsumer dt n index) s = .next (State.drain ((s.advance dt).setRing n { r with released := index, held := [], cplFull := false }))) ∧
      (idxDiff index r.released ≤ idxDiff r.wbProducer r.released → n = 16 → s.log.lost = 0 →
        exec (.dbConsumer dt n index) s = .next ((s.advance dt).setRing n
          { r with released := index, cplFull := decide (r.slots ≤ idxDiff r.wbProducer index) }))) ∧
    ((∀ ch ∈ channels, s.waitingOn ch = []) → s.drain = s)

/-- The ring registers (R43, R46), while the PCIe function is up. A write that sets ENABLE starts the ring afresh: positions at zero and
the latest generation in its write-back block in host memory; a ring that runs or stands in error ignores it; a size code above 10 stops
it with ERR_CAUSE 1. Clearing ENABLE discards what is not fetched. RING_ERR is cleared by writing 1 to it. The other registers can be
written only while ENABLE is 0, in steps of their alignment. A held interrupt fires when its interval ends, and PERST_N clears the rings
alone. -/
def Obligations.RingControl : Prop :=
  ∀ (dt n size cpl vec mod reg v : Nat) (s : State) (r : Ring), r = s.ring n →
    (n < 19 → s.barUp = true → r.enable = false → r.ringErr = false →
      (size ≤ 10 → cpl ≤ 10 → n ≠ 16 → n ≠ 17 → ∃ t, exec (.ringEnable dt n size cpl vec mod) s = .next t ∧
        t.ring n = { base := r.base, cplBase := r.cplBase, wbAddr := r.wbAddr, enable := true, size := size, cplSize := cpl, msixVec := vec,
                     modUs := mod, wbGeneration := s.snap.generation } ∧
        (∀ m, m ≠ n → t.ring m = s.ring m) ∧
        t.out = { s.out with hostWrites := (r.wbAddr, writeBackBytes (t.ring n)) :: s.out.hostWrites } ∧
        { t with rings := s.rings, bg := s.bg, ing := { t.ing with copies := s.ing.copies }, desks := s.desks, out := s.out } = s.advance dt) ∧
      (10 < size ∨ 10 < cpl → ∃ t, exec (.ringEnable dt n size cpl vec mod) s = .next t ∧ (t.ring n).ringErr = true ∧
        (t.ring n).errCause = 1 ∧ (t.log.recs.head?.map (fun e => (e.code, e.subject, e.data))) = some (0x000E, n, 1))) ∧
    (r.enable = true ∨ r.ringErr = true → exec (.ringEnable dt n size cpl vec mod) s = .next (s.advance dt)) ∧
    (r.enable = true → s.bg.resetDue ≠ some n → exec (.ringDisable dt n) s = .next ((s.advance dt).setRing n
      { r with enable := false, waiting := [], held := [], cplFull := false, modHeld := false, modRunning := false })) ∧
    (r.ringErr = true → n ≠ 16 → n ≠ 17 → exec (.ringErrClear dt n) s = .next ((s.advance dt).setRing n { r with ringErr := false, errCause := 0 })) ∧
    (n < 19 → s.barUp = true → r.enable = false →
      exec (.registerWrite dt n 0x00 (4096 * v)) s = .next ((s.advance dt).setRing n { r with base := 4096 * v % 18446744073709551616 }) ∧
      exec (.registerWrite dt n 0x10 (4096 * v)) s = .next ((s.advance dt).setRing n { r with cplBase := 4096 * v % 18446744073709551616 }) ∧
      exec (.registerWrite dt n 0x18 (64 * v)) s = .next ((s.advance dt).setRing n { r with wbAddr := 64 * v % 18446744073709551616 })) ∧
    (r.enable = true → reg ≠ 0x08 → reg ≠ 0x0C → exec (.registerWrite dt n reg v) s = .next (s.advance dt)) ∧
    (r.modHeld = true → exec (.msixModerationExpiry dt n) s = .next { (s.advance dt).setRing n { r with modHeld := false } with
      out := { s.out with msix := r.msixVec :: s.out.msix } }) ∧
    (r.modHeld = false → exec (.msixModerationExpiry dt n) s = .next ((s.advance dt).setRing n { r with modRunning := false })) ∧
    exec (.perstN dt) s = .next { s.advance dt with rings := [] }

/-- The service UART (R47, R48): a frame with a malformed escape, a short one, and one that arrives before commands are served are
discarded and counted, as is one that an idle gap cuts off; any other waits behind those before it, as busy where four are pending.
A host write to BAR0 space that holds no register fires source 204 (R41). -/
def Obligations.UartAndStray : Prop :=
  ∀ (dt addr : Nat) (raw bs : List Byte) (s d : State), d = { s.advance dt with uart := { s.uart with discarded := s.uart.discarded + 1 } } →
    (unescape raw = none → exec (.uartFrameRx dt raw) s = .next d) ∧
    (unescape raw = some bs →
      (bs.length < 16 → exec (.uartFrameRx dt raw) s = .next d) ∧
      (s.boot.cleatUp = false → s.dev ≠ .recovery → exec (.uartFrameRx dt raw) s = .next d) ∧
      (16 ≤ bs.length → (s.boot.cleatUp = true ∨ s.dev = .recovery) → exec (.uartFrameRx dt raw) s = .next (State.drain
        { s.advance dt with uart := { s.uart with waiting := s.uart.waiting ++ [({ bytes := bs, busy := decide (4 ≤ s.uartPending), slots := 0 } : Waiting)] } }))) ∧
    exec (.uartGapTimeout dt) s = .next d ∧
    (barMapped addr = false → s.barUp = true → exec (.bar0StrayWrite dt addr) s = .next ((s.advance dt).fireAccess 204 13 2 (0x1100000000 + addr) 0)) ∧
    (barMapped addr = true → exec (.bar0StrayWrite dt addr) s = .next (s.advance dt))

/-! ### The wall raster, snapshots and time -/

/-- Wall line `w` of wall frame `n` begins at ⌈n × D + w × D / 4,096⌉ ns, D the wall frame's exact duration (R66, R67): the least number of
nanoseconds that is not before the exact boundary; so boundaries never lie more than 1 ns late, frame `n` begins at its line 0, and a
later position begins later. -/
def Obligations.WallLineTimes : Prop :=
  ∀ rate n w num den t : Nat, (num, den) = wallRateHz rate → t = lineStartNs rate n w →
    0 < num ∧ 0 < den ∧
    (4096 * n + w) * (1000000000 * den) ≤ t * (4096 * num) ∧
    t * (4096 * num) < (4096 * n + w) * (1000000000 * den) + 4096 * num ∧
    (∀ n' w', 4096 * n + w < 4096 * n' + w' → t < lineStartNs rate n' w')

/-- Both time counters add TD_INCR at every TIME tick while the TIME domain is clocked, and stand still otherwise; TD_SEC, TD_NS and
TD_FRAC are one number of 2^−32 ns read at one tick; and wall time is the active domain's time less WALL_RESID, which slews towards
zero and never past it (R68, R253, R261). -/
def Obligations.TimeCounters : Prop :=
  ∀ (dt d : Nat) (s t : State), t = s.advance dt → d ≤ 1 →
    (8 ≤ s.boot.step → (t.time.domain d).units = (s.time.domain d).units + dt * (s.time.domain d).incr) ∧
    (s.boot.step < 8 → (t.time.domain d).units = (s.time.domain d).units ∧ t.time.resid = s.time.resid) ∧
    (∃ sec ns frac, sec = (t.time.domain d).ns / 1000000000 ∧ ns = (t.time.domain d).ns % 1000000000 ∧ frac = (t.time.domain d).units % 4294967296 ∧
      (t.time.domain d).units = (sec * 1000000000 + ns) * 4294967296 + frac) ∧
    (0 ≤ s.time.resid → 0 ≤ t.time.resid ∧ t.time.resid ≤ s.time.resid) ∧ (s.time.resid ≤ 0 → s.time.resid ≤ t.time.resid ∧ t.time.resid ≤ 0) ∧
    t.time.wallUnits = (t.time.domain t.time.active).units - t.time.resid ∧ { t with time := s.time } = s

/-- WALL_LINE_START moves a running raster on once wall time has reached the next line's start, and runs that line's events; at the end of
a frame those of wall line 0 come first (R67, R78). Before that moment, or while the raster stands, only time passes (log entry 1). -/
def Obligations.WallLineRow : Prop :=
  ∀ (dt : Nat) (o : LineObs) (s a : State), a = s.advance dt →
    (a.raster.run = false ∨ a.wallNs < lineStartNs a.lay.dev.wallRate a.raster.next.1 a.raster.next.2 → exec (.wallLineStart dt o) s = .next a) ∧
    (a.raster.run = true → lineStartNs a.lay.dev.wallRate a.raster.next.1 a.raster.next.2 ≤ a.wallNs →
      (a.raster.line ≠ 4095 → exec (.wallLineStart dt o) s =
        .next (State.lineEvents o { a with raster := { a.raster with line := a.raster.line + 1 } })) ∧
      (a.raster.line = 4095 → exec (.wallLineStart dt o) s =
        .next (State.lineEvents o (State.lineZero (a.raster.frame + 1) false false o { a with raster := { a.raster with frame := a.raster.frame + 1, line := 0 } }))))

/-- RASTER_START starts a raster that stands at wall line 0 of its first wall frame, once wall time has reached it, in CONFIGURING,
RUNNING, DEGRADED and SAFE only, while the TIME clock has not failed (R69); after a re-anchor it starts there again (R70). Otherwise only
time passes (log entry 1). -/
def Obligations.RasterStartRow : Prop :=
  ∀ (dt : Nat) (o : LineObs) (s a : State), a = s.advance dt →
    (a.raster.run = true ∨ a.boot.step ≠ 11 ∨ a.dev = .off ∨ a.dev = .starting ∨ a.dev = .recovery ∨ Clock.pllTime ∈ a.clk.onFio ∨
      a.wallNs < lineStartNs a.lay.dev.wallRate a.raster.first 0 → exec (.rasterStart dt o) s = .next a) ∧
    (∀ u : State, u = (if a.raster.anchored then a.forgetTime else a) → a.Settled → a.raster.run = false → Clock.pllTime ∉ a.clk.onFio →
      lineStartNs a.lay.dev.wallRate a.raster.first 0 ≤ a.wallNs → exec (.rasterStart dt o) s =
        .next (State.lineEvents o (State.lineZero a.raster.first a.raster.anchored (!a.raster.anchored) o { u with raster :=
          { run := true, started := true, frame := a.raster.first, line := 0, first := a.raster.first,
            origin := if u.raster.started then u.raster.origin else a.raster.first, anchored := false } })))

/-- What Cleat does at every wall line 0 (R62, R64): the heartbeat rises by one, and one snapshot is taken for the wall frame, whose
generation rises by one when a field has changed since the snapshot before, and not otherwise. The mirror shows it. -/
def Obligations.SnapshotAtLineZero : Prop :=
  ∀ s t : State, s.procDown 0 = false → s.procDown 1 = false → t = s.cleatLine0 →
    t.mirror.heartbeat = (s.mirror.heartbeat + 1) % 4294967296 ∧ t.mirror.snap = t.snap ∧ t.mirror.snapCount = s.mirror.snapCount + 2 ∧
    t.snap.wallFrame = s.raster.frame ∧ t.snap.wallLine = 0 ∧ t.snap.core = s.snapCore ∧ t.generation = t.snap.generation ∧
    (s.snapCore = s.snap.core → t.generation = s.generation) ∧ (s.snapCore ≠ s.snap.core → t.generation = s.generation + 1) ∧
    { t with snap := s.snap, generation := s.generation, mirror := s.mirror } = s

/-! ### Ingest and seals -/

/-- Ethernet frames at a live MAC (R89 to R92, R97): one whose check fails and one that is too long are discarded and counted; a UDP
packet to another port than PTP's that no enabled flow takes is counted; requests for the MAC's own addresses are answered by fixed rule
while Lay's processor runs; and nothing else of a frame reaches the rest of the device in this row. The frames that flows take act as
RTP_PACKET_RX and POINT_DATAGRAM_RX, and PTP messages as the rows of network time. -/
def Obligations.EthernetFrames : Prop :=
  ∀ (dt mac vlan length : Nat) (kind : EthKind) (s a : State), a = s.advance dt → a.macLive mac = true →
    exec (.ethFrameRx dt mac kind vlan length false) s = .next (a.count 0x17 mac 2 1) ∧
    (9216 < length → exec (.ethFrameRx dt mac kind vlan length true) s = .next (a.count 0x17 mac 1 1)) ∧
    (length ≤ 9216 →
      (kind = .ptp ∨ kind = .other → exec (.ethFrameRx dt mac kind vlan length true) s = .next a) ∧
      (∀ port dst src ssrc, kind = .udp port dst src ssrc → a.writersRun = true →
        exec (.ethFrameRx dt mac kind vlan length true) s =
          .next (if port ≠ 319 ∧ port ≠ 320 ∧ matchFlow a.lay mac vlan dst port src ssrc = none then a.count 0x17 mac 0 1 else a)) ∧
      (∀ t, a.procDown 8 = false → ownAddress (a.lay.macs.get {} mac) t = true →
        (isIpv4 t = true → kind = .arp t → exec (.ethFrameRx dt mac kind vlan length true) s = .next (a.send mac 1 [t])) ∧
        (isIpv4 t = false → kind = .neighbour t → exec (.ethFrameRx dt mac kind vlan length true) s = .next (a.send mac 2 [t])) ∧
        (kind = .echo t → exec (.ethFrameRx dt mac kind vlan length true) s = .next (a.send mac 3 [t]))))

/-- An RTP packet (R91, R93, R94, R98). One that no flow takes does nothing. Of an unpaired uncompressed flow: one whose number was
received before, within 1,024 of the highest, counts as a duplicate; one that is neither that nor fills a hole counts as late; both change
nothing else. The first packet that such a flow receives, here one without pixels and marker in a flow that takes its capture time from
the arrival, starts the flow and opens a frame in a free buffer of the flow's source. -/
def Obligations.RtpPackets : Prop :=
  ∀ (dt : Nat) (p : RtpPacket) (s a : State), a = s.advance dt → a.macLive p.mac = true → a.writersRun = true →
    (matchFlow a.lay p.mac p.vlan p.dst p.dstPort p.src p.ssrc = none → exec (.rtpPacketRx dt p) s = .next a) ∧
    (∀ f c q, matchFlow a.lay p.mac p.vlan p.dst p.dstPort p.src p.ssrc = some (f, c) → c.type = 3 → c.pair = 0xFFFF →
      (a.flowRt f).started = true → breaks c (a.flowRt f) p = false → q = (unwrapSeq c (a.flowRt f) p.seq).toNat → q ≤ (a.flowRt f).highest →
      (q ∈ (a.flowRt f).seen → exec (.rtpPacketRx dt p) s = .next ((a.count 0x01 f 0 1).count 0x01 f 1 1)) ∧
      (q ∉ (a.flowRt f).seen → (∀ h ∈ (a.flowRt f).holes, h.seq ≠ q) →
        exec (.rtpPacketRx dt p) s = .next ((a.count 0x01 f 0 1).count 0x01 f 2 1))) ∧
    (∀ f c b, matchFlow a.lay p.mac p.vlan p.dst p.dstPort p.src p.ssrc = some (f, c) → c.type = 3 → c.pair = 0xFFFF → a.flowRt f = {} →
      p.marker = false → p.segments = [] → c.tsMode = 2 → a.freeSrcBuf c.target = some b → ∃ t, exec (.rtpPacketRx dt p) s = .next t ∧
        t.flowRt f = { started := true, highest := 4294967296 + p.seq, ssrc := p.ssrc, seen := [4294967296 + p.seq],
                       frames := [{ ts := p.ts, buf := some b, arrival := a.wallNs, capture := a.wallNs, captSrc := 1, seqs := [4294967296 + p.seq],
                                    cls := (a.lay.source c.target).cls, openedAt := a.time.upTicks }] } ∧
        t.counters = (a.count 0x01 f 0 1).counters ∧
        { t with ing := { t.ing with flows := a.ing.flows, sources := a.ing.sources }, counters := a.counters } = a)

/-- The time-outs of a flow, and of a pair as one flow (R94, R95, R98, R99), while the units that write memory run. A hole that closes counts
its packet as lost; in each open frame the pixels of its gap are concealed, and the frames that it alone kept open close. FRAME_CLOSE_TIMEOUT
closes the oldest open frame whose window has passed; an uncompressed one, where no other frame may close with it, goes to the seal unit with
its missing pixels concealed and counted. With no such hole or frame, nothing but time passes. A path of a pair whose other path delivers goes
down once, with its count for both flows. -/
def Obligations.FlowTimeouts : Prop :=
  ∀ (dt f k : Nat) (c : FlowCfg) (x : FlowRt) (s a : State), a = s.advance dt → a.writersRun = true → a.lay.flows.get {} f = c → k = flowKey c f →
    x = a.flowRt k →
    (∀ q m, m = (if c.type = 3 then 4294967296 else 65536) →
      ((∀ h ∈ x.holes, h.seq % m ≠ q % m) → exec (.holeClose dt f q) s = .next a) ∧
      (∀ (h : Hole) (b : State), x.holes.find? (fun y => decide (y.seq % m = q % m)) = some h →
        b = (fun u : State => if c.pair = 0xFFFF then u else u.settled c k h.seq)
          (State.modFlow k (fun y => { y with holes := y.holes.filter (fun z => decide (z.seq ≠ h.seq)), lost := h.seq :: y.lost }) (a.countFlow c k 3 1)) →
        exec (.holeClose dt f q) s = .next (((b.flowRt k).frames.foldl (fun u g => u.fillGap k c h.seq g) b).closeMarked k c))) ∧
    ((∀ g ∈ x.frames, a.windowPassed c x g = false) → exec (.frameCloseTimeout dt f) s = .next a) ∧
    (∀ g : OpenFrame, x.frames.find? (fun y => a.windowPassed c x y) = some g →
      exec (.frameCloseTimeout dt f) s = .next ((a.closeFrame k c g.ts).closeMarked k c) ∧
      (∀ (b missing : Nat) (fb : FrameBuf), c.type = 3 → g.buf = some b → g.dropped = false → fb = (a.srcRt c.target).bufs.get {} b → fb.writing = true →
        (∀ y ∈ x.frames, y.ts = g.ts → y = g) → (∀ y ∈ x.frames, y.ts ≠ g.ts → closable x y = false) →
        missing = ((uncoveredRuns (fb.width * fb.height) 0 g.runs).map (fun r => r.2 - r.1)).sum →
        ∃ t, exec (.frameCloseTimeout dt f) s = .next t ∧ (t.flowRt k).frames = x.frames.filter (fun y => decide (y.ts ≠ g.ts)) ∧
          (t.flowRt k).closedTs = (g.ts :: x.closedTs).take 1100 ∧
          (t.srcRt c.target).ready = (a.srcRt c.target).ready ++
            [{ buf := b, capture := g.capture, captSrc := g.captSrc, arrival := g.arrival, concealedPixels := missing, concealed := decide (0 < missing),
               origin := k, cls := g.cls, flow := some k }] ∧
          { t with ing := { t.ing with flows := a.ing.flows, sources := a.ing.sources } } = a)) ∧
    (∀ path, c.pair ≠ 0xFFFF → c.enable = true → path < 2 →
      (if path = 0 then x.arrivalB else x.arrivalA).isSome = true → (if path = 0 then x.downA else x.downB) = false →
      exec (.pathDown dt f path) s = .next (((a.count 0x01 k 6 1).count 0x01 (a.lay.flows.get {} k).pair 6 1).modFlow k (fun y =>
        if path = 0 then { y with downA := true } else { y with downB := true })))

/-- The seal of a frame (R28, R105, R106, R107, R108, R109, R111): FRAME_SEQ follows the latest, the payload check value covers the
buffer's bytes under its address, its FRAME_SEQ and its source, the content check value the bytes alone; equal content counts a run,
and the run sets FROZEN_CONTENT at the source's limit; an equal capture time sets REPEATED, but for overlay surfaces (R226). The oldest frame that is ready becomes the
latest seal, or is dropped and counted where its capture time is before the latest seal's. Either way a decoder output that was waiting for
it is waiting no more (R132). -/
def Obligations.SealWritten : Prop :=
  ∀ (dt i : Nat) (f : ReadyFrame) (rest : List ReadyFrame) (lines : List (List Byte)) (s a : State) (b : FrameBuf), a = s.advance dt → a.writersRun = true →
    (a.srcRt i).ready = f :: rest → (a.srcRt i).bufs ≠ [] → b = (a.srcRt i).bufs.get {} f.buf →
    (∀ x, (a.srcRt i).seals.head? = some x → f.capture < x.capture → exec (.frameSeal dt i lines) s = .next
      (State.sentPic i f (State.countDrop i f.flow (State.modSrc i (fun r => { r with bufs := r.bufs.erase f.buf }) (a.modSrc i (fun r => { r with ready := rest })))))) ∧
    ((∀ x, (a.srcRt i).seals.head? = some x → x.capture ≤ f.capture) → ∃ t x, exec (.frameSeal dt i lines) s = .next t ∧
      (t.srcRt i).seals = (x :: (a.srcRt i).seals).take 8 ∧ (t.srcRt i).status = { latestSeq := x.seq, lastAdvance := a.wallNs, flags := sealFlags x } ∧
      x.source = i ∧ x.seq = a.nextSealSeq i ∧ (t.srcRt i).nextSeq = some ((x.seq + 1) % 4294967296) ∧ (t.srcRt i).ready = rest ∧
      x.capture = f.capture ∧ x.captSrc = f.captSrc ∧ x.arrival = f.arrival ∧ x.sealTime = a.wallNs ∧ x.host = f.host ∧ x.concealed = f.concealed ∧
      x.bufAddr = b.addr ∧ x.width = b.width ∧ x.height = b.height ∧ x.format = b.format ∧
      x.payloadCrc = foldCrc b.addr x.seq i b.lines.flatten ∧ x.contentCrc = foldCrc 0 0 i b.lines.flatten ∧
      x.frozenRun = (match (a.srcRt i).seals.head? with | none => 0 | some y => if y.contentCrc = x.contentCrc then min (y.frozenRun + 1) 65535 else 0) ∧
      (x.frozen = true ↔ (a.lay.source i).frozenN ≠ 0 ∧ (a.lay.source i).frozenN ≤ x.frozenRun + 1) ∧
      (x.repeated = true ↔ f.drawn = none ∧ (f.repeated = true ∨ ∃ y, (a.srcRt i).seals.head? = some y ∧ y.capture = f.capture)) ∧
      (a.braid.takeBack = false → { t with ing := a.ing, counters := a.counters, pts := a.pts, stop := a.stop, braid := a.braid, dec := a.dec } = a))

/-- Captured screens (R88, R100, R103, R321, R325): a frame starts in a free buffer of the port's source at its arrival; one in an
unsupported format is counted and dropped; the link's loss is counted, and the link comes up on lanes of a locked quad; the port
answers AUX reads from its EDID while its HPD is high. A MAC's link (R325): block lock on a locked quad brings an enabled MAC up,
and its loss takes it down. -/
def Obligations.PortsAndLinks : Prop :=
  (∀ (dt p width height format : Nat) (s a : State), a = s.advance dt →
     (a.dprxLive p = true → a.writersRun = true → (a.ing.dprx.get {} p).inFrame = false →
       (dprxFormatOk format = false → ∀ i, sourceOfPort a.lay p = some i →
         exec (.dprxFrameStart dt p width height format) s = .next ((a.count 0x18 p 0 1).count 0x16 i 1 1)) ∧
       (dprxFormatOk format = true → ∀ i, sourceOfPort a.lay p = some i →
         (a.freeSrcBuf i = none → exec (.dprxFrameStart dt p width height format) s = .next (a.count 0x16 i 1 1)) ∧
         (∀ b, a.freeSrcBuf i = some b → exec (.dprxFrameStart dt p width height format) s = .next
           (State.modDprx p (fun r =>
             { r with inFrame := true, frameBuf := some b, width := width, height := height, format := format, arrival := a.wallNs,
                      origCls := (a.lay.source i).cls })
             (a.modBuf i b (fun _ => { addr := a.bufAddr i b, pitchUp := (a.srcRt i).pitchUp, width := width, height := height, format := format, writing := true })))))) ∧
     ((a.ing.dprx.get {} p).up = true → (a.ing.dprx.get {} p).inFrame = false →
       exec (.dprxLinkLoss dt p) s = .next (State.restLanes ((List.range (a.lay.dprxs.get {} p).lanes).map (fun i => (a.lay.dprxs.get {} p).lane0 + i))
         (State.count 0x18 p 2 1 (a.modDprx p (fun r => { r with up := false }))))) ∧
     exec (.dprxHpdRelease dt p) s = .next (a.modDprx p (fun r => { r with hpdLow := false })) ∧
     ((a.lay.dprxs.get {} p).enable = true → a.isFenced (104 + p) = false → a.pll (quadOf (a.lay.dprxs.get {} p).lane0) = .locked →
       (∀ j, j < (a.lay.dprxs.get {} p).lanes → (a.lane ((a.lay.dprxs.get {} p).lane0 + j)).rest = false) →
       ∃ t, exec (.dprxSymbolLock dt p) s = .next t ∧ (t.ing.dprx.get {} p).up = true ∧
         { t with ing := { t.ing with dprx := a.ing.dprx }, lanes := a.lanes } = a) ∧
     (∀ offset length, (a.lay.dprxs.get {} p).enable = true → a.isFenced (104 + p) = false → (a.ing.dprx.get {} p).hpdLow = false →
       exec (.dprxAuxRequest dt p offset length) s = .next { a with out := { a.out with dprxAux :=
         (p, (((a.lay.dprxs.get {} p).edid.take (a.lay.dprxs.get {} p).edidLen).drop offset).take length) :: a.out.dprxAux } })) ∧
  (∀ (dt m : Nat) (s a : State), a = s.advance dt → (a.lay.macs.get {} m).enable = true →
     (a.isFenced (120 + m) = false → a.pll (quadOf (a.lay.macs.get {} m).lane) = .locked → ∃ t, exec (.ethBlockLock dt m) s = .next t ∧
       m ∈ t.ing.macUp ∧ (∀ k, k ≠ m → (k ∈ t.ing.macUp ↔ k ∈ a.ing.macUp)) ∧ { t with ing := { t.ing with macUp := a.ing.macUp }, lanes := a.lanes } = a) ∧
     (m ∈ a.ing.macUp → ∃ t, exec (.ethLinkDown dt m) s = .next t ∧
       m ∉ t.ing.macUp ∧ (∀ k, k ≠ m → (k ∈ t.ing.macUp ↔ k ∈ a.ing.macUp)) ∧ { t with ing := { t.ing with macUp := a.ing.macUp }, lanes := a.lanes } = a))

/-! ### Touch -/

/-- The Thimble link (R270, R271, R274, R287). A sample instant that fails its check over the instant's data, or that does not follow the
one before, spoils the touch frame; a message is kept; at block lock the device sends ALIGN and reads the info memory; what it holds, and
whether it passes its check, decides between STARTING and FAULT; a head that does not come up is restarted up to three times; and losing
block lock takes a desk that runs to LINK_DOWN. -/
def Obligations.TouchLink : Prop :=
  ∀ (dt d : Nat) (s a : State) (k : DeskRt), a = s.advance dt → a.desk d = k →
    (∀ count data crc ok, ok = decide ((foldCrc 0 (count % 16777216) d data).toNat = crc) → (k.state = .starting ∨ k.state = .active) → k.locked = true →
      exec (.sampleInstantRx dt d count ⟨data, crc⟩) s =
      .next (State.modDesk d (fun x => { x with sampleCount := count % 16777216,
                                                bad := x.bad || !ok || decide (count % 16777216 ≠ (x.sampleCount + 1) % 16777216) })
        (if ok then a else a.count 0x10 d 3 1))) ∧
    (∀ block payload, k.state ≠ .off → k.locked = true → exec (.thimbleMessageRx dt d block payload) s =
      .next (if block = 0xB4 then a.modDesk d (fun x => { x with messages := x.messages ++ [payload % 2 ^ 56] })
        else if block = 0xD2 ∨ block = 0x96 then a else a.count 0x10 d 2 1)) ∧
    (k.state = .linkDown → k.locked = false → exec (.deskBlockLock dt d) s =
      .next (State.sendDesk d [.align 0, .read 0 (infoBytes k.cfg)]
        (State.modLane k.cfg.lane (fun x => { x with cdrLocked := true }) (a.modDesk d (fun x => { x with locked := true, messages := [] }))))) ∧
    (k.state = .linkDown → k.locked = true →
      (∀ info : HeadInfo, infoSound info = true → info.driveN = k.cfg.driveN → info.senseN = k.cfg.senseN →
        ∃ t, exec (.deskInfoReadDone dt d info) s = .next t ∧
          { t.desk d with held := k.held } = { k with info := info, restarts := 0, messages := [], sampleCount := 0, state := .starting,
                                                      inFrame := false, discardRun := 0, reportSeq := k.reportSeq + 1 } ∧
          (∀ e, e ≠ d → t.desk e = a.desk e) ∧
          { t with desks := a.desks, counters := a.counters, rings := a.rings, out := a.out, free := a.free } = a) ∧
      (∀ info : HeadInfo, infoSound info = false ∨ info.driveN ≠ k.cfg.driveN ∨ info.senseN ≠ k.cfg.senseN →
        exec (.deskInfoReadDone dt d info) s =
          .next (State.fireSrc 61 0xFFFF d (State.deskState d .fault (a.modDesk d (fun x => { x with messages := [] }))))) ∧
      (k.restarts < 3 → exec (.deskStartTimeout dt d) s =
        .next (a.modDesk d (fun x => { x with locked := false, restarts := x.restarts + 1, messages := [] }))) ∧
      (3 ≤ k.restarts → exec (.deskStartTimeout dt d) s = .next (State.fireSrc 61 0xFFFF d (a.deskState d .fault)))) ∧
    (k.locked = true → (∀ e ∈ a.desks, e.2.baseOp = none) →
      (k.state = .linkDown → exec (.deskLinkLoss dt d) s = .next (State.modLane k.cfg.lane (fun x => { x with cdrLocked := false })
        (State.modDesk d (fun x => { x with locked := false }) (a.count 0x10 d 4 1)))) ∧
      (k.state = .starting ∨ k.state = .active → ∃ t, exec (.deskLinkLoss dt d) s = .next t ∧
        (t.desk d).state = .linkDown ∧ (t.desk d).locked = false ∧ (t.desk d).contacts = (if k.state = .active then [] else k.contacts) ∧
        (∀ e, e ≠ d → t.desk e = a.desk e) ∧
        { t with desks := a.desks, counters := a.counters, rings := a.rings, out := a.out, free := a.free, lanes := a.lanes } = a))

/-- Touch frames (R272, R273, R287). A frame that is bad is discarded whole. Any other scales every node's magnitude by its sense line's
gain and filters it: the median of its five latest values moves the node's value by K/256 of the difference. The first frame after
STARTING fills the filters and makes the desk ACTIVE. The row ends before or after Cleat takes the packets that it can now. -/
def Obligations.TouchFrames : Prop :=
  ∀ (dt d noise next : Nat) (values : List Int) (s a : State) (k : DeskRt) (v : Nat → Int), a = s.advance dt → a.desk d = k → k.inFrame = true →
    v = (fun i => max 0 (min (values.getD i 0 * ((k.info.gains.getD (16 * (i / k.cfg.driveN) + k.plan) 65536 : Nat) : Int) /
      ((65536 * (if k.cfg.mode = 1 then 4 else 1) : Nat) : Int)) 65535)) →
    (k.state = .active → k.bad = true → k.discardRun < 11 → exec (.touchFrameMeasured dt d values noise next) s =
      .next (State.modDesk d (fun x => { x with inFrame := false, bad := false, discardRun := k.discardRun + 1 }) (a.count 0x10 d 1 1))) ∧
    (k.state = .starting ∨ k.state = .active → k.bad = false → k.baseOp = none → ∃ t u,
      exec (.touchFrameMeasured dt d values noise next) s = .next t ∧ (t = u ∨ t = u.drain) ∧
      (u.desk d).state = .active ∧ (u.desk d).inFrame = false ∧ (u.desk d).discardRun = 0 ∧
      (u.desk d).nodes.map (fun n => (n.ms, n.y)) =
        (if k.state = .starting then (List.range (k.cfg.driveN * k.cfg.senseN)).map (fun i =>
            (List.replicate 5 (v i), v i))
          else k.nodes.mapIdx (fun i n =>
            ((v i :: n.ms).take 5, n.y + (median ((v i :: n.ms).take 5) - n.y) * k.cfg.filtK / 256))) ∧
      (∀ e, e ≠ d → u.desk e = a.desk e) ∧
      { u with desks := a.desks, counters := a.counters, rings := a.rings, out := a.out, free := a.free } = a)

/-- Saving a baseline (R283, R381, R439). TOUCH_BASELINE begins a save of sixteen frames, or a flash write of zero offsets, on an ACTIVE
desk without contacts, masks or saves. At the end of the flash write the older copy holds the offsets under the next sequence number, and
the reply carries it and the clamps. -/
def Obligations.BaselineCommand : Prop :=
  ∀ (dt : Nat) (c : CmdHdr) (s a : State) (d op : Nat), d < 16 → op < 2 →
    (Runs specTouchBaseline c none dt s a →
      ((a.desk d).state = .active → (a.desk d).contacts = [] → (a.desk d).masks = [] → (a.desk d).baseOp = none → (∀ e ∈ a.desks, e.2.baseWrite = none) →
        exec (.touchBaseline dt c d op) s = .next (if op = 0 then a.modDesk d (fun k => { k with baseOp := some (c, 16, []) })
          else State.modDesk d (fun k => { k with baseOp := none, baseWrite := some (c, List.replicate ((a.desk d).cfg.driveN * (a.desk d).cfg.senseN) 0, 0) })
            (a.count 0x10 d 11 0))) ∧
      ((a.desk d).state ≠ .active ∨ (a.desk d).contacts ≠ [] ∨ (a.desk d).masks ≠ [] ∨ (a.desk d).baseOp.isSome = true ∨ (∃ e ∈ a.desks, e.2.baseWrite.isSome = true) →
        exec (.touchBaseline dt c d op) s = .next (a.refuse specTouchBaseline c .eBusy 0))) ∧
    (∀ us n, a = s.advance dt → (a.desk d).baseWrite = some (c, us, n) → s.procDown 0 = false → s.procDown 1 = false → ∃ u : State,
      exec (.baselineFlashWriteDone dt d) s = .next (State.drain (u.ok specTouchBaseline c
        (.words [if a.flash.fitted then ((a.flash.newestCal.map (fun x => x.seq)).getD 0) + 1 else (a.flash.newestCal.map (fun x => x.seq)).getD 0, n]) 8)) ∧
      { u with flash := a.flash, desks := a.desks } = a ∧ u.flash = (if a.flash.fitted then (if a.flash.newestIsA then
          { a.flash with calB := { valid := true, seq := (a.flash.newestCal.getD {}).seq + 1, offsets := (a.flash.newestCal.getD {}).offsets.set [] d us } }
        else { a.flash with calA := { valid := true, seq := (a.flash.newestCal.getD {}).seq + 1, offsets := (a.flash.newestCal.getD {}).offsets.set [] d us } })
        else a.flash))

/-! ### Decoding -/

/-- Decoding (R122, R124, R129, R131 to R133, R141). When an engine completes its picture, or is stopped at its picture time, the picture
leaves the engine, the context has one more and writes no buffer; then idle engines take the pictures that wait. Where a discontinuity
came during the decode, the context resynchronises instead: it keeps no picture, and waits for an IRAP picture unless it has one queued
(the model's reading, log entry 107). Where the engine came from another context and the save record reads back wrong, the picture is not
decoded, and the context resynchronises under fault source 76. When a buffer is freed, outputs that wait for one are written, and a picture
that waits for one may start. -/
def Obligations.DecodingRows : Prop :=
  ∀ (dt e c : Nat) (p : CodedPic) (r : DecodeResult) (s a : State), a = s.advance dt → a.writersRun = true → a.isFenced (32 + e) = false →
    (a.dec.engines.get {} e).pic = some (c, p) → (a.ctxRt c).cfg = a.lay.contexts.get {} c → (a.lay.contexts.get {} c).enable = true →
    (a.restoreBad e c r = false → ∃ u v : State,
      exec (.decodePictureComplete dt e r) s = .next u.dispatch ∧ exec (.decodeOverrun dt e r) s = .next v.dispatch ∧
      (∀ x : State, x = u ∨ x = v → x.dec.engines.get {} e = { (a.dec.engines.get {} e) with pic := none, last := some c } ∧
        (∀ j, j ≠ e → x.dec.engines.get {} j = a.dec.engines.get {} j) ∧
        (x.ctxRt c).writing = none ∧ (x.ctxRt c).resync = false ∧
        ((a.ctxRt c).resync = false → (x.ctxRt c).picCount = (a.ctxRt c).picCount + 1 ∧
          (x.ctxRt c).queue = (a.ctxRt c).queue ∧ (x.ctxRt c).state = (a.ctxRt c).state) ∧
        ((a.ctxRt c).resync = true → (x.ctxRt c).picCount = 0 ∧ (x.ctxRt c).dpb = [] ∧
          ((a.lay.contexts.get {} c).codec ≠ 2 →
            (∀ q ∈ (a.ctxRt c).queue, ∀ ps tb y, q.read (a.lay.contexts.get {} c).codec ps tb = some y → entryPoint y = false) →
            (x.ctxRt c).state = .waitIrap ∧ (x.ctxRt c).queue = [])) ∧
        { x with dec := { x.dec with ctxs := a.dec.ctxs, engines := a.dec.engines, alarm := a.dec.alarm, alarmSince := a.dec.alarmSince },
                 ing := a.ing, counters := a.counters } = a)) ∧
    (a.restoreBad e c r = true → a.ctxClass c ≠ 0 → a.dec.engines.wf {} = true → ∃ u : State, exec (.decodePictureComplete dt e r) s = .next (u.dispatch.fireSrc 76 0xFFFF c) ∧
      u.dec.engines.get {} e = { (a.dec.engines.get {} e) with pic := none, last := none } ∧
      (u.ctxRt c).dpb = [] ∧ (u.ctxRt c).picCount = 0 ∧ (u.ctxRt c).writing = none ∧ (u.ctxRt c).resync = false ∧
      ((a.lay.contexts.get {} c).codec ≠ 2 →
        (∀ q ∈ p :: (a.ctxRt c).queue, ∀ ps tb y, q.read (a.lay.contexts.get {} c).codec ps tb = some y → entryPoint y = false) →
        (u.ctxRt c).state = .waitIrap ∧ (u.ctxRt c).queue = [])) ∧
    (∀ b : State, b = a.outputPics c (a.ctxRt c).reorder (a.ctxRt c).dpb.length →
      exec (.poolBufferFreed dt c) s = .next (if (b.ctxRt c).waiting then b.dispatch else b) ∧
      (((a.ctxRt c).dpb.filter (fun q => q.outputPending && !q.sent)).length ≤ (a.ctxRt c).reorder → b = a))

/-! ### Composition -/

/-- The strands (R156, R163 to R168). The front tile of the running pass: with both strands comparing and agreeing, the holder writes it
and the pass goes on; a flag of the holder, or a mismatch, moves the hold and the tile is computed again, unless the other strand is on
probation, which then leaves after the holder has written; a flag of the other strand alone makes it leave; both flags compute the tile
once more, and a second time abandons the pass. A single strand writes alone, and a flag of it computes the tile once more. What it
charges to a strand is reported to Bowline (`reportStrands`), and a take-back that is due comes when the tile is decided. The move
completes with its count and event; a pass whose tiles are all written counts; a strand that passes its self-test waits to join, and one
that fails is fenced. -/
def Obligations.CompositionRows : Prop :=
  ∀ (dt h row col x na nb : Nat) (mismatch fa fb : Bool) (errs : List Nat) (p : Pass) (rest : List Nat) (s a b u : State) (b0 : Braid), a = s.advance dt →
    a.writersRun = true → a.braid = b0 → b0.current = some (rowKey h row) → (a.row (rowKey h row)).running = some p →
    (p.todo = col :: rest → b0.switching = none → b0.strand b0.hold ≠ .fenced → ∀ both n hf of,
      both = (b0.strandA.compares && b0.strandB.compares) → n = b0.troubles both mismatch fa fb →
      hf = (if b0.hold = 0 then fa else fb) → of = (if b0.hold = 0 then fb else fa) →
      b = State.count 0x04 0 0 n { a with braid := { b0.noteCorrected both na nb with disagreed := b0.disagreed || decide (n ≠ 0) } } →
      u = (if hf ∧ (of ∨ both = false) then (if b0.retry = some (rowKey h row, col) then b.abandonPass (rowKey h row)
            else { b with braid := { b.braid with retry := some (rowKey h row, col) } })
          else if both ∧ (hf ∨ (of = false ∧ mismatch ∧ (b0.strand (otherStrand b0.hold)).onProbation = false)) then
            State.strandLeave b0.hold { b with braid := { b.braid with switching := some (otherStrand b0.hold), rework := some (rowKey h row, col), retry := none } }
          else if both ∧ (of ∨ mismatch) then State.strandLeave (otherStrand b0.hold) (b.writeTile (rowKey h row) col errs both)
          else b.writeTile (rowKey h row) col errs both) →
      exec (.tileComputed dt h row mismatch ⟨fa, na⟩ ⟨fb, nb⟩ errs) s = .next ((u.reportStrands (b0.charged both mismatch fa fb)).tileBoundary)) ∧
    (∀ both, p.todo = col :: rest → ∃ t, t = a.writeTile (rowKey h row) col errs both ∧
      (t.row (rowKey h row)).running = some { p with todo := rest, wrote := p.wrote ++ [((a.row (rowKey h row)).writeSlot col, col)] } ∧
      t.braid.retry = none ∧ { t with braid := a.braid, counters := a.counters } = a) ∧
    (p.todo = [] → exec (.passComplete dt h row) s = .next (State.schedule (State.releaseAll (
      (fun u : State => { u with braid := { u.braid with current := none } })
        ((fun u : State => if p.first then u else u.count 0x03 h 1 1) (State.modRow (rowKey h row) (RowRt.complete p) (a.count 0x03 h 0 1))))))) ∧
    (b0.switching = some x → exec (.strandSwitch dt) s = .next (State.event 0x0009 x a.raster.frame
      (State.count 0x04 0 1 1 { a with braid := { b0 with hold := x, switching := none } }))) ∧
    (b0.strand x = .selfTest → exec (.strandSelftestDone dt x true) s = .next { a with braid := b0.setStrand x .passed } ∧
      exec (.strandSelftestDone dt x false) s = .next (State.strandFence x (State.fireSrc (44 + x) (44 + x) 0xFFFF (a.count 0x04 0 3 1))))

/-! ### Telemetry points and overlays -/

/-- Telemetry points (R91, R218 to R221, R225 to R227). A packet that no type-4 flow takes does nothing. The datagram is read from the
packet's bytes: one whose check fails, that is malformed, or whose number was accepted before is counted and changes nothing else but the
flow's count of packets. The first one that a flow accepts starts the flow; its record replaces the stored one when its time is later, or
equal with a sequence number up to 32,767 ahead, and otherwise counts as old (shown for one record in the flow's range under
PF_TIME_MODE 1). HOST_POINT_SLOT takes a slot of ring 18 and clamps its record's time to the arrival. When the drawing of the surface with
the earliest window's end ends, it goes to the seal unit with T_DRAW as its capture time, and its stale and void instances are counted; one
that is not sealed by its window's end counts as late. -/
def Obligations.PointRows : Prop :=
  ∀ (dt : Nat) (s a : State) (wins : PointRec → Nat → Bool), a = s.advance dt →
    wins = (fun r t => decide ((a.pts.table.get {} r.index).time < t ∨ ((a.pts.table.get {} r.index).time = t ∧
      1 ≤ (r.seq + 65536 - (a.pts.table.get {} r.index).seq % 65536) % 65536 ∧ (r.seq + 65536 - (a.pts.table.get {} r.index).seq % 65536) % 65536 ≤ 32767))) →
    (∀ g : PointDatagram, (∀ e, matchFlow a.lay g.mac g.vlan g.dst g.dstPort g.src 0 = some e → e.2.type ≠ 4) → exec (.pointDatagramRx dt g) s = .next a) ∧
    (∀ (g : PointDatagram) (c : FlowCfg) (f k : Nat) (d : Datagram) (b : State), matchFlow a.lay g.mac g.vlan g.dst g.dstPort g.src 0 = some (f, c) →
      k = flowKey c f → d = readDatagram f g.payload → b = a.count 0x01 f 0 1 → c.type = 4 → a.macLive g.mac = true → a.writersRun = true →
      (d.crcOk = false → exec (.pointDatagramRx dt g) s = .next (b.count 0x08 k 1 1)) ∧
      (d.crcOk = true → malformed d = true → exec (.pointDatagramRx dt g) s = .next (b.count 0x08 k 2 1)) ∧
      (d.crcOk = true → malformed d = false → d.seq ∈ (a.pts.flows.get {} k).accepted → exec (.pointDatagramRx dt g) s = .next (b.count 0x08 k 3 1)) ∧
      (∀ r u, d.crcOk = true → malformed d = false → (a.pts.flows.get {} k).started = false → (a.pts.flows.get {} k).accepted = [] → d.recs = [r] →
        c.pfIndexBase ≤ r.index → r.index < c.pfIndexBase + c.pfIndexCount → c.pfTimeMode = 1 →
        u = State.count 0x08 k 4 0 (State.count 0x08 k 0 1
          { b with pts := { a.pts with flows := a.pts.flows.set {} k { started := true, highest := 4294967296 + d.seq, accepted := [d.seq] } } }) →
        exec (.pointDatagramRx dt g) s = .next (if wins r a.wallNs
          then { u with pts := { u.pts with table := a.pts.table.set {} r.index { value := r.value, flags := r.flags, seq := r.seq, time := a.wallNs } } }
          else u.count 0x08 k 7 1))) ∧
    (∀ (count : Nat) (rsv recs slot : List Byte) (u : State), slot = leBytes 2 count ++ rsv ++ recs → (a.ring 18).runs = true → idxDiff (a.ring 18).producer (a.ring 18).wbConsumer ≠ 0 →
      a.writersRun = true → a.pins.fetchStopped = false →
      u = a.setRing 18 { a.ring 18 with wbConsumer := ((a.ring 18).wbConsumer + 1) % 4294967296, wbGeneration := a.snap.generation } →
      (numAt slot 0 2 = 0 ∨ 2 < numAt slot 0 2 ∨ numAt slot 2 14 ≠ 0 ∨ (∃ r ∈ slotRecords slot, r.rsvBad = true) →
        exec (.hostPointSlot dt count rsv recs) s = .next (u.count 0x09 0 3 1)) ∧
      (∀ r v t, numAt slot 0 2 = 1 → numAt slot 2 14 = 0 → slotRecords slot = [r] → r.rsvBad = false → t = min r.time a.wallNs →
        v = (if a.wallNs < r.time then u.count 0x09 0 2 1 else u) →
        exec (.hostPointSlot dt count rsv recs) s = .next (if wins r t
          then { v with pts := { v.pts with table := a.pts.table.set {} r.index { value := r.value, flags := r.flags, seq := r.seq, time := t } } }
          else v.count 0x09 0 1 1))) ∧
    (∀ h d rest errs gs f, (a.pts.overlays.get {} h).drawing = d :: rest → a.pts.overlays.wf {} = true → a.ing.sources.wf {} = true → a.writersRun = true → a.drawsNext h d = true →
      gs = a.drawnGlyphs (a.layoutFor d.frame) h d.at_ errs →
      f = { buf := d.buf, capture := d.at_, captSrc := 4, arrival := d.at_, origin := h, cls := (a.lay.source (overlaySource h)).cls,
            drawn := some (d.frame, d.half, d.tag) } → ∃ u : State,
        exec (.overlaySurfaceDone dt h errs) s = .next (u.sealFrame (overlaySource h) f) ∧
        u.pts.overlays.get {} h = { a.pts.overlays.get {} h with drawing := rest } ∧
        u.counters = (State.setCounter 0x0A h 4 (gs.filter (fun x => decide (x.variant = .void))).length
          (State.setCounter 0x0A h 3 (gs.filter (fun x => decide (x.variant = .stale))).length
            (if (∀ x, (a.srcRt (overlaySource h)).seals.head? = some x → x.capture ≤ d.at_) then a.count 0x0A h 0 1 else a))).counters ∧
        { u with ing := a.ing, pts := a.pts, counters := a.counters } = a) ∧
    (∀ h d l, (a.pts.overlays.get {} h).drawing = d :: l → d.late = false →
      rowBeginPos ((a.layoutFor d.frame).head h) d.frame d.half 0 ≤ (a.raster.pos : Int) →
      exec (.overlayWindowEnd dt h) s = .next (State.count 0x0A h 1 1
        { a with pts := { a.pts with overlays := a.pts.overlays.set {} h { a.pts.overlays.get {} h with drawing := { d with late := true } :: l } } }))

/-! ### Heads and the Stopper -/

/-- Band rows (R175 to R187, R204, R205, R213). A bound row that is next in order is fetched while the line buffer has room; one that is not
there HEAD_URGENT_LINES before it is due is fetched urgently and counted. When a LIVE head sends its next row, here not its frame's last,
with no fault of the checkers or the line buffer, the row before it has left; a row in time is judged and leaves with its patterns,
captions and ribbon; where the row is not there the head is ABORTED and counted, and the row's lines leave in the abort colour. -/
def Obligations.BandRows : Prop :=
  ∀ (dt h j : Nat) (o : BandObs) (s a : State) (x : HeadRt), a = s.advance dt → a.headRt h = x →
    (∀ g k, g = a.bandFrame h j → k = bandKey g.1 g.2 j → x.linked = true → x.startPos.isSome = true → a.isFenced h = false → j < bandRows x.cfg →
      x.fetches g j = true →
      ((a.row (rowKey h (j / 8))).bound = true → ((a.row (rowKey h (j / 8))).frame, (a.row (rowKey h (j / 8))).half) = g → x.inOrder g j = true →
        x.fetched.length < 524288 / (32 * x.cfg.hActive) →
        exec (.bandRowFetchDone dt h j) s = .next (a.modHead h (fun y => { y with fetched := insertSorted k y.fetched, urgent := removeNat k y.urgent }))) ∧
      (k ∉ x.fetched → k ∉ x.urgent → a.urgentAt h g j ≤ (a.wallNs : Int) →
        exec (.fetchUrgent dt h j) s = .next (State.count 0x05 h 3 1 (a.modHead h (fun y => { y with urgent := insertSorted k y.urgent }))))) ∧
    (∀ (w : State) (y : HeadRt) (k : Nat), w = a.passLines h → y = w.headRt h → k = bandKey y.frame y.half j → a.dev ≠ .safe → a.bandDue h j = true →
      w.bandDue h j = true → y.cfg.enable = true → y.state = .live → w.dev ≠ .safe → w.isFenced (46 + h / 8) = false → j + 1 < bandRows y.cfg →
      (∀ u : State, k ∈ y.fetched → (∀ v ∈ w.judgeBand h j o, v.disagree = false) → o.lbufErrors = [] →
        u = w.recordBand h j (w.stop.policy.get [] h) (w.judgeBand h j o) → ∃ t, exec (.bandRowEmit dt h j o) s = .next t ∧
        t.headRt h = { y with emitted := j + 1, fetched := removeNat k y.fetched, urgent := removeNat k y.urgent, glassBand := j, litAt := w.time.upTicks,
                              litAbort := false, lit := emittedBand w.boot.palette h y u.stop.captions ((w.judgeBand h j o).map (fun v => v.view)) .live j } ∧
        { t with heads := w.heads, stop := w.stop, counters := w.counters } = w) ∧
      (k ∉ y.fetched → ∃ t, exec (.bandRowEmit dt h j o) s = .next t ∧
        (t.headRt h).state = .aborted ∧ (t.headRt h).abortedNow = true ∧ (t.headRt h).allInTime = false ∧ (t.headRt h).emitted = j + 1 ∧
        (t.headRt h).glassBand = j ∧
        (t.headRt h).lit = List.replicate (min 8 (y.cfg.vActive - 8 * j)) (List.replicate y.cfg.hActive (paletteAt w.boot.palette 5)) ∧
        { t with heads := w.heads, stop := w.stop, counters := w.counters } = w))

/-- The age checks (R178 to R180, R187, R188), where at least one of the unit's two checkers has no fault in the tile. An entry whose capture
time lies more than its window's stale limit back is marked: every pixel of it takes STALE, DEAD or UNVERIFIED; past the dead limit it takes
DEAD or UNVERIFIED; one without a seal takes DEAD or UNVERIFIED; and an entry that no policy line knows is UNVERIFIED. -/
def Obligations.AgeChecks : Prop :=
  ∀ (s : State) (pol : List PolicyEntry) (h row col f half b : Nat) (o : BandObs) (t : TileResult) (w : Word) (c : Contrib) (v : TileView),
    (s.row (rowKey h row)).committed col = some t → v = (s.judgeAt pol h row col f half b o).view →
    (∀ x ∈ o.faultP, x.col ≠ col) ∨ (∀ x ∈ o.faultQ, x.col ≠ col) →
    t.tpr.contribs[w.toNat / 1073741824]? = some c → c.background = false →
    (∀ p, lineOf pol c.window = some p →
      (c.capture + p.staleMs * 1000000 < s.wallNs → ∃ m ∈ shownMarks (v.setOf w), m = .stale ∨ m = .dead ∨ m = .unverified) ∧
      (c.capture + p.deadMs * 1000000 < s.wallNs → ∃ m ∈ shownMarks (v.setOf w), m = .dead ∨ m = .unverified)) ∧
    (c.noSeal = true → ∃ m ∈ shownMarks (v.setOf w), m = .dead ∨ m = .unverified) ∧
    (c.noSeal = false → lineOf pol c.window = none → shownMarks (v.setOf w) = [.unverified])

/-- Links (R52, R207 to R213, R331). AUX jobs of a head run one after another, each begun when it comes to the front: HPD pulses and HPD high
add one, a reply ends it, and a timeout begins it again twice and then counts a failure. A successful attempt on ready lanes takes the
head from TRAINING to STARTING with its trained rate, lanes and record; the third failure, or an unplug, takes it to DOWN; a link status
that shows a loss takes it to TRAINING. -/
def Obligations.HeadTraining : Prop :=
  ∀ (dt h : Nat) (s a : State) (x : HeadRt) (jobs : List (AuxJob × Nat) → State), a = s.advance dt → a.headRt h = x → x.cfg.enable = true →
    jobs = (fun l => { a.modHead h (fun y => { y with aux := l }) with
      out := (match l with | [] => a.out | j :: _ => { a.out with aux := (h, j.1.code) :: a.out.aux }) }) →
    (x.hpd = true → exec (.hpdIrq dt h) s = .next
      { State.modHead h (fun y => { y with aux := y.aux ++ [(.linkStatus, 0)] }) (a.count 0x05 h 8 1) with
        out := if x.aux = [] then { a.out with aux := (h, 0) :: a.out.aux } else a.out }) ∧
    (x.hpd = true → x.linked = true ∨ x.state = .training → ∃ t, exec (.hpdUnplug dt h) s = .next t ∧
      (t.headRt h).state = .down ∧ (t.headRt h).hpd = false ∧ (t.headRt h).hpdWasLow = true ∧ (t.headRt h).rate = 0xFF ∧ (t.headRt h).lanes = 0 ∧
      (t.headRt h).aux = [] ∧ (t.headRt h).edid = [] ∧
      { t with heads := a.heads, lanes := a.lanes, counters := a.counters, out := { t.out with auxWrites := a.out.auxWrites } } = a) ∧
    (x.hpd = false → exec (.hpdAsserted dt h) s = .next
      { State.modHead h (fun y => { y with hpd := true, aux := y.aux ++ [(.capabilities, 0)] }) a with
        out := if x.aux = [] then { a.out with aux := (h, 1) :: a.out.aux } else a.out }) ∧
    (∀ d n l, x.aux = (.linkStatus, n) :: l →
      (d.linkLost = false → exec (.auxReply dt h d) s = .next (State.modHead h (fun y => { y with dpcdStatus := d.status }) (jobs l))) ∧
      (d.linkLost = true → x.linked = true → x.hpd = true → exec (.auxReply dt h d) s = .next (State.headTrain h
        (State.count 0x05 h 7 1 (State.modHead h (fun y => { y with dpcdStatus := d.status }) (jobs l)))))) ∧
    (∀ d n l, x.aux = (.capabilities, n) :: l →
      exec (.auxReply dt h d) s = .next (State.modHead h (fun y => { y with dpcdCaps := d.caps, lttpr := d.lttpr, edid := d.edid }) (jobs l))) ∧
    (∀ job n l, x.aux = (job, n) :: l →
      (n < 2 → exec (.auxTimeout dt h) s = .next (jobs ((job, n + 1) :: l))) ∧
      (2 ≤ n → ∀ u : State, u = { jobs l with counters := (a.count 0x05 h 10 1).counters } →
        exec (.auxTimeout dt h) s = .next (if job = .train then u.attemptFail h else u))) ∧
    (x.state = .training → x.attempting = true →
      (x.aux = [] → exec (.auxTimeout dt h) s = .next (jobs [(.train, 1)])) ∧
      (∀ presets, x.hpd = true → a.lanesReady x.cfg = true → exec (.trainingSuccess dt ⟨h, presets⟩) s = .next (State.count 0x05 h 5 1 (State.auxUntrain h (a.modHead h (fun y =>
        { y with state := .starting, idle := true, n := 0, attempting := false, attempts := 0, rate := x.cfg.linkRate, lanes := x.cfg.lanes,
                 trained := some (a.trainedAs h presets) }))))) ∧
      (x.attempts < 2 → ∀ u : State, u = State.auxUntrain h (a.modHead h (fun y => { y with attempting := false, attempts := x.attempts + 1 })) →
        exec (.trainingAttemptFail dt h) s = .next u ∧ exec (.trainingAttemptTimeout dt h) s = .next u) ∧
      (2 ≤ x.attempts → ∃ t, exec (.trainingAttemptFail dt h) s = .next t ∧ exec (.trainingAttemptTimeout dt h) s = .next t ∧
        (t.headRt h).state = .down ∧ (t.headRt h).rate = 0xFF ∧ (t.headRt h).lanes = 0 ∧
        { t with heads := a.heads, lanes := a.lanes, counters := a.counters, out := a.out } = a)) ∧
    (x.state = .training → x.attempting = false → x.hpd = true →
      exec (.trainingRetry dt h) s = .next (State.trainWrites h (a.modHead h (fun y => { y with attempting := true }))))

/-! ### Lanes and network time -/

/-- Lanes and quads (R318, R323 to R325, R333, R334). A lane that its user needs leaves Rest with a burst of 256 UI, or of 4,096 UI after
more than 10 ms or when its PLL was lost; a receive lane leaves Rest at the end of electrical idle; a PLL locks; a PLL that unlocks or
does not lock in time is counted, its lanes lose clock recovery, and its fault source fires; clock recovery lost outside Rest counts. -/
def Obligations.LaneRows : Prop :=
  ∀ (dt q : Nat) (s a : State), a = s.advance dt →
    ((a.lane q).rest = true → shouldRest a q = false → ∀ long, long = ((a.lane q).longNext || decide (5000000 < a.time.upTicks - (a.lane q).restSince)) →
      exec (.restExitRequest dt q) s = .next ((fun u : State => if long then u.count 0x14 q 4 1 else u)
        { a.modLane q (fun x => { x with rest := false, longNext := false, burstUi := if long then 4096 else 256 }) with
          out := { a.out with bursts := (q, if long then 4096 else 256) :: a.out.bursts } })) ∧
    ((a.lane q).rest = true → a.lay.dprxs.any (fun e => e.2.enable && dprxHasLane e.2 q) = true →
      exec (.laneIdleExit dt q) s = .next (a.modLane q (fun x => { x with rest := false, longNext := false }))) ∧
    (a.pll q = .locking ∨ a.pll q = .lost → exec (.quadPllLock dt q) s = .next (a.setPll q .locked)) ∧
    (∃ b : State, (a.pll q = .locking → exec (.quadPllLockTimeout dt q) s = .next (State.fireSrc (80 + q) (80 + q) 0xFFFF b)) ∧
      (a.pll q = .locked → exec (.quadPllUnlock dt q) s = .next (State.fireSrc (80 + q) (80 + q) 0xFFFF b)) ∧ b.pll q = .lost ∧
      { b with ing := a.ing, heads := a.heads, desks := a.desks, lanes := a.lanes, counters := a.counters, rings := a.rings, out := a.out,
               free := a.free } = a) ∧
    ((a.lane q).rest = false → (a.lane q).cdrLocked = true →
      exec (.cdrLoss dt q) s = .next (State.count 0x14 q 2 1 (a.modLane q (fun x => { x with cdrLocked := false }))))

/-- PTP (R256 to R259) and pulses (R264, R265), in a domain that runs. The Lay unit's timestamps are within 4 ns of the domain's counter. A
Sync of the selected master, or the Follow_Up of its two-step Sync, forms a sample once an exchange has completed: its offset and mean
path delay are R258's, and it moves the domain's state as R259 says. Announce messages take part in the selection; a master that is silent
for its time goes, and is replaced by another or the domain is lost; holdover ends in ABSENT when its time is over. An edge of an input is
recorded with both domains' times and wall time, and a periodic pulse's edges leave when their times have come. -/
def Obligations.NetworkTime : Prop :=
  ∀ (dt d : Nat) (s a : State) (x : Domain) (at_ : Int), a = s.advance dt → a.time.domain d = x → a.ptpRuns d = true → at_ = (a.stamp d).1 →
    ((x.ns : Int) - 4 ≤ at_ ∧ at_ ≤ (x.ns : Int) + 4) ∧
    (∀ (m sy : PtpMsg) (j : Instr) (b : State) (e : Nat × Int × Int × Int) (o delay : Int) (near : Bool), a.ptpDomain m = some d → x.exchange = some e →
      (j = .ptpSyncRx dt m ∧ m.twoStep = false ∧ m.master ≠ 0 ∧ x.gm = m.master ∧ sy = { m with receive := at_ } ∧
          b = { a.count 0x0C d 0 1 with free := a.free + 1 }) ∨
        (j = .followUpRx dt m ∧ b = a.count 0x0C d 1 1 ∧ ∃ p, x.pendingSync = some p ∧ p.master = m.master ∧ p.seqId = m.seqId ∧
          sy = { p with origin := m.origin, correction := p.correction + m.correction }) →
      e.1 = m.master → delay = (((sy.receive - sy.origin) * 65536 - sy.correction) + ((e.2.2.1 - e.2.1) * 65536 - e.2.2.2)) / 2 →
      o = (sy.receive - sy.origin) * 65536 - sy.correction - delay → near = decide (o.natAbs ≤ (a.domainCfg d).lockNs * 65536) →
      ∃ y g, exec j s = .next (State.count 0x0C d 7 g (State.count 0x0C d 6 1 (b.modDomain d (fun _ => y)))) ∧
        y.sampleSeq = x.sampleSeq + 1 ∧
        y.samples = ({ seq := x.sampleSeq + 1, syncId := sy.seqId, gm := sy.master, t2 := sy.receive, offset := o, delay := delay } :: x.samples).take 64 ∧
        y.state = (if x.state = .locked then (if near = false ∧ 3 ≤ x.bad then .holdover else .locked)
          else if near = true ∧ 15 ≤ x.good then .locked else x.state) ∧
        y.units = x.units ∧ y.incr = x.incr ∧ y.gm = x.gm ∧ y.masters = x.masters ∧ y.exchange = x.exchange ∧ y.delayReq = x.delayReq) ∧
    (∀ m : PtpMsg, a.ptpDomain m = some d →
      (x.gm ≠ m.master → exec (.ptpSyncRx dt m) s = .next (a.count 0x0C d 0 1)) ∧
      (m.master ≠ 0 → x.gm = m.master → m.twoStep = true → exec (.ptpSyncRx dt m) s = .next
        (State.modDomain d (fun y => { y with lastSync := some a.time.upTicks, syncFrom := a.time.upTicks, pendingSync := some { m with receive := at_ } })
          { a.count 0x0C d 0 1 with free := a.free + 1 })) ∧
      (∀ (b u : State) (g : Nat), m.master ≠ 0 → b = State.modDomain d (fun y => { y with
            masters := y.masters.put m.master m.quality
            heard := y.heard.put m.master (a.time.upTicks, m.interval * 500000) }) (a.count 0x0C d 2 1) → b.selected d = some g →
        u = (if x.gm = g then b else (fun v : State => if x.gm = 0 then v else v.count 0x0C d 8 1) (b.modDomain d (fun y =>
          { y with gm := g, good := 0, bad := 0, pendingSync := none, syncFrom := a.time.upTicks }))) →
        exec (.announceRx dt m) s = .next (if g = m.master then u.modDomain d (fun y => { y with utcOffset := m.utcOffset }) else u)) ∧
      (∀ q : Nat × Int, x.delayReq = some q → q.1 = m.master → exec (.delayRespRx dt m) s = .next
        (State.modDomain d (fun y => { y with delayReq := none, exchange := some (m.master, q.2, m.receive, m.correction) }) (a.count 0x0C d 3 1)))) ∧
    (x.gm ≠ 0 → exec (.delayReqTx dt d) s = .next (State.send (a.domainCfg d).mac 6
      [d, x.gm, (a.domainCfg d).transport, (a.domainCfg d).domainNum, (a.domainCfg d).vlan, (a.domainCfg d).delayUnicast, (a.domainCfg d).dscp]
      (State.count 0x0C d 4 1 (State.modDomain d (fun y => { y with delayReq := some (x.gm, at_) }) { a with free := a.free + 1 })))) ∧
    exec (.mgmtDiscard dt d) s = .next (a.count 0x0C d 5 1) ∧
    (∀ (j : Instr) (since limit : Nat) (b : State), x.gm ≠ 0 →
      (j = .syncTimeout dt d ∧ since = x.syncFrom ∧ limit = (a.domainCfg d).syncTimeoutMs * 500000) ∨
        (j = .announceTimeout dt d x.gm ∧ (since, limit) = x.heard.get (0, 0) x.gm) →
      b = a.modDomain d (fun y => { y with masters := y.masters.erase x.gm, heard := y.heard.erase x.gm }) →
      (a.time.upTicks < since + limit → exec j s = .next a) ∧
      (since + limit ≤ a.time.upTicks →
        (b.selected d = none → exec j s = .next (b.domainLost d)) ∧
        (∀ g, b.selected d = some g → g ≠ x.gm → exec j s = .next (State.count 0x0C d 8 1 (b.modDomain d (fun y =>
          { y with gm := g, good := 0, bad := 0, pendingSync := none, syncFrom := a.time.upTicks })))))) ∧
    exec (.holdoverExpiry dt d) s = .next (if x.state = .holdover ∧ x.holdFrom + (a.domainCfg d).holdoverS * 500000000 ≤ a.time.upTicks then
      a.modDomain d (fun y => { y with state := .absent, good := 0, bad := 0 }) else a) ∧
    (∀ i falling, i < 2 → (a.lay.pulses.get {} i).tpiEdge = 3 ∨ (a.lay.pulses.get {} i).tpiEdge = (if falling then 2 else 1) →
      (a.time.tpiLast.get 0 i = 0 ∨ a.time.tpiLast.get 0 i + 50 ≤ a.time.upTicks + 1) →
      ((a.time.tpi.get [] i).length < 16 → exec (.tpiEdge dt i falling) s = .next
        { a with time := { a.time with
            tpiLast := a.time.tpiLast.set 0 i (a.time.upTicks + 1),
            tpi := a.time.tpi.set [] i (a.time.tpi.get [] i ++ [{ falling := falling, td0 := a.time.td0.ns, td1 := a.time.td1.ns, wall := a.wallNs }]) } }) ∧
      (16 ≤ (a.time.tpi.get [] i).length → exec (.tpiEdge dt i falling) s =
        .next (State.count 0x0E i 0 1 { a with time := { a.time with tpiLast := a.time.tpiLast.set 0 i (a.time.upTicks + 1) } }))) ∧
    (∀ (n : Nat) (c : PulseCfg) (p : TpoRt) (now : Nat), n < 4 → c = a.lay.pulses.get {} (2 + n) → p = a.time.tpo.get {} n → c.mode = 2 → p.done = false →
      now = (if c.base = 0 then a.time.td0.ns else if c.base = 1 then a.time.td1.ns else a.wallNs) →
      (p.level = false → c.start + p.next * c.period ≤ now → exec (.tpoPulse dt n) s = .next (State.count 0x0F n 0 1
        { a with time := { a.time with tpo := a.time.tpo.set {} n { p with level := true } }, out := { a.out with pulses := (n, decide (c.pol ≠ 1)) :: a.out.pulses } })) ∧
      (p.level = true → c.start + p.next * c.period + c.width ≤ now → exec (.tpoPulse dt n) s = .next
        { a with time := { a.time with tpo := a.time.tpo.set {} n { next := p.next + 1 } }, out := { a.out with pulses := (n, decide (c.pol = 1)) :: a.out.pulses } }))

/-! ### Encoding -/

/-- Encoding (R236, R240 to R244, R246 to R249). While the encoders run, a row that the engine of a context has coded is discarded where it
would leave less than the skip size of the rows after it, and the rest of the picture is coded skip-only; another is accepted: it is
filled where its rate control needs filler, its NAL units, QP and CTU modes are those of its settings, and its packets join the launch
queue of the context's MAC at the times of R248. A late row is counted and taken as a skip row; the last row seals the picture. A tile row
is read once for a region, not before its bind, and one that cannot be read is counted. A packet launches when its time has come and its
MAC is free, is dropped when the link is down, and slips while the MAC still sends. -/
def Obligations.EncodingRows : Prop :=
  ∀ (dt c m i row : Nat) (o : RowObs) (r : EncRt) (p : EncPic) (e : LaunchEntry) (t : List LaunchEntry) (s a : State), a = s.advance dt →
    (a.writersRun = true → a.encRt c = r → r.pic = some p →
      ((p.idr = true ∨ ∀ y ∈ p.unread r.cfg p.row, a.encWindow (r.cfg.regions.getD y.1 {}).head y.2 p.start ≠ .late) →
        (∀ g, r.engine = some g → a.codingOn g = some c → p.skipAll = false → p.idr = false →
            p.budget < p.spent + rowSize r p o false + skipSize r.cfg * (encRows r.cfg - 1 - p.row) →
          ∃ u : State, exec (.encodeRowComplete dt c o) s = .next u ∧ { u with enc := { u.enc with coding := a.enc.coding } } =
            (fun u : State => if p.floor then u else u.count 0x0B c 1 1) (a.modEnc c (fun _ => { r with pic := some { p with floor := true, skipAll := true } }))) ∧
        (∀ (j : Instr) (skip : Bool) (fill n : Nat) (ns : List (List Byte)),
          (j = .encodeRowComplete dt c o ∧ skip = p.skipAll ∧ (∃ g, r.engine = some g ∧ a.codingOn g = some c) ∧ (p.skipAll = true ∨ p.idr = true ∨
              p.spent + rowSize r p o false + skipSize r.cfg * (encRows r.cfg - 1 - p.row) ≤ p.budget)) ∨
            (j = .rowLate dt c o ∧ skip = true ∧ p.idr = false) →
          fill = fillerSize r.cfg p (rowSize r p o skip) →
          ns = headPackets r.cfg (headNals r p o) ++
            (sliceNals r.cfg p o skip ++ (if fill = 0 then [] else [fillerNal r.cfg fill])).flatMap (nalPackets r.cfg) → n = ns.length →
          (p.row + 1 ≠ p.rows r.cfg → ∃ (u : State) (q : EncPic) (low : Bool), exec j s = .next u ∧
            u.encRt c = { r with pic := some q, restart := r.restart || o.refError, signalled := sentParams r p, rtpSeq := (u.encRt c).rtpSeq } ∧
            (r.rtpSeq < 65536 → (u.encRt c).rtpSeq = (r.rtpSeq + n) % 65536) ∧
            q =
              { p.takeRow r.cfg p.row with
                row := p.row + 1
                spent := p.spent + rowSize r p o skip + fill
                floor := p.floor || low
                skipped := (if skip then p.skipped ++ [p.row] else p.skipped)
                sizes := p.sizes ++ [(rowSize r p o skip, rowQp r.cfg p o)]
                bytes := p.bytes ++ ((headNals r p o ++ sliceNals r.cfg p o skip ++ (if fill = 0 then [] else [fillerNal r.cfg fill])).map startCoded).flatten
                modes := p.modes ++ [rowModes r p o skip] } ∧
            (low = true ↔ p.floor = false ∧ p.skipAll = false ∧ skip = false ∧
              p.budget < p.spent + rowSize r p o skip + fill + floorSum r.cfg r.prevRows (p.row + 1)) ∧
            (∀ k, k ≠ c → u.encRt k = a.encRt k) ∧ { u with enc := a.enc, counters := a.counters } = a ∧
            (∀ y, y < n → (a.enc.queues.get [] r.cfg.mac).length + 2 * n ≤ 4096 →
              ∃ x ∈ (u.enc.queues.get [] r.cfg.mac : List LaunchEntry), x.ctx = c ∧ x.second = false ∧ x.at_ = launchAt r.cfg p p.row y n ∧ x.payload = ns.getD y [] ∧
                x.rtpTs = a.rtpStamp p ∧ x.marker = false ∧ x.queuedAt = a.wallNs)) ∧
          (p.row + 1 = p.rows r.cfg → (a.lay.encoders.get {} c).enable = true → ∃ (u : State) (x : Seal), exec j s = .next u ∧
            (u.encRt c).state = .running ∧ (u.encRt c).pic = none ∧ (u.encRt c).picCount = r.picCount + 1 ∧ (u.encRt c).seals = (x :: r.seals).take 8 ∧
            (u.encRt c).nextSeq = some ((x.seq + 1) % 4294967296) ∧
            x.source = 1024 + c ∧ x.seq = r.nextSeq.getD (a.raster.frame % 4294967296) ∧ x.capture = p.minCapture.getD p.startNs ∧ x.arrival = p.startNs ∧
            x.sealTime = a.wallNs ∧ x.width = r.cfg.width ∧ x.height = r.cfg.height ∧
            x.payloadCrc = foldCrc 0 x.seq (1024 + c)
              (p.bytes ++ ((headNals r p o ++ sliceNals r.cfg p o skip ++ (if fill = 0 then [] else [fillerNal r.cfg fill])).map startCoded).flatten) ∧
            (∀ k, k ≠ c → u.encRt k = a.encRt k) ∧ { u with enc := a.enc, counters := a.counters } = a))) ∧
      (∀ (readOk : Bool) (w : ReadWindow), p.idr = false → regionHasRow (r.cfg.regions.getD i {}) row = true →
          w = a.encWindow (r.cfg.regions.getD i {}).head row p.start →
        ((i, row) ∈ p.tilesRead ∨ w = .early → exec (.encTileRowRead dt c i row readOk) s = .next a) ∧
        ((i, row) ∉ p.tilesRead → w ≠ .early → ∃ q : EncPic,
          q.tilesRead = p.tilesRead ++ [(i, row)] ∧ { q with tilesRead := p.tilesRead, parts := p.parts, minCapture := p.minCapture } = p ∧
          exec (.encTileRowRead dt c i row readOk) s = .next ((fun u : State =>
            if readOk = true ∧ a.encReadable (r.cfg.regions.getD i {}).head row p.start = true then u else u.count 0x0B c 5 1)
              (a.modEnc c (fun _ => { r with pic := some q })))))) ∧
    (a.enc.queues.get [] m = e :: t → a.dev ≠ .safe → e.at_ ≤ a.wallNs →
      (m ∉ a.ing.macUp → exec (.packetLaunch dt m) s = .next (State.count 0x0B e.ctx 10 1 (a.setQueue m t))) ∧
      (m ∈ a.ing.macUp → a.wireUntil m ≤ a.wallNs → ∀ b : State, b = State.count 0x0B e.ctx 6 1 
          { a.setQueue m t with
            enc := { (a.setQueue m t).enc with wireUntil := a.enc.wireUntil.set 0 m (a.wallNs + wireNs a.lay m e.len) }
            out := { a.out with launches := (m, e) :: a.out.launches } } →
        exec (.packetLaunch dt m) s = .next (if e.at_ < e.queuedAt then b.count 0x0B e.ctx 8 1 else b)) ∧
      (m ∈ a.ing.macUp → a.wallNs < a.wireUntil m →
        exec (.launchSlip dt m) s = .next (State.count 0x0B e.ctx 7 1 (a.setQueue m ({ e with at_ := a.wireUntil m } :: t)))))

/-! ### Device memory -/

/-- Sheave's rows (R204, R299, R301, R303 to R306, R308). Once memory is trained, a refresh counts at all 32 channels and puts the interval
in force that the temperature asks for; a poll of the refresh rates asks for the short interval, back only after 1 s of base rates,
and fires source 73 for each device above twice the base; a scrub moves on by a block, and counts and reports what it corrected or could not
correct. A class-2 request that has waited is promoted. A request at a regulated port proceeds when its bucket, refilled to now, holds its
size in whole blocks, and is counted as held when it is new; class 0, urgent head fetch and an unregulated class are not held. -/
def Obligations.MemoryRows : Prop :=
  ∀ (dt : Nat) (s a : State), a = s.advance dt →
    (a.mem.trained = true →
      (∃ t : State, exec (.refresh dt) s = .next t ∧ t.mem.fast = a.mem.high ∧
        (∀ c, c < 32 → t.mem.chans.get {} c = { (a.mem.chans.get {} c) with refreshes := (a.mem.chans.get {} c).refreshes + 1 }) ∧
        (∀ c, 32 ≤ c → t.mem.chans.get {} c = a.mem.chans.get {} c) ∧
        { t with mem := { t.mem with chans := a.mem.chans, fast := a.mem.fast } } = a) ∧
      (∀ (rates : List Nat) (b : State) (now since : Nat), now = a.time.upTicks → since = a.mem.baseSince.getD now →
        b = { a with mem := { a.mem with
              high := decide (∃ r ∈ rates, 2 ≤ r) || (a.mem.high && decide (now < since + 500000000))
              baseSince := if ∃ r ∈ rates, 2 ≤ r then none else some since } } →
        exec (.mr4Poll dt rates) s = .next ((rates.filter (fun r => decide (2 < r))).foldl (fun (u : State) _ => u.fireSrc 73 0xFFFF 0xFFFF) b)) ∧
      (∀ (c : Nat) (b : State), c < 32 → b = a.modChan c (fun x => { x with scrubNext := (x.scrubNext + 1) % 32505856 }) →
        exec (.scrub dt c .clean) s = .next b ∧
        exec (.scrub dt c .corrected) s = .next (State.fireSrc 68 (50 + c) 0xFFFF (b.count 0x11 c 1 1)) ∧
        exec (.scrub dt c .uncorrectable) s = .next (State.fireSrc 69 (50 + c) 0xFFFF (b.count 0x11 c 2 1)))) ∧
    (a.mem.trained = false → ∀ (i : Instr) (c : Nat) (rates : List Nat) (read : ScrubRead),
      i = .refresh dt ∨ i = .mr4Poll dt rates ∨ i = .scrub dt c read → exec i s = .next a) ∧
    (∀ c, c < 32 → exec (.class2Promotion dt c) s = .next (a.modChan c (fun x => { x with promoted := x.promoted + 1 }))) ∧
    (∀ (port size cls : Nat) (item : ReqItem), cls = a.reqClass port item →
      (cls ≠ 1 ∧ cls ≠ 2 ∨ (∃ h, item = .fetch h ∧ (a.headRt h).urgent ≠ []) → exec (.regulatorRelease dt port item size) s = .next a) ∧
      (∀ (n rate burst tokens : Nat) (b : Bucket) (held : List Nat), port < 24 → cls = 1 ∨ cls = 2 → (∀ h, item = .fetch h → (a.headRt h).urgent = []) →
        n = (size + 63) / 64 * 64 →
        (rate, burst) = (if cls = 1 then ((a.lay.regulators.get {} port).rate1, (a.lay.regulators.get {} port).burst1)
          else ((a.lay.regulators.get {} port).rate2, (a.lay.regulators.get {} port).burst2)) →
        b = a.mem.buckets.get {} (4 * port + cls) → tokens = min (500 * burst) (b.tokens + rate * (a.time.upTicks - b.stamp)) →
        held = (if n ∈ b.held then b.held else b.held ++ [n]) →
        exec (.regulatorRelease dt port item size) s = .next ((fun u : State => { u with mem := { u.mem with
            buckets := u.mem.buckets.set {} (4 * port + cls)
              (if rate = 0 then { tokens := tokens, stamp := a.time.upTicks, held := removeOne n held }
               else if 500 * n ≤ tokens then { tokens := tokens - 500 * n, stamp := a.time.upTicks, held := removeOne n held }
               else { tokens := tokens, stamp := a.time.upTicks, held := held }) } })
          (if n ∈ b.held ∨ rate = 0 then a else a.count 0x12 port cls 1))))

/-- The device address map, for every grain and with the hash on or off (R294, with the fold of R293). An address of the reserve window
maps to the channel and the channel address that R294 writes, and any other as R293 writes. So every address of device memory has one
place, in the reserve window on C30 or C31 and elsewhere on C0 to C29, and no two addresses share a place; an address beyond
62 GiB reaches no channel (R290). -/
def Obligations.AddressMapOneToOne : Prop :=
  ∀ (m : Mem) (G : Nat) (fold : Nat → Nat), G = 256 * 2 ^ m.grain →
    fold = (fun q => if m.hash then (q % 32) ^^^ (q / 32 % 32) ^^^ (q / 1024 % 32) ^^^ (q / 32768 % 32) ^^^ (q / 1048576 % 32) ^^^ (q / 33554432 % 32) else 0) →
    (∀ a k q, 0x800000000 ≤ a → a < 0x8F8000000 → k = (a - 0x800000000) / G → q = k / 2 →
      m.place a = some (30 + ((k % 2) ^^^ (fold q % 2)), q * G + (a - 0x800000000) % G)) ∧
    (∀ a g k q s, a < 0x800000000 ∧ g = a ∨ 0x8F8000000 ≤ a ∧ a < 0xF80000000 ∧ g = a - 0xF8000000 → k = g / G → q = k / 32 → s = (k % 32) ^^^ fold q →
      m.place a = some (if s < 30 then (s, (q / 15 * 16 + q % 15) * G + g % G) else (2 * (q % 15) + (s - 30), (q / 15 * 16 + 15) * G + g % G))) ∧
    (∀ a, a < 0xF80000000 → ∃ c l, m.place a = some (c, l) ∧ (if 0x800000000 ≤ a ∧ a < 0x8F8000000 then 30 ≤ c ∧ c < 32 else c < 30)) ∧
    (∀ a b, a < 0xF80000000 → b < 0xF80000000 → m.place a = m.place b → a = b) ∧
    (∀ a, 0xF80000000 ≤ a → m.place a = none)

/-! ### Faults and processors -/

/-- A firing (R402, R404, R405, R407 to R414). While the collector runs, a source that fires counts one; the first firing of its class is
captured and a later one sets OVERFLOW. A mask with the chip reset resets the chip; in SAFE no other reaction is taken; otherwise the class
is latched, the FAULT event is written, and then SAFE excludes a fence and a fence excludes a block reset, as the mask of the source, with the
fence bit at an escalation, asks; the third watchdog firing of a processor within a day resets the chip. The event comes at most once a
wall frame with the count of now; that a later firing of the frame waits for the next wall line 0 is the model's reading of R408 (DEDUCED,
entry 90). A fence sets the unit's bit, writes FENCE, and takes RUNNING to DEGRADED; a collector that disagrees with itself takes the device
to SAFE. Before the collector runs, for a watchdog that is not due, and for a source from 205 on, no row fires. -/
def Obligations.FaultReactions : Prop :=
  ∀ (dt n m cls p : Nat) (i : Instr) (f : FaultInfo) (s a : State) (r : FirstErr), a = s.advance dt →
    (6 ≤ a.boot.step → n = f.source → n < 205 → cls = (srcInfo n).cls → r = a.flt.first.get {} cls →
      (i = .faultSourceFire dt f) ∨ (i = .bowlineWdog dt ∧ f = { source := 191 }) ∨ (i = .bowlineLockstep dt ∧ f = { source := 190 }) ∨
        (i = .processorWdogExpiry dt p ∧ f = { source := 180 + p } ∧ p < 10 ∧ 9 ≤ a.boot.step ∧ p ∉ a.flt.restarting ∧
          ∀ t, a.flt.kicks.find? p = some t → t + 25000000 ≤ a.time.upTicks) →
      m = ((a.faultSrc n).mask.getD (srcInfo n).dflt) ||| (if (srcInfo n).escalates = true ∧ 2 ≤ recentCount n a.wallNs 60000000000 a.flt.recent then 4 else 0) →
      ∃ b : State,
        b.faultSrc n = { a.faultSrc n with count := min ((a.faultSrc n).count + 1) 4294967295 } ∧ (∀ k, k ≠ n → b.faultSrc k = a.faultSrc k) ∧
        b.flt.first.get {} cls = (if r.valid then { r with overflow := true } else
          { source := n, master := f.master, type := f.type, length := f.length, unit := unitNamed f, addr := f.addr, sec := a.wallNs / 1000000000,
            ns := a.wallNs % 1000000000, subject := f.subject, valid := true, overflow := false }) ∧
        (∀ k, k ≠ cls → b.flt.first.get {} k = a.flt.first.get {} k) ∧ b.flt.fenced = a.flt.fenced ∧
        { b with flt := a.flt, mem := a.mem, counters := a.counters } = a ∧ (n ≠ 72 → b.mem = a.mem) ∧
        ((n = 68 ∨ n = 69) ∧ 50 ≤ f.unit ∧ f.unit ≤ 81 ∨ b.counters = a.counters) ∧
        (m.testBit 4 = true → exec i s = .next (b.chipReset .reaction)) ∧
        (m.testBit 4 = false → a.dev = .safe → exec i s = .next b) ∧
        (m.testBit 4 = false → a.dev ≠ .safe → ∀ c d e : State,
          c = (if m.testBit 5 then { b with flt := { b.flt with latchClasses := insertSorted cls b.flt.latchClasses } } else b) →
          d = (if m.testBit 0 = false then c
            else if a.raster.run = true ∧ (a.faultSrc n).evtFrame = some a.raster.frame then c.modFaultSrc n (fun x => { x with evtDue := true })
            else State.event 0x0006 n (cls + (b.faultSrc n).count * 4294967296) (c.modFaultSrc n (fun x =>
              { x with evtFrame := if a.raster.run then some a.raster.frame else none, evtDue := false }))) →
          e = (if m.testBit 6 = true ∨ (m.testBit 2 = true ∧ 50 ≤ unitNamed f ∧ unitNamed f ≤ 79) then d.enterSafe n
            else if m.testBit 2 = true ∧ unitNamed f < 128 then d.fenceUnit (unitNamed f) n
            else if m.testBit 3 then d.blockReset f else d) →
          exec i s = .next (if 180 ≤ n ∧ n ≤ 189 ∧ 3 ≤ recentCount (n - 180) e.wallNs 86400000000000 e.flt.wdogs then e.chipReset .bowline else boundCheck e))) ∧
    ((i = .faultSourceFire dt f ∧ 205 ≤ f.source) ∨
        (a.boot.step < 6 ∧ (i = .faultSourceFire dt f ∨ i = .bowlineWdog dt ∨ i = .bowlineLockstep dt ∨ i = .collector dt)) ∨
        (i = .processorWdogExpiry dt p ∧ (10 ≤ p ∨ a.boot.step < 9 ∨ p ∈ a.flt.restarting ∨
          ∃ t, a.flt.kicks.find? p = some t ∧ a.time.upTicks < t + 25000000)) → exec i s = .next a) ∧
    (∀ x : State, (x.dev ≠ .off → (x.enterSafe n).dev = .safe) ∧ (boundCheck x).dev = x.dev ∧ (boundCheck x).flt = x.flt) ∧
    (∀ (u : Nat) (x : State), (u ∈ x.flt.fenced → x.fenceUnit u n = x) ∧
      (u ∉ x.flt.fenced → x.fenceUnit u n = State.fenceEffect u ((fun w : State => if w.dev = .running then w.setDev .degraded n else w)
        (State.event 0x0007 u n { x with flt := { x.flt with
          fenced := insertSorted u x.flt.fenced
          strikes := (u, x.wallNs) :: x.flt.strikes
          untilReset := if 2 ≤ recentCount u x.wallNs 86400000000000 x.flt.strikes then insertSorted u x.flt.untilReset else x.flt.untilReset } })))) ∧
    (6 ≤ a.boot.step → exec (.collector dt) s = .next (State.enterSafe 203 { a with
      bk := { a.bk with collectorLatch := true }
      flt := { a.flt with
        latchClasses := insertSorted 2 a.flt.latchClasses
        first := a.flt.first.set {} 2 { (a.flt.first.get {} 2) with source := 203, valid := false } } }))

/-- The other processors (R412). A released processor that runs writes its watchdog; one whose restart has ended runs again: Cleat answers
the commands that it had fetched, in ring order, with E_INTERNAL and goes on fetching once both its cores run; Reeve takes every engine's next
picture as one of another context, so that it is restored from its save record (R122), and hands out pictures again; and nothing else
of the machine moves. -/
def Obligations.ProcessorRows : Prop :=
  ∀ (dt p : Nat) (s a : State), a = s.advance dt →
    (p < 10 → 9 ≤ a.boot.step → p ∉ a.flt.restarting → p ∉ a.dbg.halted →
      exec (.watchdogKick dt p) s = .next { a with flt := { a.flt with kicks := a.flt.kicks.put p a.time.upTicks } }) ∧
    (p ∈ a.flt.restarting → ∀ b : State, b = { a with flt := { a.flt with
          restarting := a.flt.restarting.filter (fun q => decide (q ≠ p))
          kicks := a.flt.kicks.put p a.time.upTicks } } →
      (p < 2 → b.procDown 0 = false → b.procDown 1 = false → ∃ c : State, exec (.processorRestartDone dt p) s = .next
          (b.unanswered.foldl (fun (u : State) x => u.refuse x.2 x.1 .eInternal (180 + p)) c).drain ∧
        c.bg = {} ∧ c.ing.copies = [] ∧ { c with bg := b.bg, ing := b.ing, desks := b.desks, flash := b.flash } = b) ∧
      (p < 2 → b.procDown 0 = true ∨ b.procDown 1 = true → exec (.processorRestartDone dt p) s = .next b) ∧
      (2 ≤ p → p < 6 → exec (.processorRestartDone dt p) s = .next (State.dispatch
        { b with dec := { b.dec with engines := b.dec.engines.map (fun e => (e.1, { e.2 with last := none })) } })) ∧
      (6 ≤ p → exec (.processorRestartDone dt p) s = .next b))

/-- Resets and the supply (R183, R345, R389, R423, R424, R426, R427, R440, R442, R449, R453, R472). Every reset but those of a block and of
PERST_N leaves fuses, what flash holds whole, the TIME count and, but for a POR, retained memory, the backup registers and locked access
entries; everything else is as at reset. A POR rail that goes out takes all but fuses and flash. The start begins when no rail is out and
RESET_N is high. A power-failure warning stops fetching and begins the last-gasp record, which stands once it is whole. -/
def Obligations.ResetAndSupply : Prop :=
  ∀ (dt : Nat) (s a : State) (left : ResetCause → State → State → Prop), a = s.advance dt →
    left = (fun c x t => t.bk.resetCause = c ∧ t.dev = .starting ∧ t.boot = { step := t.boot.step, afterPor := decide (c = .por) } ∧
      t.ret = (if c = .por then {} else x.ret) ∧ t.fuses = { x.fuses with committed := false } ∧
      t.flash = (x.flash.abandon x.fw).tear x.calWriting ∧ t.time = { upTicks := x.time.upTicks } ∧
      t.lay = { access := if c = .por then [] else x.lay.access.filter (fun e => e.2.lock) } ∧
      (c ≠ .por → t.bk = { x.bk with resetCause := c, stageValid := x.bk.stageValid && decide (c ≠ .supply) }) ∧
      { t with pending := [], dev := .off, bk := {}, ret := {}, flash := {}, fuses := State.reset.fuses, boot := {}, clk := {}, pins := {}, temp := {}, mirror := {},
               lay := {}, time := {}, dbg := {}, out := {}, free := 0 } = State.reset) →
    (a.boot.failed = true → ∃ t, exec (.failedStartReset dt) s = .next t ∧ left .failedStart a t ∧ t.boot.step = 2 ∧ t.pins.railsBad = a.pins.railsBad) ∧
    (a.dev ≠ .off → a.pins.resetLow = false →
      ∃ t, exec (.resetNAssert dt) s = .next t ∧ left .pin a t ∧ t.boot.step = 0 ∧ t.pins.resetLow = true ∧ t.pins.railsBad = a.pins.railsBad) ∧
    (∀ rail, rail < 11 → rail ≠ 2 → rail ≠ 9 → a.dev ≠ .off →
      ∃ t x, exec (.railExcursion dt rail) s = .next t ∧ left .supply x t ∧ t.boot.step = 0 ∧ t.pins.railsBad = insertSorted rail a.pins.railsBad ∧
        (a.bg.palette = none → { x with pins := a.pins } = a)) ∧
    (∀ rail, rail = 2 ∨ rail = 9 → a.bg.palette = none → ∃ t, exec (.railExcursion dt rail) s = .next t ∧ t.dev = .off ∧ t.fuses = { a.fuses with committed := false } ∧
      t.flash = (a.flash.abandon a.fw).tear a.calWriting ∧ t.time = { upTicks := a.time.upTicks } ∧ t.pins.railsBad = insertSorted rail a.pins.railsBad ∧
      { t with pending := [], flash := {}, fuses := State.reset.fuses, pins := {}, temp := {}, time := {}, out := {}, free := 0 } = State.reset) ∧
    (exec (.railExcursion dt 11) s = .next { a with
      pins := { a.pins with vddFuse := !a.pins.vddFuse }
      fuses := if a.pins.vddFuse = true ∧ a.bg.palette.isSome = true then { a.fuses with paletteProgrammed := true, paletteBad := true } else a.fuses }) ∧
    (a.dev = .off → ∃ t, exec (.por dt) s = .next t ∧ left .por a t ∧ t.pins.resetLow = false ∧
      t.bk = {} ∧ t.pins.railsBad = a.pins.railsBad.filter (fun r => decide (r ≠ 2 ∧ r ≠ 9)) ∧ t.boot.step = (if t.pins.railsBad.isEmpty then 2 else 0)) ∧
    (a.dev = .starting → a.boot.step = 0 →
      (a.pins.resetLow = false → exec (.supplyResetRelease dt) s = .next { a with pins := { a.pins with railsBad := [] }, boot := { a.boot with step := 2 } }) ∧
      (a.pins.railsBad = [] → exec (.resetNRelease dt) s = .next { a with
        pins := { a.pins with resetLow := false }
        dbg := if a.dbg.pinDrive.isSome then { a.dbg with ir := .bypass, pinDrive := none } else a.dbg
        boot := { a.boot with step := 2 } })) ∧
    (a.dev = .starting → 6 ≤ a.boot.step → exec (.startTimeout dt) s = .next { a with boot := { a.boot with failed := true } }) ∧
    (a.dev ≠ .off → 6 ≤ a.boot.step → a.pins.pwrFailLow = false → ∃ (u : State) (g : LastGasp),
      u = (State.fireSrc 178 0xFFFF 0xFFFF a).stopSaves ∧ g.seq = (u.flash.lastGasp.map (fun g => g.seq)).getD 0 + 1 ∧
      g.bootId = u.bk.bootId ∧ g.wallFrame = u.raster.frame ∧ g.committedTxn = u.splice.committedTxn ∧ g.txnHigh = u.txns.next - 1 ∧ g.devState = u.dev.code ∧
      g.resetCause = u.bk.resetCause.code ∧ g.events = (u.log.recs.take 120).reverse ∧ g.fenced = u.flt.fenced ∧
      exec (.pwrFailAssert dt) s = .next { u with pins := { u.pins with
        pwrFailLow := true, fetchStopped := true, gasp := if u.flash.fitted then some g else none } }) ∧
    exec (.pwrFailRelease dt) s = .next (State.drain { a with pins := { a.pins with pwrFailLow := false, fetchStopped := false } }) ∧
    (∀ g, a.pins.gasp = some g → exec (.lastGaspWriteDone dt) s = .next { a with
      flash := { a.flash with lastGasp := some g }
      pins := { a.pins with gasp := none }
      out := { a.out with flash := (lastGaspAt g.seq, gaspBytes g) :: a.out.flash } })

/-- The start (R50, R69, R310, R319, R389, R418 to R422, R426 to R436, R443). At the end of the fuse load what a failed block does, or the
commit, the strap and the clocks; a clock whose windows pass, and what follows in each step of the start; one whose windows fail, or whose
monitor trips; a FIO attempt after its wait; the image of the boot source; memory training; and the completion that puts the device in
CONFIGURING with the raster due at the next wall frame. -/
def Obligations.StartSequence : Prop :=
  ∀ (dt : Nat) (s a : State), a = s.advance dt →
    (∀ (form : RecoveryForm) (x : State), ∃ t, t = x.enterRecovery form ∧ t.dev = .recovery ∧
      t.boot = { x.boot with recovery := form, step := min x.boot.step 7, cleatUp := false, failed := false } ∧
      t.clk.enabled = x.clk.enabled.filter (fun k => if form = .sio then decide (k = .sio) else decide (k = .sio ∨ k = .fio ∨ k = .xa ∨ k = .pllCore)) ∧
      { t with dev := x.dev, mirror := x.mirror, log := x.log, rings := x.rings, out := x.out, boot := x.boot, clk := x.clk } = x) ∧
    (∀ (bad strap l : List Nat) (b : State), a.dev = .starting → a.boot.step = 2 → a.boot.failed = false → l = badFuses a.fuses bad →
      b = { a with bk := { a.bk with fuseBad := l.foldl (fun x k => insertSorted k x) a.bk.fuseBad, fioTries := 0 } } →
      (0 ∈ l ∨ 1 ∈ l → exec (.fuseLoadDone dt bad strap) s = .next (b.enterRecovery .sio).drain) ∧
      (0 ∉ l → 1 ∉ l → 2 ∈ l ∨ 3 ∈ l ∨ 5 ∈ l ∨ 7 ∈ l → exec (.fuseLoadDone dt bad strap) s = .next (State.drain { b with boot := { b.boot with failed := true } })) ∧
      (0 ∉ l → 1 ∉ l → 2 ∉ l → 3 ∉ l → 5 ∉ l → 7 ∉ l → ∃ c : State, exec (.fuseLoadDone dt bad strap) s =
          .next (State.drain (if c.bk.strapAmbig = true ∨ c.bk.strapChoice = 0 ∨ (12 ≤ c.bk.strapChoice ∧ c.bk.strapChoice ≤ 14) then c.enterRecovery .full else c)) ∧
        c.boot.step = 4 ∧ c.fuses = { a.fuses with committed := true } ∧ Clock.xa ∈ c.clk.enabled ∧ Clock.fio ∈ c.clk.enabled ∧
        c.boot.palette = (if a.fuses.paletteProgrammed = true ∧ 6 ∉ l then a.fuses.paletteCustomer else a.fuses.paletteFactory) ∧
        (c.boot.xbUsed = true ↔ a.fuses.custProgrammed = true ∧ 4 ∉ l ∧ a.fuses.xbFreqKhz ≠ 0) ∧
        (a.boot.afterPor = true → strapDecode strap = none → c.bk = { b.bk with strapChoice := 0, strapAmbig := true }) ∧
        (∀ n, a.boot.afterPor = true → strapDecode strap = some n → c.bk = { b.bk with strapChoice := n, strapAmbig := false }) ∧
        (a.boot.afterPor = false → c.bk = b.bk) ∧
        { c with bk := a.bk, boot := a.boot, fuses := a.fuses, clk := a.clk } = a)) ∧
    (∀ (n : Nat) (k : Clock) (b f : State), clockOf n = some k → k ∈ a.clk.enabled → k ∉ a.clk.stable →
      b = { a with clk := { a.clk with stable := k :: a.clk.stable } } →
      f = { a.disableClock .fio with
        bk := { a.bk with clkFail := 1, fioTries := a.bk.fioTries + 1 }, clk := { (a.disableClock .fio).clk with fioWait := true } } →
      (∀ i : Instr, k = .fio ∨ Clock.fio ∈ a.clk.stable →
        (∃ counts, i = .clockStable dt ⟨n, counts⟩ ∧ eightPass (a.nominalKhz k) 0 counts = true) ∨
          (∃ count, i = .clockJudgeTimeout dt n (some count) ∧ windowPasses (a.nominalKhz k) 2 count = true) →
        (k = .fio → a.boot.step = 4 → ∀ c : State,
          c = State.countLatches { b with bk := { b.bk with bootId := (b.bk.bootId + 1) % 4294967296 }, boot := { b.boot with step := 6 } } →
          exec i s = .next (State.drain (if 4 ≤ c.bk.startCount then (if c.dev = .recovery then c else c.enterRecovery .full)
            else { c with bk := { c.bk with startCount := c.bk.startCount + 1 } }))) ∧
        (k ≠ .fio ∨ a.boot.step ≠ 4 →
          (a.dev = .recovery → ∀ c : State, c = (if a.boot.step = 6 ∧ Clock.xa ∈ b.clk.stable then b.enableClock .pllCore else b) →
            exec i s = .next (State.drain (if Clock.pllCore ∈ b.clk.stable ∧ a.bootFrom ≠ .uart then (c.setPll 0 .locked).setPll 1 .locked else c))) ∧
          (a.dev ≠ .recovery → a.boot.step = 6 → Clock.xa ∈ b.clk.stable → exec i s = .next (State.drain (
            if a.boot.xbUsed = true ∧ Clock.xb ∉ b.clk.stable then b.enableClock .xb
            else (fun u : State => { u with boot := { u.boot with step := 7 } })
              ((((((b.enableClock .pllCore).enableClock .pllCodec).enableClock .pllComp).enableClock .pllPix).enableClock .pllMem).enableClock .pllTime)))) ∧
          (a.boot.step = 7 → a.dev = .starting → exec i s = .next (State.drain (
            if ∀ x ∈ devicePlls, x ∈ b.clk.stable then (fun u : State => { u with boot := { u.boot with step := 8 } })
              (if a.bootFrom = .uart then b else (b.setPll 0 .locked).setPll 1 .locked) else b))))) ∧
      (∀ counts, eightPass (a.nominalKhz k) 0 counts = false → exec (.clockStable dt ⟨n, counts⟩) s = .next a.drain) ∧
      (∀ count : Option Nat, (∀ x, count = some x → windowPasses (a.nominalKhz k) 2 x = false) →
        (a.boot.step = 4 → exec (.clockJudgeTimeout dt n count) s = .next (State.drain (if k = .fio then f else a))) ∧
        (a.boot.step = 6 ∨ a.boot.step = 7 → a.dev = .starting → exec (.clockJudgeTimeout dt n count) s =
          .next (State.drain { a with bk := { a.bk with clkFail := k.code }, boot := { a.boot with failed := true } })) ∧
        (a.boot.step ≠ 4 → a.dev = .recovery → exec (.clockJudgeTimeout dt n count) s = .next (a.disableClock k).drain)) ∧
      (∀ counts, k = .fio → a.boot.step = 4 → exec (.clockMonitorFail dt ⟨n, counts⟩) s = .next (if attemptTrips counts = true then f else a))) ∧
    (∀ x : State, x.bk.fuseBad = [] → x.bk.clkFail = 0 → x.bk.collectorLatch = false → x.countLatches = x) ∧
    (∀ (n : Nat) (k : Clock) (counts : List Nat), clockOf n = some k → k ∈ a.clk.stable → 6 ≤ a.boot.step →
      (monitorTrips (a.nominalKhz k) counts = false → exec (.clockMonitorFail dt ⟨n, counts⟩) s = .next a) ∧
      (monitorTrips (a.nominalKhz k) counts = true → ∃ b : State,
        exec (.clockMonitorFail dt ⟨n, counts⟩) s = .next (b.fireSrc k.source 0xFFFF 0xFFFF) ∧ b.bk = { a.bk with clkFail := k.code } ∧
        b.clk.stable = a.clk.stable.filter (fun x => decide (x ≠ k)) ∧ (k = .fio → b.clk.safeOnSio = true) ∧ (k = .pllTime → b.raster.run = false) ∧
        (k = .pllMem → b.mem.trained = false ∧ b.mem.bytes = []) ∧ (k = .pllCore ∨ k = .pllCodec ∨ k = .pllComp ∨ k = .pllPix ∨ k = .pllTime → k ∈ b.clk.onFio) ∧
        (k ≠ .pllPix → b.heads = a.heads) ∧
        { b with bk := a.bk, clk := a.clk, raster := { b.raster with run := a.raster.run }, mem := a.mem, heads := a.heads } = a)) ∧
    (a.clk.fioWait = true →
      (3 ≤ a.bk.fioTries → exec (.fioRetry dt) s = .next (a.enterRecovery .sio).drain) ∧
      (a.bk.fioTries < 3 → exec (.fioRetry dt) s = .next (State.enableClock .fio { a with clk := { a.clk with fioWait := false } }).drain)) ∧
    (∀ (bad : List Nat) (b : State), a.dev = .starting → a.boot.step = 8 → a.boot.failed = false →
      b = a.setStartCount (if a.boot.afterPor then a.flash.startCount + 1 else a.bk.startCount) →
      (a.boot.afterPor = true → 4 ≤ a.flash.startCount → exec (.imageLoaded dt bad) s = .next (a.enterRecovery .full).drain) ∧
      (a.boot.afterPor = false ∨ a.flash.startCount < 4 → ∀ (o : Option (Nat × ImageSlot)),
        o = (if b.bootFrom = .xspi then (if b.flash.fitted then b.flash.bootSlots.find? (fun e => decide (e.1 ∉ bad)) else none)
          else if 2 ∈ bad then none else some (2, b.flash.staged)) →
        (b.bootFrom ≠ .xspi → b.bk.stageValid = false → exec (.imageLoaded dt bad) s = .next (b.enterRecovery .full).drain) ∧
        (b.bootFrom = .xspi ∨ b.bk.stageValid = true →
          (o = none → exec (.imageLoaded dt bad) s = .next (State.drain { b with boot := { b.boot with failed := true } })) ∧
          (∀ e, o = some e → ∃ c : State, exec (.imageLoaded dt bad) s = .next c.drain ∧ c.boot.step = 9 ∧ c.boot.cleatUp = true ∧
            c.boot.fwSlot = e.1 ∧ c.boot.fwVersion = e.2.version ∧ (b.bootFrom ≠ .uart → c.lanes = b.lanes) ∧
            { c with boot := b.boot, fuses := b.fuses, lanes := b.lanes } = b)))) ∧
    (∀ bad, a.dev = .starting → a.boot.step = 9 → a.boot.failed = false →
      ((∀ c ∈ bad, 32 ≤ c) → exec (.memTrainingDone dt bad) s = .next { a with
        mem := { a.mem with trained := true, bytes := [] }
        ret := { a.ret with trainSeq := a.ret.trainSeq + 1, trained := List.range 32 }
        boot := { a.boot with step := 10 } }) ∧
      ((∃ c ∈ bad, c < 32) → exec (.memTrainingDone dt bad) s = .next ((bad.filter (fun c => decide (c < 32))).foldl
        (fun (u : State) c => u.fireSrc (if c < 30 then 70 else 71) (50 + c) 0xFFFF) { a with boot := { a.boot with failed := true } }))) ∧
    (a.dev = .starting → a.boot.step = 10 → a.boot.failed = false → ∃ t : State, exec (.bootComplete dt) s = .next t ∧ t.dev = .configuring ∧ t.boot.step = 11 ∧
      t.lay.quads = presetQuads (if a.bk.strapAmbig then 0 else strapPreset a.bk.strapChoice) ∧ t.raster.run = false ∧
      t.raster.first = firstFrameAfter a.lay.dev.wallRate a.wallNs ∧ t.mirror.devState = 3)

/-! ### The debug port -/

/-- The debug port (R391 to R398). An instruction is loaded with its register; EXTEST, CLAMP and HIGHZ take pins only while RESET_N is low
and act as BYPASS otherwise. An access is decided as master 41: one that is refused sets the sticky bit and returns zeros, and with the
debug port locked every access is refused under source 65; a byte that lies in no register, table, ring, record or buffer reads back when it is written, and no other byte
moves. Halt and
resume act on a processor of an unlocked device, and a request that is refused fires source 65. -/
def Obligations.TapRows : Prop :=
  ∀ (dt : Nat) (s a : State), a = s.advance dt → a.dev ≠ .off →
    (∀ (i : Instr) (x : TapInstr), (i = .extest dt ∧ x = .extest) ∨ (i = .clamp dt ∧ x = .clamp) ∨ (i = .highz dt ∧ x = .highz) →
      (a.pins.resetLow = true → exec i s = .next { a with dbg := { a.dbg with ir := x, pinDrive := some x } }) ∧
      (a.pins.resetLow = false → exec i s = .next { a with dbg := { a.dbg with ir := .bypass, pinDrive := none, data := [0#8] } })) ∧
    (∀ scan, exec (.samplePreload dt scan) s = .next { a with dbg := { a.dbg with ir := .samplePreload, pinDrive := none, scan := scan } }) ∧
    (∀ i : Instr, i = .idcode dt ∨ i = .trstN dt →
      exec i s = .next { a with dbg := { a.dbg with ir := .idcode, pinDrive := none, data := [0xAB#8, 0x65#8, 0x79#8, 0x15#8] } }) ∧
    exec (.bypass dt) s = .next { a with dbg := { a.dbg with ir := .bypass, pinDrive := none, data := [0#8] } } ∧
    (∀ base size, exec (.dbgTrace dt base size) s = .next { a with dbg := { a.dbg with ir := .dbgTrace, pinDrive := none, trace := some (base, size) } }) ∧
    (∀ b : State, a.coreRuns = true → b = { a with dbg := { a.dbg with ir := .dbgAccess, pinDrive := none } } → ∀ x : Access, 1 ≤ x.len → x.len ≤ 4096 →
      (∀ c, b.access 41 x.write x.addr x.len = (false, c) → c.dev ≠ .off →
        exec (.dbgAccess dt x) s = .next { c with dbg := { c.dbg with sticky := true, data := List.replicate x.len 0#8 } }) ∧
      (∀ c, b.access 41 x.write x.addr x.len = (true, c) → x.write = true →
        exec (.dbgAccess dt x) s = .next (c.busWrite x.addr (x.data.take x.len ++ List.replicate (x.len - x.data.length) 0#8))) ∧
      (∀ c, b.access 41 x.write x.addr x.len = (true, c) → x.write = false → c.dev ≠ .off →
        exec (.dbgAccess dt x) s = .next { c with dbg := { c.dbg with data := (List.range x.len).map (fun i => c.byteAt (x.addr + i)) } }) ∧
      (a.fuses.fieldLocked = true → a.auth.unlocked = false →
        b.access 41 x.write x.addr x.len = (false, b.fireAccess 65 41 (if x.write then 2 else 1) x.addr x.len))) ∧
    (∀ (x : State) (k : Nat) (v : Byte), Tab.wf 0#8 x.mem.bytes = true → inControl k = false → inStatus k = false →
        (k < x.pointBase ∨ x.pointBase + pointTableBytes ≤ k) → x.sealAt k = none → x.tprAt k = none → x.bufferAt k = none → x.slotAt k = none →
      (x.pokeByte k v).byteAt k = v ∧ (∀ j, j ≠ k → (x.pokeByte k v).byteAt j = x.byteAt j) ∧
      { x.pokeByte k v with mem := { x.mem with bytes := x.mem.bytes } } = x ∧ Tab.wf 0#8 (x.pokeByte k v).mem.bytes = true) ∧
    (∀ (b : State) (id : Nat), a.coreRuns = true → id ≤ 10 → b = { a with dbg := { a.dbg with ir := .dbgHalt, pinDrive := none } } →
      (a.fuses.fieldLocked = false ∨ a.auth.unlocked = true →
        (∀ p, procOf id = some p →
          exec (.dbgHalt dt .halt id) s = .next { b with dbg := { b.dbg with halted := insertSorted p b.dbg.halted } } ∧
          exec (.dbgHalt dt .resume id) s = .next ((fun u : State => if p < 2 then u.drain else u.dispatch)
            { b with dbg := { b.dbg with halted := b.dbg.halted.filter (fun q => decide (q ≠ p)) } })) ∧
        (procOf id = none → exec (.dbgHalt dt .halt id) s = .next (State.fireAccess 65 41 0 0 0 { b with dbg := { b.dbg with sticky := true } })) ∧
        exec (.dbgHalt dt .step id) s = .next b) ∧
      (a.fuses.fieldLocked = true → a.auth.unlocked = false → ∀ op,
        exec (.dbgHalt dt op id) s = .next (State.fireAccess 65 41 0 0 0 { b with dbg := { b.dbg with sticky := true } })))
end

