-- ==== Sys2Proof/Laws/Stores.lean ====
section
/-! SUPPORT. Laws of the stores: sparse tables, memory, the Splice store's order, and transactions. -/

namespace Sys2Proof.Tab

variable {α : Type}

/-- A table whose keys rise above `b` also rises above nothing. -/
theorem sortedFrom_none {b : Nat} {t : Tab α} (h : sortedFrom (some b) t = true) : sortedFrom none t = true := by
  cases t with
  | nil => rfl
  | cons e t => obtain ⟨j, v⟩ := e; simp only [sortedFrom, Bool.and_eq_true] at h ⊢; exact h.2

/-- A lower bound may be lowered. -/
theorem sortedFrom_lower {b c : Nat} {t : Tab α} (hc : c ≤ b) (h : sortedFrom (some b) t = true) : sortedFrom (some c) t = true := by
  cases t with
  | nil => rfl
  | cons e t =>
    obtain ⟨j, v⟩ := e
    simp only [sortedFrom, Bool.and_eq_true, decide_eq_true_eq] at h ⊢
    exact ⟨by omega, h.2⟩

/-- `put` keeps keys above a bound below its key. -/
theorem sortedFrom_put (b k : Nat) (v : α) (t : Tab α) (hk : b < k) (h : sortedFrom (some b) t = true) :
    sortedFrom (some b) (put k v t) = true := by
  induction t generalizing b with
  | nil => simp [put, sortedFrom, hk]
  | cons e t ih =>
    obtain ⟨j, w⟩ := e
    simp only [sortedFrom, Bool.and_eq_true, decide_eq_true_eq] at h
    unfold put
    split
    · subst_vars; simp [sortedFrom, hk, h.2]
    · split
      · simp only [sortedFrom, Bool.and_eq_true, decide_eq_true_eq]; exact ⟨hk, by omega, h.2⟩
      · simp only [sortedFrom, Bool.and_eq_true, decide_eq_true_eq]; exact ⟨h.1, ih j (by omega) h.2⟩

/-- `put` keeps the key order. -/
theorem sorted_put (k : Nat) (v : α) (t : Tab α) (h : sortedFrom none t = true) : sortedFrom none (put k v t) = true := by
  cases t with
  | nil => rfl
  | cons e t =>
    obtain ⟨j, w⟩ := e
    simp only [sortedFrom] at h
    unfold put
    split
    · subst_vars; exact h
    · split
      · simp only [sortedFrom, Bool.and_eq_true, decide_eq_true_eq]; exact ⟨by omega, h⟩
      · exact sortedFrom_put j k v t (by omega) h

/-- `erase` keeps keys above a bound. -/
theorem sortedFrom_erase (b k : Nat) (t : Tab α) (h : sortedFrom (some b) t = true) : sortedFrom (some b) (erase k t) = true := by
  induction t generalizing b with
  | nil => rfl
  | cons e t ih =>
    obtain ⟨j, w⟩ := e
    simp only [sortedFrom, Bool.and_eq_true, decide_eq_true_eq] at h
    unfold erase
    split
    · exact sortedFrom_lower (Nat.le_of_lt h.1) h.2
    · split
      · simp only [sortedFrom, Bool.and_eq_true, decide_eq_true_eq]; exact h
      · simp only [sortedFrom, Bool.and_eq_true, decide_eq_true_eq]; exact ⟨h.1, ih j h.2⟩

/-- `erase` keeps the key order. -/
theorem sorted_erase (k : Nat) (t : Tab α) (h : sortedFrom none t = true) : sortedFrom none (erase k t) = true := by
  cases t with
  | nil => rfl
  | cons e t =>
    obtain ⟨j, w⟩ := e
    simp only [sortedFrom] at h
    unfold erase
    split
    · exact sortedFrom_none h
    · split
      · exact h
      · exact sortedFrom_erase j k t h

/-- Every entry after a `put` is the new one or was there. -/
theorem mem_put {k : Nat} {v : α} {t : Tab α} {e : Nat × α} (h : e ∈ put k v t) : e = (k, v) ∨ e ∈ t := by
  induction t with
  | nil => simpa [put] using h
  | cons f t ih =>
    obtain ⟨j, w⟩ := f
    unfold put at h
    split at h
    · rcases List.mem_cons.1 h with h | h
      · exact .inl h
      · exact .inr (List.mem_cons_of_mem _ h)
    · split at h
      · rcases List.mem_cons.1 h with h | h
        · exact .inl h
        · exact .inr h
      · rcases List.mem_cons.1 h with h | h
        · exact .inr (h ▸ List.mem_cons_self)
        · rcases ih h with h | h
          · exact .inl h
          · exact .inr (List.mem_cons_of_mem _ h)

/-- Every entry after an `erase` was there. -/
theorem mem_erase {k : Nat} {t : Tab α} {e : Nat × α} (h : e ∈ erase k t) : e ∈ t := by
  induction t with
  | nil => simp [erase] at h
  | cons f t ih =>
    obtain ⟨j, w⟩ := f
    unfold erase at h
    split at h
    · exact List.mem_cons_of_mem _ h
    · split at h
      · exact h
      · rcases List.mem_cons.1 h with h | h
        · exact h ▸ List.mem_cons_self
        · exact List.mem_cons_of_mem _ (ih h)

/-- The canonical form, taken apart. -/
theorem wf_iff [DecidableEq α] {d : α} {t : Tab α} : wf d t = true ↔ sortedFrom none t = true ∧ ∀ e ∈ t, e.2 ≠ d := by
  simp [wf]

/-- `set` keeps the canonical form. -/
theorem wf_set [DecidableEq α] {d : α} (k : Nat) (v : α) {t : Tab α} (h : wf d t = true) : wf d (set d k v t) = true := by
  rw [wf_iff] at h ⊢
  unfold set
  split
  · exact ⟨sorted_erase k t h.1, fun e he => h.2 e (mem_erase he)⟩
  · next hv =>
    refine ⟨sorted_put k v t h.1, fun e he => ?_⟩
    rcases mem_put he with rfl | he
    · exact hv
    · exact h.2 e he

/-- `modify` keeps the canonical form. -/
theorem wf_modify [DecidableEq α] {d : α} (k : Nat) (f : α → α) {t : Tab α} (h : wf d t = true) : wf d (modify d k f t) = true :=
  wf_set k _ h

/-- Taking entries out keeps keys above a bound. -/
theorem sortedFrom_filter (b : Nat) (p : Nat × α → Bool) (t : Tab α) (h : sortedFrom (some b) t = true) :
    sortedFrom (some b) (t.filter p) = true := by
  induction t generalizing b with
  | nil => rfl
  | cons e t ih =>
    obtain ⟨j, v⟩ := e
    simp only [sortedFrom, Bool.and_eq_true, decide_eq_true_eq] at h
    rw [List.filter_cons]
    split
    · simp only [sortedFrom, Bool.and_eq_true, decide_eq_true_eq]; exact ⟨h.1, ih j h.2⟩
    · exact sortedFrom_lower (Nat.le_of_lt h.1) (ih j h.2)

/-- Taking entries out keeps the canonical form. -/
theorem wf_filter [DecidableEq α] {d : α} (p : Nat × α → Bool) {t : Tab α} (h : wf d t = true) : wf d (t.filter p) = true := by
  rw [wf_iff] at h ⊢
  refine ⟨?_, fun e he => h.2 e (List.mem_filter.1 he).1⟩
  have h1 := h.1
  clear h
  cases t with
  | nil => rfl
  | cons e t =>
    obtain ⟨j, v⟩ := e
    simp only [sortedFrom] at h1
    rw [List.filter_cons]
    split
    · exact sortedFrom_filter j p t h1
    · exact sortedFrom_none (sortedFrom_filter j p t h1)

/-- A key below every listed one reads the default. -/
theorem get_of_lt {d : α} {b k : Nat} {t : Tab α} (h : sortedFrom (some b) t = true) (hk : k ≤ b) : get d k t = d := by
  cases t with
  | nil => rfl
  | cons e t =>
    obtain ⟨j, v⟩ := e
    simp only [sortedFrom, Bool.and_eq_true, decide_eq_true_eq] at h
    unfold get
    rw [if_neg (by omega), if_pos (by omega)]

/-- Reading where `put` wrote. -/
theorem get_put_same (d : α) (k : Nat) (v : α) (t : Tab α) : get d k (put k v t) = v := by
  induction t with
  | nil => simp [put, get]
  | cons e t ih =>
    obtain ⟨j, w⟩ := e
    unfold put
    split
    · simp [get]
    · split
      · simp [get]
      · unfold get; rw [if_neg ‹_›, if_neg ‹_›]; exact ih

/-- Reading elsewhere than `put` wrote. -/
theorem get_put_other (d : α) {i k : Nat} (hi : i ≠ k) (v : α) (t : Tab α) : get d i (put k v t) = get d i t := by
  induction t with
  | nil => simp [put, get, Ne.symm hi]
  | cons e t ih =>
    obtain ⟨j, w⟩ := e
    unfold put
    split
    · subst_vars; simp [get, Ne.symm hi]
    · split
      · rw [get, if_neg (Ne.symm hi)]
        split
        · next h1 h2 h3 =>
          rw [get]
          rw [if_neg (by omega), if_pos (by omega)]
        · rfl
      · rw [get, get, ih]

/-- Reading where `erase` took an entry out. -/
theorem get_erase_same (d : α) (k : Nat) (t : Tab α) (h : sortedFrom none t = true) : get d k (erase k t) = d := by
  have key : ∀ (b : Nat) (t : Tab α), sortedFrom (some b) t = true → get d k (erase k t) = d := by
    intro b t
    induction t generalizing b with
    | nil => intro _; rfl
    | cons e t ih =>
      obtain ⟨j, w⟩ := e
      intro h
      simp only [sortedFrom, Bool.and_eq_true, decide_eq_true_eq] at h
      unfold erase
      split
      · subst_vars; exact get_of_lt h.2 (Nat.le_refl _)
      · split
        · rw [get, if_neg ‹_›, if_pos ‹_›]
        · rw [get, if_neg ‹_›, if_neg ‹_›]; exact ih j h.2
  cases t with
  | nil => rfl
  | cons e t =>
    obtain ⟨j, w⟩ := e
    simp only [sortedFrom] at h
    unfold erase
    split
    · subst_vars; exact get_of_lt h (Nat.le_refl _)
    · split
      · rw [get, if_neg ‹_›, if_pos ‹_›]
      · rw [get, if_neg ‹_›, if_neg ‹_›]; exact key j t h

/-- Reading elsewhere than `erase` took an entry out. -/
theorem get_erase_other (d : α) {i k : Nat} (hi : i ≠ k) (t : Tab α) (h : sortedFrom none t = true) : get d i (erase k t) = get d i t := by
  have key : ∀ (b : Nat) (t : Tab α), sortedFrom (some b) t = true → get d i (erase k t) = get d i t := by
    intro b t
    induction t generalizing b with
    | nil => intro _; rfl
    | cons e t ih =>
      obtain ⟨j, w⟩ := e
      intro h
      simp only [sortedFrom, Bool.and_eq_true, decide_eq_true_eq] at h
      unfold erase
      split
      · subst_vars
        rw [get, if_neg (Ne.symm hi)]
        split
        · exact get_of_lt h.2 (by omega)
        · rfl
      · split
        · rfl
        · rw [get, get, ih j h.2]
  cases t with
  | nil => rfl
  | cons e t =>
    obtain ⟨j, w⟩ := e
    simp only [sortedFrom] at h
    unfold erase
    split
    · subst_vars
      rw [get, if_neg (Ne.symm hi)]
      split
      · exact get_of_lt h (by omega)
      · rfl
    · split
      · rfl
      · rw [get, get, key j t h]

/-- Reading where `set` wrote. -/
theorem get_set_same [DecidableEq α] (d : α) (k : Nat) (v : α) (t : Tab α) (h : sortedFrom none t = true) : get d k (set d k v t) = v := by
  unfold set
  split
  · subst_vars; exact get_erase_same v k t h
  · exact get_put_same d k v t

/-- Reading elsewhere than `set` wrote. -/
theorem get_set_other [DecidableEq α] (d : α) {i k : Nat} (hi : i ≠ k) (v : α) (t : Tab α) (h : sortedFrom none t = true) :
    get d i (set d k v t) = get d i t := by
  unfold set
  split
  · exact get_erase_other d hi t h
  · exact get_put_other d hi v t

/-- Every entry after a `set` is the new one or was there. -/
theorem mem_set [DecidableEq α] {d : α} {k : Nat} {v : α} {t : Tab α} {e : Nat × α} (h : e ∈ set d k v t) : e = (k, v) ∨ e ∈ t := by
  unfold set at h
  split at h
  · exact .inr (mem_erase h)
  · exact mem_put h

end Sys2Proof.Tab
end

