-- ==== Sys2Proof/Laws/Keeps.lean ====
section
/-! SUPPORT. What every operation of the model keeps, whatever row it serves: the queue, the tick count, the wall position while
the raster runs, what fuses hold for good, the device state past its start, and soundness. One relation, and one lemma for each
operation that returns a state. -/

namespace Sys2Proof.Machine

open Sys2Proof

set_option Elab.async false

/-- What an operation that leads from `a` to `s` keeps, but for what the heads show. -/
def Stays (a s : State) : Prop :=
  s.pending = a.pending ∧ s.time.upTicks = a.time.upTicks ∧
  (s.raster.run = true → a.raster.run = true ∧ s.raster.frame = a.raster.frame ∧ s.raster.line = a.raster.line) ∧
  (s.fuses.fieldLocked = a.fuses.fieldLocked ∧ s.fuses.dieId = a.fuses.dieId ∧ s.fuses.pinFactory = a.fuses.pinFactory ∧
    s.fuses.paletteFactory = a.fuses.paletteFactory ∧ (a.fuses.paletteProgrammed = true → s.fuses.paletteProgrammed = true)) ∧
  (a.boot.step ≤ 2 → s.boot.step ≤ 2) ∧
  (a.Settled → (s.Settled ∧ (a.dev = .safe → s.dev = .safe)) ∨ s.boot.step ≤ 2) ∧
  (a.Sound → s.Sound)

/-- Heads whose table stays in canonical form, and whose lines on the way are those that were, but for lines that have gone dark; or none. -/
def ShownTab (a s : Tab HeadRt) : Prop :=
  a.wf {} = true → s.wf {} = true ∧ ∀ h, (s.get {} h).lit = [] ∨
    ((s.get {} h).glassBand = (a.get {} h).glassBand ∧ Dims (a.get {} h).glassBand (a.get {} h).lit (s.get {} h).lit)

/-- What an operation that leads from `a` to `s` keeps. -/
def Keeps (a s : State) : Prop := Stays a s ∧ ShownTab a.heads s.heads

/-- Lines that nothing has touched. -/
theorem dims_refl (band : Nat) (l : List (List Rgb)) : Dims band l l := .inr ⟨rfl, fun _ _ => .inl rfl⟩

/-- Lines that dim twice. -/
theorem dims_trans {band : Nat} {l m n : List (List Rgb)} (h : Dims band l m) (k : Dims band m n) : Dims band l n := by
  rcases k with k | ⟨k1, k2⟩
  · exact .inl k
  · rcases h with h | ⟨h1, h2⟩
    · subst h; exact .inl (List.length_eq_zero_iff.1 k1)
    · refine .inr ⟨k1.trans h1, fun i hi => ?_⟩
      rcases h2 i hi with e | ⟨p, e⟩
      · rcases k2 i (h1 ▸ hi) with f | ⟨q, f⟩
        · exact .inl (f.trans e)
        · exact .inr ⟨q, by rw [f, e]⟩
      · rcases k2 i (h1 ▸ hi) with f | ⟨q, f⟩
        · exact .inr ⟨p, f.trans e⟩
        · refine .inr ⟨q, ?_⟩
          rw [f, e]; simp

/-- The lines that have not begun go dark. -/
theorem dims_darkLines (pal : List Nat) (band m : Nat) (l : List (List Rgb)) : Dims band l (darkLines pal band m l) := by
  refine .inr ⟨by simp [darkLines]; omega, fun i hi => ?_⟩
  unfold darkLines
  by_cases h : i < m
  · left
    rw [List.getD_eq_getElem?_getD, List.getD_eq_getElem?_getD, List.getElem?_append_left (by simp; omega), List.getElem?_take, if_pos h]
  · right
    refine ⟨pal, ?_⟩
    have hl : (l.take m).length = m := by simp; omega
    rw [List.getD_eq_getElem?_getD, List.getElem?_append_right (by omega), hl, List.getElem?_map, List.getElem?_range (by omega)]
    have : m + (i - m) = i := by omega
    simp [this, Nat.add_assoc]

/-- Heads send what they sent. -/
theorem shown_of_eq {a s : Tab HeadRt} (h : s = a) : ShownTab a s := fun hw => ⟨h ▸ hw, fun _ => .inr (h ▸ ⟨rfl, dims_refl _ _⟩)⟩

/-- Heads that a reset has cleared send nothing. -/
theorem shown_nil {a : Tab HeadRt} : ShownTab a [] := fun _ => ⟨rfl, fun _ => .inl rfl⟩

/-- What is sent throughout is sent from the first state to the last. -/
theorem shown_trans {a b c : Tab HeadRt} (h : ShownTab a b) (k : ShownTab b c) : ShownTab a c := by
  intro hw
  obtain ⟨hb, h⟩ := h hw
  obtain ⟨hc, k⟩ := k hb
  refine ⟨hc, fun i => ?_⟩
  rcases k i with k | ⟨k1, k2⟩
  · exact .inl k
  · rcases h i with h | ⟨h1, h2⟩
    · rw [h] at k2
      rcases k2 with k2 | ⟨k2, -⟩
      · exact .inl k2
      · exact .inl (List.length_eq_zero_iff.1 k2)
    · exact .inr ⟨k1.trans h1, dims_trans h2 (h1 ▸ k2)⟩

/-- Changing one head. -/
theorem shown_modify (k : Nat) (f : HeadRt → HeadRt) (t : Tab HeadRt)
    (hf : (f (t.get {} k)).lit = [] ∨ ((f (t.get {} k)).glassBand = (t.get {} k).glassBand ∧ Dims (t.get {} k).glassBand (t.get {} k).lit (f (t.get {} k)).lit)) :
    ShownTab t (t.modify {} k f) := by
  intro hw
  have hs : Tab.sortedFrom none t = true := (Tab.wf_iff.1 hw).1
  refine ⟨Tab.wf_modify k f hw, fun i => ?_⟩
  unfold Tab.modify
  by_cases hi : i = k
  · rw [hi, Tab.get_set_same _ _ _ _ hs]; exact hf
  · rw [Tab.get_set_other _ hi _ _ hs]; exact .inr ⟨rfl, dims_refl _ _⟩

/-- Nothing done keeps everything. -/
theorem keeps_refl (s : State) : Keeps s s :=
  ⟨⟨rfl, rfl, fun h => ⟨h, rfl, rfl⟩, ⟨rfl, rfl, rfl, rfl, id⟩, id, fun h => .inl ⟨h, id⟩, id⟩, shown_of_eq rfl⟩

/-- A conditional keeps what both sides keep. -/
theorem keeps_ite {a : State} {c : Prop} [Decidable c] {t e : State} (ht : Keeps a t) (he : Keeps a e) : Keeps a (if c then t else e) := by
  split <;> assumption

/-- A conditional on a proof keeps what both sides keep. -/
theorem keeps_dite {a : State} {c : Prop} [Decidable c] {t : c → State} {e : ¬c → State} (ht : ∀ h, Keeps a (t h)) (he : ∀ h, Keeps a (e h)) :
    Keeps a (dite c t e) := by
  split <;> simp_all

/-- A fold keeps what each of its steps keeps. -/
theorem keeps_foldl0 {a : State} {α : Type} {f : State → α → State} {l : List α} {s : State} (hs : Keeps a s)
    (hf : ∀ s x, Keeps a s → Keeps a (f s x)) : Keeps a (l.foldl f s) := by
  induction l generalizing s with
  | nil => exact hs
  | cons x t ih => exact ih (hf s x hs)

/-- The same for a fold over a state and something else. -/
theorem keeps_foldl1 {a : State} {α β : Type} {f : State × β → α → State × β} {l : List α} {s : State × β} (hs : Keeps a s.1)
    (hf : ∀ s x, Keeps a s.1 → Keeps a (f s x).1) : Keeps a (l.foldl f s).1 := by
  induction l generalizing s with
  | nil => exact hs
  | cons x t ih => exact ih (hf s x hs)

/-- The same for a fold over something else and a state. -/
theorem keeps_foldl2 {a : State} {α β : Type} {f : β × State → α → β × State} {l : List α} {s : β × State} (hs : Keeps a s.2)
    (hf : ∀ s x, Keeps a s.2 → Keeps a (f s x).2) : Keeps a (l.foldl f s).2 := by
  induction l generalizing s with
  | nil => exact hs
  | cons x t ih => exact ih (hf s x hs)

/-- A fold from the right keeps what each of its steps keeps. -/
theorem keeps_foldr {a : State} {α : Type} {f : α → State → State} {l : List α} {s : State} (hs : Keeps a s)
    (hf : ∀ x s, Keeps a s → Keeps a (f x s)) : Keeps a (l.foldr f s) := by
  induction l with
  | nil => exact hs
  | cons x t ih => exact hf x _ ih

/-- What one operation keeps may be used more than once after it. -/
theorem keeps_share {a v t : State} (hb : Keeps a v → Keeps a t) (hv : Keeps a v) : Keeps a t := hb hv

/-- A conditional keeps what each side keeps under its condition. -/
theorem keeps_cond {a : State} {c : Prop} [Decidable c] {t e : State} (ht : c → Keeps a t) (he : ¬c → Keeps a e) : Keeps a (if c then t else e) := by
  split
  · exact ht ‹_›
  · exact he ‹_›

/-- What stays to a state and from it on stays throughout. -/
theorem stays_trans {a b c : State} (h : Stays a b) (k : Stays b c) : Stays a c := by
  obtain ⟨h1, h2, h3, ⟨f1, f2, f3, f4, f5⟩, h5, h6, h7⟩ := h
  obtain ⟨k1, k2, k3, ⟨g1, g2, g3, g4, g5⟩, k5, k6, k7⟩ := k
  refine ⟨k1.trans h1, k2.trans h2, fun hr => ?_, ⟨g1.trans f1, g2.trans f2, g3.trans f3, g4.trans f4, fun h => g5 (f5 h)⟩,
    fun h => k5 (h5 h), fun hs => ?_, fun h => k7 (h7 h)⟩
  · obtain ⟨r1, r2, r3⟩ := k3 hr
    obtain ⟨q1, q2, q3⟩ := h3 r1
    exact ⟨q1, r2.trans q2, r3.trans q3⟩
  · rcases h6 hs with ⟨hb, hd⟩ | hb
    · rcases k6 hb with ⟨hc, he⟩ | hc
      · exact .inl ⟨hc, fun h => he (hd h)⟩
      · exact .inr hc
    · exact .inr (k5 hb)

/-- What is kept to a state and from it on is kept throughout. -/
theorem keeps_trans {a b c : State} (h : Keeps a b) (k : Keeps b c) : Keeps a c := ⟨stays_trans h.1 k.1, shown_trans h.2 k.2⟩

/-- An operation that leaves all of this alone but perhaps the bounded stores. -/
theorem keeps_stores {s t : State} (hp : t.pending = s.pending) (ht : t.time.upTicks = s.time.upTicks) (hr : t.raster = s.raster)
    (hf : t.fuses = s.fuses) (hb : t.boot.step = s.boot.step) (hc : t.clk.fioWait = s.clk.fioWait) (hd : t.dev = s.dev)
    (hs : s.Sound → t.Sound) (hh : t.heads = s.heads := by rfl) : Keeps s t := by
  refine ⟨⟨hp, ht, ?_, ?_, ?_, ?_, hs⟩, shown_of_eq hh⟩
  · rw [hr]; exact fun h => ⟨h, rfl, rfl⟩
  · rw [hf]; exact ⟨rfl, rfl, rfl, rfl, id⟩
  · rw [hb]; exact id
  · unfold State.Settled; rw [hb, hc, hd]; exact fun h => .inl ⟨h, id⟩

/-- A device between reset and its end of the start is not settled. -/
theorem keeps_starting {s t : State} (hp : t.pending = s.pending) (ht : t.time.upTicks = s.time.upTicks)
    (hr : t.raster.run = true → s.raster.run = true ∧ t.raster.frame = s.raster.frame ∧ t.raster.line = s.raster.line)
    (hf : t.fuses = s.fuses) (h2 : s.boot.step ≤ 2 → t.boot.step ≤ 2)
    (h11 : s.boot.step ≠ 11 ∨ s.clk.fioWait = true ∨ s.dev = .starting ∨ t.boot.step ≤ 2) (hs : s.Sound → t.Sound)
    (hh : t.heads = s.heads := by rfl) : Keeps s t := by
  refine ⟨⟨hp, ht, hr, ?_, h2, ?_, hs⟩, shown_of_eq hh⟩
  · rw [hf]; exact ⟨rfl, rfl, rfl, rfl, id⟩
  · rintro ⟨h, k, d⟩
    rcases h11 with h' | h' | h' | h'
    · exact absurd h h'
    · rw [k] at h'; cases h'
    · rw [h'] at d; simp at d
    · exact .inr h'

/-- Counters stay canonical and 32-bit when one of them takes a 32-bit value. -/
theorem sound_counter {s : State} (k v : Nat) (hv : v ≤ 4294967295) (h : s.Sound) : ({ s with counters := s.counters.set 0 k v } : State).Sound := by
  refine ⟨h.opened_le, h.staged_le, h.versions_le, h.versions_rise, h.recs_le, h.line_lt, h.bytes_wf, Tab.wf_set k v h.counters_wf, fun e he => ?_⟩
  rcases Tab.mem_set he with rfl | he
  · exact hv
  · exact h.counters_le e he

/-- A saturating sum is a 32-bit number. -/
theorem satAdd_le (a n : Nat) : satAdd a n ≤ 4294967295 := Nat.min_le_right _ _

/-- Every frame of the list lies above `f`. -/
def aboveAll (f : Nat) (l : List Version) : Bool := l.all (fun w => decide (f < w.frame))

/-- Inserting a version keeps the order of the store. -/
theorem insertVersion_rise (v : Version) (l : List Version) (h : framesRise l = true) : framesRise (insertVersion v l) = true := by
  have above : ∀ (f : Nat) (l : List Version), f < v.frame → (∀ w ∈ l, f < w.frame) → ∀ w ∈ insertVersion v l, f < w.frame := by
    intro f l hf
    induction l with
    | nil => intro _ w hw; simp only [insertVersion, List.mem_singleton] at hw; exact hw ▸ hf
    | cons x t ih =>
      intro hl w hw
      unfold insertVersion at hw
      split at hw
      · rcases List.mem_cons.1 hw with rfl | hw
        · exact hl x List.mem_cons_self
        · exact hl w (List.mem_cons_of_mem _ hw)
      · split at hw
        · rcases List.mem_cons.1 hw with rfl | hw
          · exact hf
          · exact hl w hw
        · rcases List.mem_cons.1 hw with rfl | hw
          · exact hl w List.mem_cons_self
          · exact ih (fun w h => hl w (List.mem_cons_of_mem _ h)) w hw
  induction l with
  | nil => rfl
  | cons x t ih =>
    simp only [framesRise, Bool.and_eq_true, List.all_eq_true, decide_eq_true_eq] at h
    unfold insertVersion
    split
    · simp only [framesRise, Bool.and_eq_true, List.all_eq_true, decide_eq_true_eq]; exact h
    · split
      · next hlt =>
        simp only [framesRise, Bool.and_eq_true, List.all_eq_true, decide_eq_true_eq]
        refine ⟨fun w hw => ?_, h⟩
        rcases List.mem_cons.1 hw with rfl | hw
        · exact hlt
        · exact Nat.lt_trans hlt (h.1 w hw)
      · simp only [framesRise, Bool.and_eq_true, List.all_eq_true, decide_eq_true_eq]
        exact ⟨above x.frame t (by omega) h.1, ih h.2⟩

/-- A version for a frame that the store has is merged; any other takes one more place. -/
theorem insertVersion_length (v : Version) (l : List Version) (h : framesRise l = true) :
    (insertVersion v l).length = if l.any (fun w => decide (w.frame = v.frame)) then l.length else l.length + 1 := by
  induction l with
  | nil => rfl
  | cons x t ih =>
    simp only [framesRise, Bool.and_eq_true, List.all_eq_true, decide_eq_true_eq] at h
    unfold insertVersion
    split
    · next he => simp [he]
    · next hne =>
      split
      · next hlt =>
        have : t.any (fun w => decide (w.frame = v.frame)) = false := by
          rw [List.any_eq_false]; intro w hw; have := h.1 w hw; simp; omega
        simp [this, hne]
      · simp only [List.length_cons, ih h.2, List.any_cons, hne, decide_false, Bool.false_or]
        split <;> rfl

/-- Which frames the store holds after an insertion. -/
theorem insertVersion_any (v : Version) (l : List Version) (f : Nat) :
    (insertVersion v l).any (fun w => decide (w.frame = f)) = (decide (v.frame = f) || l.any (fun w => decide (w.frame = f))) := by
  induction l with
  | nil => simp [insertVersion]
  | cons x t ih =>
    unfold insertVersion
    split
    · next he => simp only [List.any_cons, he]; cases decide (v.frame = f) <;> simp
    · split
      · simp
      · simp only [List.any_cons, ih]; cases decide (v.frame = f) <;> cases decide (x.frame = f) <;> simp

/-- Taking versions out keeps the order. -/
theorem framesRise_filter (p : Version → Bool) (l : List Version) (h : framesRise l = true) : framesRise (l.filter p) = true := by
  induction l with
  | nil => rfl
  | cons x t ih =>
    simp only [framesRise, Bool.and_eq_true, List.all_eq_true, decide_eq_true_eq] at h
    rw [List.filter_cons]
    split
    · simp only [framesRise, Bool.and_eq_true, List.all_eq_true, decide_eq_true_eq]
      exact ⟨fun w hw => h.1 w (List.mem_filter.1 hw).1, ih h.2⟩
    · exact ih h.2

/-! ### Machine/Ops.lean -/

/-- Time alone advances, by the row's ticks. -/
theorem State.advance_frame (dt : Nat) (s : State) :
    s.advance dt = { s with time := (s.advance dt).time } ∧ (s.advance dt).time.upTicks = s.time.upTicks + dt := by
  refine ⟨rfl, ?_⟩
  simp only [State.advance, Time.after]
  split <;> rfl

theorem State.keeps_count {a : State} {x0} {x1} {x2} {x3} {x4} (hx4 : Keeps a x4) : Keeps a (State.count x0 x1 x2 x3 x4) :=
  keeps_trans hx4 (keeps_stores rfl rfl rfl rfl rfl rfl rfl (fun h => sound_counter _ _ (satAdd_le _ _) h))

theorem State.keeps_setRing {a : State} {x0} {x1} {x2} (hx2 : Keeps a x2) : Keeps a (State.setRing x0 x1 x2) := by
  unfold State.setRing
  exact hx2

theorem State.keeps_msix {a : State} {x0} {x1} (hx1 : Keeps a x1) : Keeps a (State.msix x0 x1) := by
  unfold State.msix
  exact hx1

theorem State.keeps_ringInterrupt {a : State} {x0} {x1} (hx1 : Keeps a x1) : Keeps a (State.ringInterrupt x0 x1) := by
  unfold State.ringInterrupt
  extract_lets +onlyGivenNames -merge -useContext -underBinder r_0
  exact keeps_ite (State.keeps_setRing hx1) (keeps_ite (State.keeps_msix hx1) (State.keeps_msix (State.keeps_setRing hx1)))

theorem State.keeps_hostWrite {a : State} {x0} {x1} {x2} (hx2 : Keeps a x2) : Keeps a (State.hostWrite x0 x1 x2) := by
  unfold State.hostWrite
  exact hx2

theorem State.keeps_wroteSlots {a : State} {x0} {x1} {x2} {x3} (hx3 : Keeps a x3) : Keeps a (State.wroteSlots x0 x1 x2 x3) := by
  unfold State.wroteSlots
  extract_lets +onlyGivenNames -merge -useContext -underBinder r_0
  extract_lets +onlyGivenNames -merge -useContext -underBinder w_1
  extract_lets +onlyGivenNames -merge -useContext -underBinder s_2
  have hs_2 : Keeps a s_2 := keeps_foldl0 hx3 (fun z3 z4 hz3 => (State.keeps_hostWrite hz3))
  clear_value s_2
  exact State.keeps_ringInterrupt (State.keeps_hostWrite (State.keeps_setRing hs_2))

theorem State.keeps_deliverEvent {a : State} {x0} {x1} (hx1 : Keeps a x1) : Keeps a (State.deliverEvent x0 x1) := by
  unfold State.deliverEvent
  extract_lets +onlyGivenNames -merge -useContext -underBinder r_0
  exact keeps_ite (State.keeps_wroteSlots hx1) hx1

theorem State.keeps_event {a : State} {x0} {x1} {x2} {x3} (hx3 : Keeps a x3) : Keeps a (State.event x0 x1 x2 x3) := by
  refine State.keeps_deliverEvent (keeps_trans hx3 (keeps_stores rfl rfl rfl rfl rfl rfl rfl (fun h => ?_)))
  exact ⟨h.opened_le, h.staged_le, h.versions_le, h.versions_rise, by simp only [List.length_take]; omega, h.line_lt, h.bytes_wf, h.counters_wf, h.counters_le⟩

theorem State.keeps_eventsLost {a : State} {x0} (hx0 : Keeps a x0) : Keeps a (State.eventsLost x0) := by
  unfold State.eventsLost
  extract_lets +onlyGivenNames -merge -useContext -underBinder r_0
  exact keeps_ite (by extract_lets +onlyGivenNames -merge -useContext -underBinder d_1; exact (State.keeps_event hx0)) hx0

theorem State.keeps_modDomain {a : State} {x0} {x1} {x2} (hx2 : Keeps a x2) : Keeps a (State.modDomain x0 x1 x2) := by
  refine keeps_trans hx2 (keeps_stores rfl ?_ rfl rfl rfl rfl rfl id)
  simp only [State.modDomain, Time.setDomain]; split <;> rfl

theorem State.keeps_modHead {a : State} {x0} {x1 : HeadRt → HeadRt} {x2} (hx2 : Keeps a x2)
    (hf : ∀ r : HeadRt, (x1 r).lit = [] ∨ ((x1 r).lit = r.lit ∧ (x1 r).glassBand = r.glassBand) := by intro r; first | exact .inl rfl | exact .inr ⟨rfl, rfl⟩) :
    Keeps a (State.modHead x0 x1 x2) := by
  refine ⟨hx2.1, shown_trans hx2.2 (shown_modify x0 x1 x2.heads ?_)⟩
  rcases hf (x2.heads.get {} x0) with h | ⟨h, k⟩
  · exact .inl h
  · exact .inr ⟨k, h ▸ dims_refl _ _⟩

theorem State.keeps_modSrc {a : State} {x0} {x1} {x2} (hx2 : Keeps a x2) : Keeps a (State.modSrc x0 x1 x2) := by
  unfold State.modSrc
  exact hx2

theorem State.keeps_sendReply {a : State} {x0} {x1} (hx1 : Keeps a x1) : Keeps a (State.sendReply x0 x1) := by
  unfold State.sendReply
  split <;> first | exact hx1 | exact
      (by extract_lets +onlyGivenNames -merge -useContext -underBinder q_0; exact (keeps_ite hx1 (keeps_ite (State.keeps_wroteSlots hx1) (State.keeps_setRing hx1))))

theorem State.keeps_reply {a : State} {x0} {x1} {x2} {x3} {x4} {x5} {x6} {x7} (hx7 : Keeps a x7) : Keeps a (State.reply x0 x1 x2 x3 x4 x5 x6 x7) := by
  unfold State.reply
  exact keeps_ite hx7 (State.keeps_sendReply hx7)

theorem State.keeps_setCounter {a : State} {x0} {x1} {x2} {x3} {x4} (hx4 : Keeps a x4) : Keeps a (State.setCounter x0 x1 x2 x3 x4) :=
  keeps_trans hx4 (keeps_stores rfl rfl rfl rfl rfl rfl rfl (fun h => sound_counter _ _ (Nat.min_le_right _ _) h))

theorem State.keeps_setDev {a : State} {x0} {x1} {x2 : State}
    (hn : ((x0 = .configuring ∨ x0 = .running ∨ x0 = .degraded ∨ x0 = .safe) ∧ (x2.dev = .safe → x0 = .safe)) ∨ ¬a.Settled)
    (hx2 : Keeps a x2) : Keeps a (State.setDev x0 x1 x2) := by
  unfold State.setDev
  refine keeps_ite hx2 ?_
  extract_lets +onlyGivenNames -merge -useContext -underBinder old src_1 s_2
  have hs_2 : Keeps a s_2 := by
    rcases hn with ⟨hn, hsafe⟩ | hn
    · refine keeps_trans hx2 ⟨⟨rfl, rfl, fun h => ⟨h, rfl, rfl⟩, ⟨rfl, rfl, rfl, rfl, id⟩, id, ?_, id⟩, shown_of_eq rfl⟩
      rintro ⟨h, k, d⟩
      exact .inl ⟨⟨h, k, hn⟩, hsafe⟩
    · obtain ⟨⟨h1, h2, h3, h4, h5, h6, h7⟩, h8⟩ := hx2
      exact ⟨⟨h1, h2, h3, h4, h5, fun h => absurd h hn, h7⟩, h8⟩
  clear_value s_2
  exact State.keeps_msix (keeps_ite hs_2 (State.keeps_event hs_2))

theorem State.keeps_takeFree {a : State} {x0} (hx0 : Keeps a x0) : Keeps a (State.takeFree x0).2 := by
  unfold State.takeFree
  exact hx0

/-! ### Machine/Bound.lean -/

theorem keeps_alarmUpdate {a : State} {x0} (hx0 : Keeps a x0) : Keeps a (alarmUpdate x0) := by
  unfold alarmUpdate
  split <;> first | exact hx0 | exact (keeps_ite hx0 (keeps_ite hx0 (by split <;> first | exact (keeps_ite hx0 hx0) | exact hx0)))

theorem keeps_voidOne {a : State} {x0} {x1} {x2} (hx2 : Keeps a x2) : Keeps a (voidOne x0 x1 x2) := by
  unfold voidOne
  extract_lets +onlyGivenNames -merge -useContext -underBinder cs_0
  exact keeps_ite hx2 (State.keeps_event hx2)

theorem keeps_boundCheck {a : State} {x0} (hx0 : Keeps a x0) : Keeps a (boundCheck x0) := by
  unfold boundCheck
  extract_lets +onlyGivenNames -merge -useContext -underBinder fs_0
  extract_lets +onlyGivenNames -merge -useContext -underBinder src_1 src_2 s_3
  have hs_3 : Keeps a s_3 := hx0
  clear_value s_3
  exact keeps_foldl0 hs_3 (fun z4 z5 hz4 => (keeps_voidOne hz4))

theorem keeps_restoreOne {a : State} {x0} {x1} (hx1 : Keeps a x1) : Keeps a (restoreOne x0 x1) := by
  unfold restoreOne
  exact State.keeps_event hx1

theorem keeps_boundLine0 {a : State} {x0} (hx0 : Keeps a x0) : Keeps a (boundLine0 x0) := by
  unfold boundLine0
  extract_lets +onlyGivenNames -merge -useContext -underBinder src_0 s_1
  have hs_1 : Keeps a s_1 := keeps_ite hx0 hx0
  clear_value s_1
  extract_lets +onlyGivenNames -merge -useContext -underBinder fs_2
  extract_lets +onlyGivenNames -merge -useContext -underBinder old_3
  extract_lets +onlyGivenNames -merge -useContext -underBinder gone_4
  extract_lets +onlyGivenNames -merge -useContext -underBinder s_5
  have hs_5 : Keeps a s_5 := keeps_foldl0 hs_1 (fun z6 z7 hz6 => (keeps_restoreOne hz6))
  clear_value s_5
  extract_lets +onlyGivenNames -merge -useContext -underBinder back_8
  extract_lets +onlyGivenNames -merge -useContext -underBinder s_9
  have hs_9 : Keeps a s_9 := keeps_foldl0 hs_5 (fun z10 z11 hz10 => (keeps_restoreOne hz10))
  clear_value s_9
  extract_lets +onlyGivenNames -merge -useContext -underBinder src_12 src_13 s_14
  have hs_14 : Keeps a s_14 := hs_9
  clear_value s_14
  exact keeps_foldl0 hs_14 (fun z15 z16 hz15 => (keeps_voidOne hz15))

/-! ### Machine/Reeve.lean -/

theorem State.keeps_modCtx {a : State} {x0} {x1} {x2} (hx2 : Keeps a x2) : Keeps a (State.modCtx x0 x1 x2) := by
  unfold State.modCtx
  exact hx2

theorem State.keeps_takePic {a : State} {x0} {x1} {x2} (hx2 : Keeps a x2) : Keeps a (State.takePic x0 x1 x2) := by
  unfold State.takePic
  extract_lets +onlyGivenNames -merge -useContext -underBinder cfg_0
  extract_lets +onlyGivenNames -merge -useContext -underBinder rt_1
  refine keeps_ite (State.keeps_count hx2) ?_
  extract_lets +onlyGivenNames -merge -useContext -underBinder irap_2
  refine keeps_ite (State.keeps_count hx2) ?_
  extract_lets +onlyGivenNames -merge -useContext -underBinder q_3
  exact State.keeps_modCtx (State.keeps_count hx2)

theorem State.keeps_admitPic {a : State} {x0} {x1} {x2} (hx2 : Keeps a x2) : Keeps a (State.admitPic x0 x1 x2) := by
  unfold State.admitPic
  extract_lets +onlyGivenNames -merge -useContext -underBinder old_0
  extract_lets +onlyGivenNames -merge -useContext -underBinder s_1
  have hs_1 : Keeps a s_1 := State.keeps_modCtx hx2
  clear_value s_1
  split <;> first | exact hs_1 | exact (State.keeps_takePic hs_1)

theorem State.keeps_allocSource {a : State} {x0} {x1} (hx1 : Keeps a x1) : Keeps a (State.allocSource x0 x1) := by
  unfold State.allocSource
  extract_lets +onlyGivenNames -merge -useContext -underBinder src_0
  have hsrc_0 : Keeps a src_0 := State.keeps_modSrc hx1
  clear_value src_0
  exact hsrc_0

theorem State.keeps_ctxWaitIrap {a : State} {x0} {x1} (hx1 : Keeps a x1) : Keeps a (State.ctxWaitIrap x0 x1) := by
  unfold State.ctxWaitIrap
  exact keeps_foldl0 (State.keeps_modCtx hx1) (fun z0 z1 hz0 => State.keeps_admitPic hz0)

theorem State.keeps_ctxResync {a : State} {x0} {x1} (hx1 : Keeps a x1) : Keeps a (State.ctxResync x0 x1) := by
  unfold State.ctxResync
  extract_lets +onlyGivenNames -merge -useContext -underBinder rt_0
  refine keeps_ite hx1 ?_
  extract_lets +onlyGivenNames -merge -useContext -underBinder s_1
  have hs_1 : Keeps a s_1 := State.keeps_modCtx (State.keeps_count hx1)
  clear_value s_1
  exact keeps_ite hs_1 (State.keeps_ctxWaitIrap hs_1)

theorem State.keeps_ctxSettle {a : State} {x0} {x1} (hx1 : Keeps a x1) : Keeps a (State.ctxSettle x0 x1) := by
  unfold State.ctxSettle
  extract_lets +onlyGivenNames -merge -useContext -underBinder new_0
  extract_lets +onlyGivenNames -merge -useContext -underBinder rt_1
  exact keeps_ite (State.keeps_modCtx hx1) (keeps_ite (State.keeps_ctxWaitIrap (State.keeps_modCtx hx1)) hx1)

theorem State.keeps_modEngine {a : State} {x0} {x1} {x2} (hx2 : Keeps a x2) : Keeps a (State.modEngine x0 x1 x2) := by
  unfold State.modEngine
  exact hx2

theorem State.keeps_startDecode {a : State} {x0} {x1} {x2} {x3} (hx3 : Keeps a x3) : Keeps a (State.startDecode x0 x1 x2 x3) := by
  unfold State.startDecode
  split <;> first | exact hx3 | exact (State.keeps_modEngine (State.keeps_modCtx hx3))

theorem State.keeps_moveSource {a : State} {x0} {x1} (hx1 : Keeps a x1) : Keeps a (State.moveSource x0 x1) := by
  unfold State.moveSource
  extract_lets +onlyGivenNames -merge -useContext -underBinder g_0
  extract_lets +onlyGivenNames -merge -useContext -underBinder old_1
  exact State.keeps_allocSource (State.keeps_modSrc hx1)

theorem State.keeps_movePool {a : State} {x0} {x1} (hx1 : Keeps a x1) : Keeps a (State.movePool x0 x1) := by
  unfold State.movePool
  extract_lets +onlyGivenNames -merge -useContext -underBinder cfg_0
  split <;> first | exact hx1 | exact (keeps_ite (State.keeps_moveSource hx1) hx1)

theorem State.keeps_poolStall {a : State} {x0} {x1} (hx1 : Keeps a x1) : Keeps a (State.poolStall x0 x1) := by
  unfold State.poolStall
  refine keeps_ite hx1 ?_
  extract_lets +onlyGivenNames -merge -useContext -underBinder s_0
  have hs_0 : Keeps a s_0 := State.keeps_modCtx (State.keeps_count hx1)
  clear_value s_0
  exact keeps_ite (keeps_boundCheck hs_0) hs_0

theorem State.keeps_substitute {a : State} {x0} {x1} {x2} {x3} {x4} (hx4 : Keeps a x4) : Keeps a (State.substitute x0 x1 x2 x3 x4) := by
  unfold State.substitute
  extract_lets +onlyGivenNames -merge -useContext -underBinder long_0
  extract_lets +onlyGivenNames -merge -useContext -underBinder s_1
  have hs_1 : Keeps a s_1 := State.keeps_modCtx (State.keeps_count hx4)
  clear_value s_1
  split <;> first | exact (State.keeps_modCtx hs_1) | exact hs_1

theorem State.keeps_settleRef {a : State} {x0} {x1} {x2} {x3 : State × Bool} (hx3 : Keeps a x3.1) : Keeps a (State.settleRef x0 x1 x2 x3).1 := by
  unfold State.settleRef
  extract_lets +onlyGivenNames -merge -useContext -underBinder rt_0
  clear_value rt_0
  split
  · exact hx3
  · split
    · exact State.keeps_substitute hx3
    · split
      · exact hx3
      · exact State.keeps_substitute hx3

theorem State.keeps_settleRefs {a : State} {x0} {x1} {x2 : State} (hx2 : Keeps a x2) : Keeps a (x2.settleRefs x0 x1).1 := by
  unfold State.settleRefs
  extract_lets +onlyGivenNames -merge -useContext -underBinder s_0
  have hs_0 : Keeps a s_0 := keeps_ite (State.keeps_modCtx hx2) hx2
  clear_value s_0
  exact keeps_foldl1 hs_0 (fun z x hz => State.keeps_settleRef hz)

theorem State.keeps_offer {a : State} {x0} {x1} (hx1 : Keeps a x1) : Keeps a (State.offer x0 x1) := by
  unfold State.offer
  extract_lets +onlyGivenNames -merge -useContext -underBinder s_0
  have h1 : Keeps a s_0 := State.keeps_movePool (State.keeps_modCtx hx1)
  clear_value s_0
  split
  · exact h1
  · exact h1
  · extract_lets +onlyGivenNames -merge -useContext -underBinder x_1 s_2
    have h2 : Keeps a s_2 := State.keeps_settleRefs h1
    clear_value s_2 x_1
    split
    · exact keeps_ite (State.keeps_startDecode h2) (State.keeps_startDecode (State.keeps_takeFree h2))
    · exact State.keeps_poolStall h2

theorem State.keeps_dispatch {a : State} {x0} (hx0 : Keeps a x0) : Keeps a (State.dispatch x0) := by
  unfold State.dispatch
  exact keeps_ite (keeps_foldl0 hx0 (fun z0 z1 hz0 => (State.keeps_offer hz0))) hx0

theorem State.keeps_noteSpacing {a : State} {x0} {x1} {x2} (hx2 : Keeps a x2) : Keeps a (State.noteSpacing x0 x1 x2) := by
  unfold State.noteSpacing
  extract_lets +onlyGivenNames -merge -useContext -underBinder last_0 s_1
  have hs_1 : Keeps a s_1 := State.keeps_modCtx hx2
  clear_value s_1
  exact keeps_ite (keeps_boundCheck hs_1) hs_1

theorem State.keeps_queuePic {a : State} {x0} {x1} {x2} (hx2 : Keeps a x2) : Keeps a (State.queuePic x0 x1 x2) := by
  unfold State.queuePic
  refine keeps_ite hx2 ?_
  extract_lets +onlyGivenNames -merge -useContext -underBinder s_0
  have hs_0 : Keeps a s_0 := State.keeps_noteSpacing hx2
  clear_value s_0
  exact keeps_ite (State.keeps_modCtx hs_0) (State.keeps_dispatch (State.keeps_admitPic hs_0))

theorem State.keeps_releaseBufs {a : State} {x0} {x1} (hx1 : Keeps a x1) : Keeps a (State.releaseBufs x0 x1) := by
  unfold State.releaseBufs
  extract_lets +onlyGivenNames -merge -useContext -underBinder s_0
  have hs_0 : Keeps a s_0 := State.keeps_modSrc hx1
  clear_value s_0
  extract_lets +onlyGivenNames -merge -useContext -underBinder held_1
  exact hs_0

theorem State.keeps_releaseAll {a : State} {x0} (hx0 : Keeps a x0) : Keeps a (State.releaseAll x0) := by
  unfold State.releaseAll
  exact keeps_foldl0 hx0 (fun z0 z1 hz0 => (State.keeps_releaseBufs hz0))

theorem State.keeps_saveCtx {a : State} {x0} {x1} (hx1 : Keeps a x1) : Keeps a (State.saveCtx x0 x1) := by
  unfold State.saveCtx
  extract_lets +onlyGivenNames -merge -useContext -underBinder here_0
  exact State.keeps_modCtx hx1

theorem State.keeps_sentPic {a : State} {x0} {x1} {x2} (hx2 : Keeps a x2) : Keeps a (State.sentPic x0 x1 x2) := by
  unfold State.sentPic
  exact keeps_ite hx2 (State.keeps_modCtx hx2)

theorem State.keeps_unreadPic {a : State} {x0} {x1} {x2} (hx2 : Keeps a x2) : Keeps a (State.unreadPic x0 x1 x2) := by
  unfold State.unreadPic
  extract_lets +onlyGivenNames -merge -useContext -underBinder s_0
  have hs_0 : Keeps a s_0 := State.keeps_modCtx hx2
  clear_value s_0
  exact keeps_ite (State.keeps_count hs_0) (State.keeps_modCtx hs_0)

/-! ### Machine/Braid.lean -/

theorem State.keeps_takeBackNow {a : State} {x0} (hx0 : Keeps a x0) : Keeps a (State.takeBackNow x0) := by
  unfold State.takeBackNow
  extract_lets +onlyGivenNames -merge -useContext -underBinder pref_0
  extract_lets +onlyGivenNames -merge -useContext -underBinder src_1 t_2
  have ht_2 : Keeps a t_2 := hx0
  clear_value t_2
  exact keeps_ite (State.keeps_event (State.keeps_count ht_2)) ht_2

theorem State.keeps_modRow {a : State} {x0} {x1} {x2} (hx2 : Keeps a x2) : Keeps a (State.modRow x0 x1 x2) := by
  unfold State.modRow
  exact hx2

theorem State.keeps_startPass {a : State} {x0} {x1} (hx1 : Keeps a x1) : Keeps a (State.startPass x0 x1) := by
  unfold State.startPass
  extract_lets +onlyGivenNames -merge -useContext -underBinder h_0
  extract_lets +onlyGivenNames -merge -useContext -underBinder r_1
  extract_lets +onlyGivenNames -merge -useContext -underBinder l_2
  extract_lets +onlyGivenNames -merge -useContext -underBinder cols_3
  extract_lets +onlyGivenNames -merge -useContext -underBinder p_4
  extract_lets +onlyGivenNames -merge -useContext -underBinder s_5
  have hs_5 : Keeps a s_5 := State.keeps_modRow hx1
  clear_value s_5
  exact hs_5

theorem State.keeps_schedule {a : State} {x0} (hx0 : Keeps a x0) : Keeps a (State.schedule x0) := by
  unfold State.schedule
  refine keeps_ite hx0 ?_
  extract_lets +onlyGivenNames -merge -useContext -underBinder s_0
  have hs_0 : Keeps a s_0 := State.keeps_takeBackNow hx0
  clear_value s_0
  split <;> first | exact hs_0 | exact (State.keeps_startPass hs_0)

theorem State.keeps_dropRows {a : State} {x0} {x1} (hx1 : Keeps a x1) : Keeps a (State.dropRows x0 x1) := by
  unfold State.dropRows
  extract_lets +onlyGivenNames -merge -useContext -underBinder mine_0
  extract_lets +onlyGivenNames -merge -useContext -underBinder src_1 s_2
  have hs_2 : Keeps a s_2 := hx1
  clear_value s_2
  exact State.keeps_schedule (State.keeps_releaseAll hs_2)

theorem State.keeps_rowBegin {a : State} {x0} {x1} {x2} {x3} {x4} (hx4 : Keeps a x4) : Keeps a (State.rowBegin x0 x1 x2 x3 x4) := by
  unfold State.rowBegin
  exact keeps_ite (State.keeps_modRow hx4) hx4

theorem State.keeps_rowBind {a : State} {x0} {x1} (hx1 : Keeps a x1) : Keeps a (State.rowBind x0 x1) := by
  unfold State.rowBind
  extract_lets +onlyGivenNames -merge -useContext -underBinder h_0
  extract_lets +onlyGivenNames -merge -useContext -underBinder r_1
  extract_lets +onlyGivenNames -merge -useContext -underBinder cols_2
  extract_lets +onlyGivenNames -merge -useContext -underBinder tag_3
  extract_lets +onlyGivenNames -merge -useContext -underBinder s_4
  have hs_4 : Keeps a s_4 := keeps_ite (State.keeps_count hx1) hx1
  clear_value s_4
  extract_lets +onlyGivenNames -merge -useContext -underBinder s_5
  have hs_5 : Keeps a s_5 := keeps_ite (State.keeps_count hs_4) hs_4
  clear_value s_5
  extract_lets +onlyGivenNames -merge -useContext -underBinder s_6
  have hs_6 : Keeps a s_6 := State.keeps_count hs_5
  clear_value s_6
  extract_lets +onlyGivenNames -merge -useContext -underBinder new_7
  extract_lets +onlyGivenNames -merge -useContext -underBinder r'_8
  extract_lets +onlyGivenNames -merge -useContext -underBinder s_9
  have hs_9 : Keeps a s_9 := keeps_ite (State.keeps_modHead hs_6) (State.keeps_count hs_6)
  clear_value s_9
  extract_lets +onlyGivenNames -merge -useContext -underBinder s_10
  have hs_10 : Keeps a s_10 := State.keeps_modRow hs_9
  clear_value s_10
  extract_lets +onlyGivenNames -merge -useContext -underBinder src_11 s_12
  have hs_12 : Keeps a s_12 := keeps_ite hs_10 hs_10
  clear_value s_12
  exact State.keeps_schedule (State.keeps_releaseAll hs_12)

theorem State.keeps_sealRow {a : State} {x0} {x1} {x2} {x3} {x4} (hx4 : Keeps a x4) : Keeps a (State.sealRow x0 x1 x2 x3 x4) := by
  unfold State.sealRow
  extract_lets +onlyGivenNames -merge -useContext -underBinder r_0
  extract_lets +onlyGivenNames -merge -useContext -underBinder later_1
  extract_lets +onlyGivenNames -merge -useContext -underBinder cols_2
  exact keeps_ite (State.keeps_modRow hx4) hx4

theorem State.keeps_sealArrived {a : State} {x0} {x1} {x2} {x3} (hx3 : Keeps a x3) : Keeps a (State.sealArrived x0 x1 x2 x3) := by
  unfold State.sealArrived
  exact State.keeps_schedule (keeps_foldl0 hx3 (fun z0 z1 hz0 => (State.keeps_sealRow hz0)))

/-! ### Machine/Glass.lean -/

theorem State.keeps_cutLines {a : State} {x0} {x1} (hx1 : Keeps a x1) : Keeps a (State.cutLines x0 x1) := by
  unfold State.cutLines
  extract_lets +onlyGivenNames -merge -useContext -underBinder r_0
  exact State.keeps_modHead (keeps_ite (State.keeps_count hx1) hx1)

theorem State.keeps_darken {a : State} {x0} {x1} (hx1 : Keeps a x1) : Keeps a (State.darken x0 x1) := by
  unfold State.darken
  extract_lets +onlyGivenNames -merge -useContext -underBinder r_0
  extract_lets +onlyGivenNames -merge -useContext -underBinder m_1
  refine keeps_ite hx1 ?_
  have h : Keeps a (if r_0.litAbort = true then State.count 5 x0 2 m_1 x1 else x1) := keeps_ite (State.keeps_count hx1) hx1
  generalize (if r_0.litAbort = true then State.count 5 x0 2 m_1 x1 else x1) = u at h ⊢
  exact ⟨h.1, shown_trans h.2 
    (shown_modify x0 (fun r => { r with lit := darkLines x1.boot.palette r.glassBand m_1 r.lit, litAbort := false }) u.heads
      (.inr ⟨rfl, dims_darkLines _ _ _ _⟩))⟩

theorem State.keeps_rescaleStrobe {a : State} {x0} {x1} (hx1 : Keeps a x1) : Keeps a (State.rescaleStrobe x0 x1) := by
  unfold State.rescaleStrobe
  exact State.keeps_modHead hx1

theorem State.keeps_strobeStart {a : State} {x0} {x1} (hx1 : Keeps a x1) : Keeps a (State.strobeStart x0 x1) := by
  unfold State.strobeStart
  exact State.keeps_modHead hx1

/-! ### Machine/Links.lean -/

theorem State.keeps_auxSend {a : State} {x0} {x1} (hx1 : Keeps a x1) : Keeps a (State.auxSend x0 x1) := by
  unfold State.auxSend
  split <;> first | exact hx1

theorem State.keeps_auxUntrain {a : State} {x0} {x1} (hx1 : Keeps a x1) : Keeps a (State.auxUntrain x0 x1) := by
  unfold State.auxUntrain
  extract_lets +onlyGivenNames -merge -useContext -underBinder first_0
  extract_lets +onlyGivenNames -merge -useContext -underBinder s_1
  have hs_1 : Keeps a s_1 := State.keeps_modHead hx1
  clear_value s_1
  exact keeps_ite (State.keeps_auxSend hs_1) hs_1

theorem State.keeps_modDesk {a : State} {x0} {x1} {x2} (hx2 : Keeps a x2) : Keeps a (State.modDesk x0 x1 x2) := by
  unfold State.modDesk
  exact hx2

theorem State.keeps_putReport {a : State} {x0} {x1} (hx1 : Keeps a x1) : Keeps a (State.putReport x0 x1) := by
  unfold State.putReport
  extract_lets +onlyGivenNames -merge -useContext -underBinder r_0
  extract_lets +onlyGivenNames -merge -useContext -underBinder src_1 s_2
  have hs_2 : Keeps a s_2 := hx1
  clear_value s_2
  extract_lets +onlyGivenNames -merge -useContext -underBinder q_3
  exact keeps_ite (State.keeps_wroteSlots hs_2) (keeps_ite (State.keeps_modDesk hs_2) (State.keeps_count hs_2))

theorem State.keeps_report {a : State} {x0} {x1} (hx1 : Keeps a x1) : Keeps a (State.report x0 x1) := by
  unfold State.report
  exact State.keeps_modDesk (State.keeps_putReport hx1)

theorem State.keeps_cancelContacts {a : State} {x0} {x1} (hx1 : Keeps a x1) : Keeps a (State.cancelContacts x0 x1) := by
  unfold State.cancelContacts
  exact State.keeps_modDesk (keeps_foldl0 hx1 (fun z0 z1 hz0 => (State.keeps_report hz0)))

theorem State.keeps_countHead {a : State} {x0} {x1} {x2} (hx2 : Keeps a x2) : Keeps a (State.countHead x0 x1 x2) := by
  unfold State.countHead
  exact State.keeps_count hx2

theorem State.keeps_deskState {a : State} {x0} {x1} {x2} (hx2 : Keeps a x2) : Keeps a (State.deskState x0 x1 x2) := by
  unfold State.deskState
  refine keeps_ite hx2 ?_
  extract_lets +onlyGivenNames -merge -useContext -underBinder s_0
  have hs_0 : Keeps a s_0 := keeps_ite (State.keeps_modDesk (State.keeps_cancelContacts hx2)) hx2
  clear_value s_0
  extract_lets +onlyGivenNames -merge -useContext -underBinder f_1
  have hf_1 : Keeps a f_1.2 := State.keeps_takeFree hs_0
  clear_value f_1
  extract_lets +onlyGivenNames -merge -useContext -underBinder s_2
  have hs_2 : Keeps a s_2 := State.keeps_modDesk hf_1
  clear_value s_2
  exact State.keeps_report hs_2

theorem State.keeps_deskLinkDown {a : State} {x0} {x1} (hx1 : Keeps a x1) : Keeps a (State.deskLinkDown x0 x1) := by
  unfold State.deskLinkDown
  exact keeps_ite (State.keeps_deskState hx1) (State.keeps_modDesk hx1)

theorem State.keeps_dropBuf {a : State} {x0} {x1} {x2} (hx2 : Keeps a x2) : Keeps a (State.dropBuf x0 x1 x2) := by
  unfold State.dropBuf
  exact State.keeps_modSrc hx2

theorem State.keeps_dprxDiscard {a : State} {x0} {x1} (hx1 : Keeps a x1) : Keeps a (State.dprxDiscard x0 x1) := by
  unfold State.dprxDiscard
  extract_lets +onlyGivenNames r
  refine keeps_ite ?_ hx1
  extract_lets +onlyGivenNames -merge -useContext -underBinder s1 s2
  have h1 : Keeps a s1 := State.keeps_count hx1
  clear_value s1
  have h2 : Keeps a s2 := by
    show Keeps a (match sourceOfPort s1.lay x0 with | none => _ | some i => _)
    cases sourceOfPort s1.lay x0 with
    | none => exact h1
    | some i => cases r.frameBuf with
      | none => exact State.keeps_count h1
      | some b => exact State.keeps_count (State.keeps_dropBuf h1)
  exact h2

theorem State.keeps_dprxDown {a : State} {x0} {x1} (hx1 : Keeps a x1) : Keeps a (State.dprxDown x0 x1) := by
  unfold State.dprxDown
  extract_lets +onlyGivenNames -merge -useContext -underBinder s_0
  have hs_0 : Keeps a s_0 := State.keeps_dprxDiscard hx1
  clear_value s_0
  exact hs_0

theorem State.keeps_modLane {a : State} {x0} {x1} {x2} (hx2 : Keeps a x2) : Keeps a (State.modLane x0 x1 x2) := by
  unfold State.modLane
  exact hx2

theorem State.keeps_restLane {a : State} {x0} {x1} (hx1 : Keeps a x1) : Keeps a (State.restLane x0 x1) := by
  unfold State.restLane
  exact keeps_ite (State.keeps_count (State.keeps_modLane hx1)) hx1

theorem State.keeps_restLanes {a : State} {x0} {x1} (hx1 : Keeps a x1) : Keeps a (State.restLanes x0 x1) := by
  unfold State.restLanes
  exact keeps_foldl0 hx1 (fun z0 z1 hz0 => (State.keeps_restLane hz0))

theorem State.keeps_headDown {a : State} {x0} {x1} (hx1 : Keeps a x1) : Keeps a (State.headDown x0 x1) := by
  unfold State.headDown
  exact State.keeps_restLanes (State.keeps_auxUntrain (State.keeps_modHead (State.keeps_cutLines hx1)))

theorem State.keeps_trainWrites {a : State} {x0} {x1} (hx1 : Keeps a x1) : Keeps a (State.trainWrites x0 x1) := by
  unfold State.trainWrites
  extract_lets +onlyGivenNames -merge -useContext -underBinder c_0
  extract_lets +onlyGivenNames -merge -useContext -underBinder ws_1
  exact hx1

theorem State.keeps_headTrain {a : State} {x0} {x1} (hx1 : Keeps a x1) : Keeps a (State.headTrain x0 x1) := by
  unfold State.headTrain
  exact State.keeps_trainWrites (State.keeps_modHead (State.keeps_cutLines hx1))

theorem State.keeps_headLinkLoss {a : State} {x0} {x1} (hx1 : Keeps a x1) : Keeps a (State.headLinkLoss x0 x1) := by
  unfold State.headLinkLoss
  exact keeps_ite (by extract_lets +onlyGivenNames -merge -useContext -underBinder s_0; have hs_0 : Keeps a s_0 := (State.keeps_headTrain (State.keeps_countHead hx1)); clear_value s_0; exact (keeps_ite hs_0 (State.keeps_headDown hs_0))) hx1

theorem State.keeps_headsSafe {a : State} {x0} (hx0 : Keeps a x0) : Keeps a (State.headsSafe x0) := by
  unfold State.headsSafe
  exact keeps_foldl0 hx0 (fun z0 z1 hz0 =>
      (by extract_lets +onlyGivenNames -merge -useContext -underBinder s_2; have hs_2 : Keeps a s_2 := (State.keeps_darken hz0); clear_value s_2; exact (keeps_ite (State.keeps_modHead hs_2) hs_2)))

theorem State.keeps_macDown {a : State} {x0} {x1} (hx1 : Keeps a x1) : Keeps a (State.macDown x0 x1) := by
  unfold State.macDown
  exact hx1

theorem State.keeps_quadStop {a : State} {x0} {x1} (hx1 : Keeps a x1) : Keeps a (State.quadStop x0 x1) := by
  unfold State.quadStop
  extract_lets +onlyGivenNames -merge -useContext -underBinder on_0
  extract_lets +onlyGivenNames -merge -useContext -underBinder s_1
  have hs_1 : Keeps a s_1 := keeps_foldl0 hx1 (fun z2 z3 hz2 => (keeps_ite (State.keeps_headLinkLoss hz2) hz2))
  clear_value s_1
  extract_lets +onlyGivenNames -merge -useContext -underBinder s_4
  have hs_4 : Keeps a s_4 := keeps_foldl0 hs_1 (fun z5 z6 hz5 => (keeps_ite (State.keeps_dprxDown hz5) hz5))
  clear_value s_4
  extract_lets +onlyGivenNames -merge -useContext -underBinder s_7
  have hs_7 : Keeps a s_7 := keeps_foldl0 hs_4 (fun z8 z9 hz8 => (keeps_ite (State.keeps_macDown hz8) hz8))
  clear_value s_7
  exact keeps_foldl0 hs_7 (fun z10 z11 hz10 => (keeps_ite (State.keeps_deskLinkDown hz10) hz10))

/-! ### Machine/Fence.lean -/

theorem State.keeps_abandonPic {a : State} {x0} {x1} (hx1 : Keeps a x1) : Keeps a (State.abandonPic x0 x1) := by
  unfold State.abandonPic
  split <;> first | exact hx1 | exact
      (by extract_lets +onlyGivenNames -merge -useContext -underBinder s_0; have hs_0 : Keeps a s_0 := (State.keeps_modEngine (State.keeps_unreadPic hx1)); clear_value s_0; exact (State.keeps_ctxSettle (keeps_ite (State.keeps_ctxWaitIrap hs_0) hs_0)))

theorem State.keeps_decFence {a : State} {x0} {x1} (hx1 : Keeps a x1) : Keeps a (State.decFence x0 x1) := by
  unfold State.decFence
  exact State.keeps_dispatch (keeps_alarmUpdate (State.keeps_abandonPic hx1))

theorem State.keeps_domainLost {a : State} {x0} {x1} (hx1 : Keeps a x1) : Keeps a (State.domainLost x0 x1) := by
  unfold State.domainLost
  extract_lets +onlyGivenNames -merge -useContext -underBinder s_0
  have hs_0 : Keeps a s_0 := State.keeps_modDomain hx1
  clear_value s_0
  exact State.keeps_event (State.keeps_count hs_0)

theorem State.keeps_dropQueued {a : State} {x0} {x1} (hx1 : Keeps a x1) : Keeps a (State.dropQueued x0 x1) := by
  unfold State.dropQueued
  extract_lets +onlyGivenNames -merge -useContext -underBinder qs_0
  exact hx1

theorem State.keeps_modEnc {a : State} {x0} {x1} {x2} (hx2 : Keeps a x2) : Keeps a (State.modEnc x0 x1 x2) := by
  unfold State.modEnc
  exact hx2

theorem State.keeps_encSuspend {a : State} {x0} {x1} (hx1 : Keeps a x1) : Keeps a (State.encSuspend x0 x1) := by
  unfold State.encSuspend
  exact State.keeps_dropQueued (State.keeps_modEnc hx1)

theorem State.keeps_encRestart {a : State} {x0} {x1} (hx1 : Keeps a x1) : Keeps a (State.encRestart x0 x1) := by
  unfold State.encRestart
  exact State.keeps_count (State.keeps_modEnc hx1)

theorem State.keeps_encMove {a : State} {x0} {x1} {x2} (hx2 : Keeps a x2) : Keeps a (State.encMove x0 x1 x2) := by
  unfold State.encMove
  extract_lets +onlyGivenNames -merge -useContext -underBinder r_0
  exact keeps_ite (State.keeps_encRestart (State.keeps_modEnc hx2)) (keeps_ite hx2 (State.keeps_modEnc hx2))

theorem State.keeps_encFence {a : State} {x0} {x1} (hx1 : Keeps a x1) : Keeps a (State.encFence x0 x1) := by
  unfold State.encFence
  extract_lets +onlyGivenNames -merge -useContext -underBinder mine_0
  extract_lets +onlyGivenNames -merge -useContext -underBinder loads_1
  extract_lets +onlyGivenNames -merge -useContext -underBinder r_2
  extract_lets +onlyGivenNames -merge -useContext -underBinder s_3
  have hs_3 : Keeps a s_3 := keeps_foldl0 hx1 (fun z4 z5 hz4 => (State.keeps_encMove hz4))
  clear_value s_3
  exact keeps_foldl0 hs_3 (fun z6 z7 hz6 => (State.keeps_encSuspend hz6))

theorem State.keeps_encRebind {a : State} {x0} (hx0 : Keeps a x0) : Keeps a (State.encRebind x0) := by
  unfold State.encRebind
  extract_lets +onlyGivenNames -merge -useContext -underBinder order_0
  extract_lets +onlyGivenNames -merge -useContext -underBinder r_1
  extract_lets +onlyGivenNames -merge -useContext -underBinder s_2
  have hs_2 : Keeps a s_2 := keeps_foldl0 hx0 (fun z3 z4 hz3 => (State.keeps_encMove hz3))
  clear_value s_2
  exact keeps_foldl0 hs_2 (fun z5 z6 hz5 => (keeps_ite hz5 (State.keeps_encSuspend hz5)))

theorem State.keeps_encResume {a : State} {x0} (hx0 : Keeps a x0) : Keeps a (State.encResume x0) := by
  unfold State.encResume
  exact keeps_foldl0 hx0 (fun z0 z1 hz0 => (keeps_ite hz0 (by split <;> first | exact (keeps_ite (State.keeps_encMove hz0) hz0) | exact hz0)))

theorem State.keeps_placeInternal {a : State} {x0} (hx0 : Keeps a x0) : Keeps a (State.placeInternal x0) := by
  unfold State.placeInternal
  extract_lets +onlyGivenNames f
  refine keeps_cond (fun _ => hx0) (fun hc => ?_)
  extract_lets +onlyGivenNames -merge -useContext -underBinder objs
  generalize hv : ({ frame := f, objs := objs, rebase := x0.splice.wantRebase } : Version) = v
  have hf : v.frame = f := by rw [← hv]
  refine keeps_trans hx0 (keeps_stores rfl rfl rfl rfl rfl rfl rfl (fun h => ?_))
  refine ⟨h.opened_le, h.staged_le, ?_, insertVersion_rise _ _ h.versions_rise, h.recs_le, h.line_lt, h.bytes_wf, h.counters_wf, h.counters_le⟩
  have ht : x0.storeTakes f = true := by
    simp only [Bool.or_eq_true, not_or, Bool.not_eq_true, Bool.not_eq_false'] at hc; exact hc.2
  have hl := h.versions_le
  show (insertVersion v x0.splice.versions).length ≤ 4
  rw [insertVersion_length v _ h.versions_rise, hf]
  simp only [State.storeTakes, Bool.or_eq_true, decide_eq_true_eq] at ht
  split
  · exact hl
  · next hn => rcases ht with ht | ht
               · exact absurd ht hn
               · omega

theorem State.keeps_fenceEffect {a : State} {x0} {x1} (hx1 : Keeps a x1) : Keeps a (State.fenceEffect x0 x1) := by
  unfold State.fenceEffect
  exact keeps_ite (State.keeps_dropRows (State.keeps_headDown hx1)) (keeps_ite (State.keeps_decFence hx1) (keeps_ite (State.keeps_encFence hx1)
      (keeps_ite hx1 (keeps_ite
      (by extract_lets +onlyGivenNames -merge -useContext -underBinder src_0 s_1; have hs_1 : Keeps a s_1 := hx1; clear_value s_1; exact (keeps_foldl0 hs_1 (fun z2 z3 hz2 => (State.keeps_darken hz2)))) (keeps_ite hx1 (keeps_ite (State.keeps_placeInternal hx1) (keeps_ite (by extract_lets +onlyGivenNames -merge -useContext -underBinder s_4; have hs_4 : Keeps a s_4 := (State.keeps_quadStop hx1); clear_value s_4; exact hs_4) (keeps_ite (State.keeps_dprxDown hx1) (by extract_lets +onlyGivenNames -merge -useContext -underBinder s_5; have hs_5 : Keeps a s_5 := (State.keeps_macDown hx1); clear_value s_5; exact (keeps_foldl0 hs_5 (fun z6 z7 hz6 => (keeps_ite (State.keeps_domainLost hz6) hz6))))))))))))

/-! ### Machine/Fault.lean -/

theorem State.keeps_procReset {a : State} {x0} {x1} (hx1 : Keeps a x1) : Keeps a (State.procReset x0 x1) := by
  unfold State.procReset
  extract_lets +onlyGivenNames -merge -useContext -underBinder src_0 s_1
  have hs_1 : Keeps a s_1 := hx1
  clear_value s_1
  exact keeps_ite (keeps_foldl0 hs_1 (fun z2 z3 hz2 => (keeps_ite (State.keeps_deskState hz2) hz2))) hs_1

theorem State.keeps_dropReady {a : State} {x0} (hx0 : Keeps a x0) : Keeps a (State.dropReady x0) := by
  unfold State.dropReady
  exact keeps_foldl0 hx0 (fun z0 z1 hz0 => (State.keeps_modSrc (keeps_foldl0 hz0 (fun z2 z3 hz2 => (State.keeps_sentPic (State.keeps_dropBuf hz2))))))

theorem State.keeps_dropOpenFrames {a : State} {x0} (hx0 : Keeps a x0) : Keeps a (State.dropOpenFrames x0) := by
  unfold State.dropOpenFrames
  extract_lets +onlyGivenNames -merge -useContext -underBinder t_0
  have ht_0 : Keeps a t_0 := keeps_foldl0 hx0 (fun z1 z2 hz1 => (keeps_foldl0 hz1 (fun z3 z4 hz3 =>
      (by split <;> first | exact hz3 | exact (State.keeps_dropBuf hz3)))))
  clear_value t_0
  exact ht_0

theorem State.keeps_dropDrawings {a : State} {x0} (hx0 : Keeps a x0) : Keeps a (State.dropDrawings x0) := by
  unfold State.dropDrawings
  extract_lets +onlyGivenNames -merge -useContext -underBinder t_0
  have ht_0 : Keeps a t_0 := keeps_foldl0 hx0 (fun z1 z2 hz1 => (keeps_foldl0 hz1 (fun z3 z4 hz3 => (State.keeps_dropBuf hz3))))
  clear_value t_0
  exact ht_0

theorem State.keeps_blockReset {a : State} {x0} {x1} (hx1 : Keeps a x1) : Keeps a (State.blockReset x0 x1) := by
  unfold State.blockReset
  extract_lets +onlyGivenNames -merge -useContext -underBinder n_0
  exact keeps_ite (State.keeps_headLinkLoss hx1) (keeps_ite (State.keeps_dispatch (State.keeps_abandonPic hx1)) (keeps_ite (keeps_foldl0 hx1 (fun
      z1 z2 hz1 => (keeps_ite (State.keeps_encRestart (State.keeps_modEnc hz1)) hz1))) (keeps_ite (State.keeps_dropDrawings hx1) (keeps_ite
      (State.keeps_dropReady hx1) (keeps_ite (State.keeps_dropOpenFrames hx1) (keeps_ite (State.keeps_dprxDown hx1) (keeps_ite (State.keeps_macDown
      hx1) (keeps_ite (keeps_foldl0 hx1 (fun z3 z4 hz3 => (keeps_ite (State.keeps_deskState hz3) hz3))) (keeps_ite (State.keeps_quadStop hx1)
      (keeps_ite (State.keeps_headLinkLoss hx1) (keeps_ite (State.keeps_procReset hx1) hx1)))))))))))

theorem sound_empty (n : Nat) (h : n < 4096) : SoundParts [] [] [] n [] [] :=
  ⟨by decide, fun _ h => absurd h (by simp), by decide, rfl, by decide, h, rfl, rfl, fun _ h => absurd h (by simp)⟩

theorem State.keeps_resetTo {a : State} {x0} {x1} {x2} (hstep : x1 ≤ 2) (hx2 : Keeps a x2) : Keeps a (State.resetTo x0 x1 x2) := by
  refine keeps_trans hx2 ⟨⟨rfl, rfl, fun h => by simp [State.resetTo, State.reset] at h, ⟨rfl, rfl, rfl, rfl, id⟩, fun _ => hstep, fun _ => .inr hstep,
    fun _ => sound_empty 0 (by decide)⟩, shown_nil⟩

theorem State.keeps_chipReset {a : State} {x0} {x1} (hx1 : Keeps a x1) : Keeps a (State.chipReset x0 x1) :=
  State.keeps_resetTo (Nat.le_refl 2) hx1

theorem State.keeps_modFaultSrc {a : State} {x0} {x1} {x2} (hx2 : Keeps a x2) : Keeps a (State.modFaultSrc x0 x1 x2) := by
  unfold State.modFaultSrc
  exact hx2

theorem State.keeps_writeFaultEvent {a : State} {x0} {x1} (hx1 : Keeps a x1) : Keeps a (State.writeFaultEvent x0 x1) := by
  unfold State.writeFaultEvent
  exact State.keeps_event (State.keeps_modFaultSrc hx1)

theorem State.keeps_dueFaultEvents {a : State} {x0} (hx0 : Keeps a x0) : Keeps a (State.dueFaultEvents x0) := by
  unfold State.dueFaultEvents
  exact keeps_foldl0 hx0 (fun _ _ h => State.keeps_writeFaultEvent h)

theorem State.keeps_enterSafe {a : State} {x0} {x1} (hx1 : Keeps a x1) : Keeps a (State.enterSafe x0 x1) := by
  unfold State.enterSafe
  exact (keeps_ite hx1 (State.keeps_setDev (.inl ⟨by simp, fun _ => rfl⟩) (State.keeps_headsSafe hx1)))

theorem State.keeps_faultCapture {a : State} {x0} {x1} (hx1 : Keeps a x1) : Keeps a (State.faultCapture x0 x1) := by
  unfold State.faultCapture
  extract_lets +onlyGivenNames -merge -useContext -underBinder c_0
  extract_lets +onlyGivenNames -merge -useContext -underBinder r_1
  extract_lets +onlyGivenNames -merge -useContext -underBinder r'_2
  exact hx1

theorem State.keeps_faultCount {a : State} {x0} {x1} (hx1 : Keeps a x1) : Keeps a (State.faultCount x0 x1) := by
  unfold State.faultCount
  exact State.keeps_modFaultSrc hx1

theorem State.keeps_faultEvent {a : State} {x0} {x1} (hx1 : Keeps a x1) : Keeps a (State.faultEvent x0 x1) := by
  unfold State.faultEvent
  exact keeps_ite (State.keeps_modFaultSrc hx1) (State.keeps_writeFaultEvent hx1)

theorem State.keeps_fenceUnit {a : State} {x0} {x1} {x2} (hx2 : Keeps a x2) : Keeps a (State.fenceUnit x0 x1 x2) := by
  unfold State.fenceUnit
  refine keeps_ite hx2 ?_
  extract_lets +onlyGivenNames -merge -useContext -underBinder now third src s1 s2 s3
  have h1 : Keeps a s1 := hx2
  have h2 : Keeps a s2 := State.keeps_event h1
  exact State.keeps_fenceEffect (keeps_cond (fun hr => State.keeps_setDev (.inl ⟨by simp, fun hs => by simp [hr] at hs⟩) h2) (fun _ => h2))

theorem State.keeps_faultReact {a : State} {x0} {x1} {x2} (hx2 : Keeps a x2) : Keeps a (State.faultReact x0 x1 x2) := by
  unfold State.faultReact
  extract_lets +onlyGivenNames -merge -useContext -underBinder n_0
  extract_lets +onlyGivenNames -merge -useContext -underBinder u_1
  exact keeps_ite (State.keeps_chipReset hx2) (keeps_ite hx2
      (by extract_lets +onlyGivenNames -merge -useContext -underBinder src_2 s_3; have hs_3 : Keeps a s_3 := (keeps_ite hx2 hx2); clear_value s_3; exact (by extract_lets +onlyGivenNames -merge -useContext -underBinder s_4; have hs_4 : Keeps a s_4 := (keeps_ite (State.keeps_faultEvent hs_3) hs_3); clear_value s_4; exact (by extract_lets +onlyGivenNames -merge -useContext -underBinder s_5; have hs_5 : Keeps a s_5 := (keeps_ite (State.keeps_enterSafe hs_4) (keeps_ite (State.keeps_fenceUnit hs_4) (keeps_ite (State.keeps_blockReset hs_4) hs_4))); clear_value s_5; exact (keeps_ite (State.keeps_chipReset hs_5) (keeps_boundCheck hs_5))))))

theorem State.keeps_faultRecord {a : State} {x0} {x1} (hx1 : Keeps a x1) : Keeps a (State.faultRecord x0 x1) := by
  unfold State.faultRecord
  extract_lets +onlyGivenNames -merge -useContext -underBinder n u s1
  have h1 : Keeps a s1 := State.keeps_faultCapture (State.keeps_faultCount hx1)
  clear_value s1
  refine keeps_trans h1 (keeps_stores rfl rfl rfl rfl rfl rfl rfl (fun h => ?_))
  refine ⟨h.opened_le, h.staged_le, h.versions_le, h.versions_rise, h.recs_le, h.line_lt, ?_, h.counters_wf, h.counters_le⟩
  have hb := h.bytes_wf
  show (if n = 72 then _ else _ : Mem).bytes.wf 0#8 = true
  split <;> exact hb

theorem State.keeps_fire {a : State} {x0} {x1} (hx1 : Keeps a x1) : Keeps a (State.fire x0 x1) := by
  unfold State.fire
  refine keeps_ite hx1 ?_
  extract_lets +onlyGivenNames -merge -useContext -underBinder m_0
  exact State.keeps_faultReact (State.keeps_faultRecord hx1)

theorem State.keeps_fireAccess {a : State} {x0} {x1} {x2} {x3} {x4} {x5} (hx5 : Keeps a x5) : Keeps a (State.fireAccess x0 x1 x2 x3 x4 x5) := by
  unfold State.fireAccess
  exact State.keeps_fire hx5

theorem State.keeps_fireSrc {a : State} {x0} {x1} {x2} {x3} (hx3 : Keeps a x3) : Keeps a (State.fireSrc x0 x1 x2 x3) := by
  unfold State.fireSrc
  exact State.keeps_fire hx3

theorem State.keeps_unfence {a : State} {x0} {x1} (hx1 : Keeps a x1) : Keeps a (State.unfence x0 x1) := by
  unfold State.unfence
  refine keeps_ite hx1 ?_
  extract_lets +onlyGivenNames -merge -useContext -underBinder src_0 s_1
  have hs_1 : Keeps a s_1 := hx1
  clear_value s_1
  extract_lets +onlyGivenNames -merge -useContext -underBinder s_2
  have hs_2 : Keeps a s_2 := State.keeps_event hs_1
  clear_value s_2
  extract_lets +onlyGivenNames -merge -useContext -underBinder s_3
  have hs_3 : Keeps a s_3 := keeps_cond (fun hr => State.keeps_setDev (.inl ⟨by simp, fun hs => by simp [hs] at hr⟩) hs_2) (fun _ => hs_2)
  clear_value s_3
  exact keeps_ite (State.keeps_modHead hs_3) (keeps_ite (State.keeps_dispatch (keeps_alarmUpdate hs_3)) (keeps_ite (State.keeps_encResume hs_3)
      (keeps_ite (keeps_ite hs_3 (State.keeps_placeInternal hs_3)) (keeps_ite hs_3 hs_3))))

/-! ### Machine/Seals.lean -/

theorem State.keeps_countFlow {a : State} {x0} {x1} {x2} {x3} {x4} (hx4 : Keeps a x4) : Keeps a (State.countFlow x0 x1 x2 x3 x4) :=
  keeps_ite (State.keeps_count (State.keeps_count hx4)) (State.keeps_count hx4)

theorem State.keeps_countDrop {a : State} {x0} {x1} {x2} (hx2 : Keeps a x2) : Keeps a (State.countDrop x0 x1 x2) := by
  unfold State.countDrop
  extract_lets +onlyGivenNames -merge -useContext -underBinder s_0
  have hs_0 : Keeps a s_0 := State.keeps_count hx2
  clear_value s_0
  split <;> first | exact hs_0 | exact (State.keeps_countFlow hs_0)

theorem State.keeps_countSeal {a : State} {x0} {x1} {x2} {x3} (hx3 : Keeps a x3) : Keeps a (State.countSeal x0 x1 x2 x3) := by
  unfold State.countSeal
  extract_lets +onlyGivenNames -merge -useContext -underBinder s_0
  have hs_0 : Keeps a s_0 := State.keeps_count hx3
  clear_value s_0
  extract_lets +onlyGivenNames -merge -useContext -underBinder s_1
  have hs_1 : Keeps a s_1 := keeps_ite (State.keeps_count hs_0) hs_0
  clear_value s_1
  extract_lets +onlyGivenNames -merge -useContext -underBinder s_2
  have hs_2 : Keeps a s_2 := keeps_ite (State.keeps_count hs_1) hs_1
  clear_value s_2
  split <;> first | exact hs_2 | exact (State.keeps_countFlow hs_2)

theorem State.keeps_makeReady {a : State} {x0} {x1} {x2} (hx2 : Keeps a x2) : Keeps a (State.makeReady x0 x1 x2) := by
  unfold State.makeReady
  exact State.keeps_modSrc hx2

theorem State.keeps_noteOverlay {a : State} {x0} {x1} {x2} {x3} (hx3 : Keeps a x3) : Keeps a (State.noteOverlay x0 x1 x2 x3) := by
  unfold State.noteOverlay
  split <;> first | exact hx3

theorem State.keeps_whipSeal {a : State} {x0} {x1} (hx1 : Keeps a x1) : Keeps a (State.whipSeal x0 x1) := by
  unfold State.whipSeal
  exact hx1

theorem State.keeps_putSeal {a : State} {x0} {x1} {x2} {x3} (hx3 : Keeps a x3) : Keeps a (State.putSeal x0 x1 x2 x3) := by
  unfold State.putSeal
  extract_lets +onlyGivenNames -merge -useContext -underBinder x_0
  extract_lets +onlyGivenNames -merge -useContext -underBinder s_1
  have hs_1 : Keeps a s_1 := State.keeps_modSrc hx3
  clear_value s_1
  extract_lets +onlyGivenNames -merge -useContext -underBinder s_2
  have hs_2 : Keeps a s_2 := State.keeps_whipSeal (State.keeps_noteOverlay (State.keeps_countSeal hs_1))
  clear_value s_2
  exact State.keeps_sealArrived (State.keeps_releaseBufs hs_2)

theorem State.keeps_sealFrame {a : State} {x0} {x1} {x2} (hx2 : Keeps a x2) : Keeps a (State.sealFrame x0 x1 x2) := by
  unfold State.sealFrame
  extract_lets +onlyGivenNames -merge -useContext -underBinder rt_0
  exact keeps_ite (State.keeps_countDrop (State.keeps_modSrc hx2)) (State.keeps_putSeal hx2)

end Sys2Proof.Machine
end

