-- ==== Sys2Proof/Laws/KeepsFlow.lean ====
section
/-! SUPPORT. What the operations of ingest, composition, checking, encoding, memory, heads, lanes and queries keep. -/

namespace Sys2Proof.Machine

open Sys2Proof

set_option Elab.async false

/-! ### Machine/Ingest.lean -/

theorem State.keeps_captureOf {a : State} {x0} {x1} {x2} (hx2 : Keeps a x2) : Keeps a (State.captureOf x0 x1 x2).2 := by
  unfold State.captureOf
  dsimp only
  split
  · exact hx2
  · split
    · exact hx2
    · split
      · exact State.keeps_takeFree hx2
      · exact hx2

theorem State.keeps_closeCoded {a : State} {x0} {x1} {x2} {x3} (hx3 : Keeps a x3) : Keeps a (State.closeCoded x0 x1 x2 x3) := by
  unfold State.closeCoded
  extract_lets +onlyGivenNames -merge -useContext -underBinder ps_0
  extract_lets +onlyGivenNames -merge -useContext -underBinder p_1
  exact State.keeps_queuePic hx3

theorem State.keeps_modBuf {a : State} {x0} {x1} {x2} {x3} (hx3 : Keeps a x3) : Keeps a (State.modBuf x0 x1 x2 x3) := by
  unfold State.modBuf
  exact State.keeps_modSrc hx3

theorem State.keeps_concealRuns {a : State} {x0} {x1} {x2} {x3} {x4} {x5} (hx5 : Keeps a x5) : Keeps a (State.concealRuns x0 x1 x2 x3 x4 x5) := by
  unfold State.concealRuns
  extract_lets +onlyGivenNames -merge -useContext -underBinder fb_0
  extract_lets +onlyGivenNames -merge -useContext -underBinder ref_1
  extract_lets +onlyGivenNames -merge -useContext -underBinder covered_2
  extract_lets +onlyGivenNames -merge -useContext -underBinder gaps_3
  exact State.keeps_modBuf hx5

theorem State.keeps_closeType3 {a : State} {x0} {x1} {x2} {x3} (hx3 : Keeps a x3) : Keeps a (State.closeType3 x0 x1 x2 x3) := by
  unfold State.closeType3
  split <;> first | exact hx3 | exact
      (by extract_lets +onlyGivenNames -merge -useContext -underBinder fb_0; exact (by extract_lets +onlyGivenNames -merge -useContext -underBinder total_1; exact (by extract_lets +onlyGivenNames -merge -useContext -underBinder missing_2; exact (State.keeps_makeReady (State.keeps_concealRuns hx3)))))

theorem State.keeps_modFlow {a : State} {x0} {x1} {x2} (hx2 : Keeps a x2) : Keeps a (State.modFlow x0 x1 x2) := by
  unfold State.modFlow
  exact hx2

theorem State.keeps_closeFrame {a : State} {x0} {x1} {x2} {x3} (hx3 : Keeps a x3) : Keeps a (State.closeFrame x0 x1 x2 x3) := by
  unfold State.closeFrame
  extract_lets +onlyGivenNames -merge -useContext -underBinder fl_0
  split <;> first | exact hx3 | exact
      (by extract_lets +onlyGivenNames -merge -useContext -underBinder s_1; have hs_1 : Keeps a s_1 := (State.keeps_modFlow hx3); clear_value s_1; exact (keeps_ite hs_1 (keeps_ite (State.keeps_closeType3 hs_1) (State.keeps_closeCoded hs_1))))

theorem State.keeps_closeMarked {a : State} {x0} {x1} {x2} (hx2 : Keeps a x2) : Keeps a (State.closeMarked x0 x1 x2) := by
  unfold State.closeMarked
  exact keeps_foldl0 hx2 (fun z0 z1 hz0 => (State.keeps_closeFrame hz0))

theorem State.keeps_discontinuity {a : State} {x0} {x1} {x2} (hx2 : Keeps a x2) : Keeps a (State.discontinuity x0 x1 x2) := by
  unfold State.discontinuity
  extract_lets +onlyGivenNames -merge -useContext -underBinder fl_0
  extract_lets +onlyGivenNames -merge -useContext -underBinder s_1
  have hs_1 : Keeps a s_1 := State.keeps_countFlow (State.keeps_countFlow hx2)
  clear_value s_1
  extract_lets +onlyGivenNames -merge -useContext -underBinder s_2
  have hs_2 : Keeps a s_2 := keeps_ite (keeps_foldl0 hs_1 (fun z3 z4 hz3 =>
      (by split <;> first | exact hz3 | exact (State.keeps_count (State.keeps_dropBuf hz3))))) hs_1
  clear_value s_2
  extract_lets +onlyGivenNames -merge -useContext -underBinder s_5
  have hs_5 : Keeps a s_5 := State.keeps_modFlow hs_2
  clear_value s_5
  exact keeps_ite (State.keeps_ctxResync hs_5) hs_5

theorem State.keeps_dprxAux {a : State} {x0} {x1} {x2} {x3} (hx3 : Keeps a x3) : Keeps a (State.dprxAux x0 x1 x2 x3) := by
  unfold State.dprxAux
  extract_lets +onlyGivenNames -merge -useContext -underBinder c_0
  exact keeps_ite hx3 hx3

theorem State.keeps_dprxLost {a : State} {x0} {x1} (hx1 : Keeps a x1) : Keeps a (State.dprxLost x0 x1) := by
  unfold State.dprxLost
  refine keeps_ite hx1 ?_
  extract_lets +onlyGivenNames -merge -useContext -underBinder c_0
  exact State.keeps_restLanes (State.keeps_count (State.keeps_dprxDown hx1))

theorem State.keeps_modDprx {a : State} {x0} {x1} {x2} (hx2 : Keeps a x2) : Keeps a (State.modDprx x0 x1 x2) := by
  unfold State.modDprx
  exact hx2

theorem State.keeps_dprxSeal {a : State} {x0} {x1} {x2} {x3} (hx3 : Keeps a x3) : Keeps a (State.dprxSeal x0 x1 x2 x3) := by
  unfold State.dprxSeal
  extract_lets +onlyGivenNames -merge -useContext -underBinder r_0
  split <;> first | exact hx3 | exact (keeps_ite (State.keeps_sealFrame (State.keeps_modDprx (State.keeps_modBuf hx3))) hx3)

theorem State.keeps_dprxStart {a : State} {x0} {x1} {x2} {x3} {x4} (hx4 : Keeps a x4) : Keeps a (State.dprxStart x0 x1 x2 x3 x4) := by
  unfold State.dprxStart
  refine keeps_ite hx4 ?_
  have h1 : Keeps a (x4.dprxDiscard x0) := State.keeps_dprxDiscard hx4
  dsimp only
  refine keeps_ite ?_ ?_
  · split
    · exact State.keeps_count h1
    · exact State.keeps_count (State.keeps_count h1)
  · split
    · exact h1
    · split
      · exact State.keeps_count h1
      · exact State.keeps_modDprx (State.keeps_modBuf h1)

theorem State.keeps_send {a : State} {x0} {x1} {x2} {x3} (hx3 : Keeps a x3) : Keeps a (State.send x0 x1 x2 x3) := by
  unfold State.send
  exact hx3

theorem State.keeps_reportGroups {a : State} {x0} {x1} {x2} (hx2 : Keeps a x2) : Keeps a (State.reportGroups x0 x1 x2) := by
  unfold State.reportGroups
  exact keeps_foldl0 hx2 (fun z0 z1 hz0 => (keeps_ite (State.keeps_send hz0) hz0))

theorem State.keeps_fixedRule {a : State} {x0} {x1} {x2} (hx2 : Keeps a x2) : Keeps a (State.fixedRule x0 x1 x2) := by
  unfold State.fixedRule
  extract_lets +onlyGivenNames -merge -useContext -underBinder c_0
  split <;> first | exact (keeps_ite (State.keeps_send hx2) hx2) | exact (State.keeps_reportGroups hx2) | exact hx2

theorem State.keeps_ethFrame {a : State} {x0} {x1} {x2} {x3} {x4} {x5} (hx5 : Keeps a x5) : Keeps a (State.ethFrame x0 x1 x2 x3 x4 x5) := by
  unfold State.ethFrame
  exact keeps_ite hx5 (keeps_ite (State.keeps_count hx5) (keeps_ite (State.keeps_count hx5)
      (by split <;> first | exact hx5 | exact (keeps_ite (State.keeps_count hx5) hx5) | exact (keeps_ite hx5 (State.keeps_fixedRule hx5)))))

theorem State.keeps_openFrame {a : State} {x0} {x1} {x2} {x3} (hx3 : Keeps a x3) : Keeps a (State.openFrame x0 x1 x2 x3) := by
  unfold State.openFrame
  extract_lets +onlyGivenNames -merge -useContext -underBinder cap_0
  have hcap_0 : Keeps a cap_0.2 := State.keeps_captureOf hx3
  clear_value cap_0
  extract_lets +onlyGivenNames -merge -useContext -underBinder s_1
  have hs_1 : Keeps a s_1 := hcap_0
  clear_value s_1
  extract_lets +onlyGivenNames -merge -useContext -underBinder s_2
  have hs_2 : Keeps a s_2 := keeps_ite (State.keeps_countFlow hs_1) hs_1
  clear_value s_2
  extract_lets +onlyGivenNames -merge -useContext -underBinder f_3
  refine keeps_ite (State.keeps_modFlow hs_2) ?_
  split <;> first | exact (State.keeps_modFlow (State.keeps_countDrop hs_2)) | exact
      (by extract_lets +onlyGivenNames -merge -useContext -underBinder src_4 fb_5; exact (State.keeps_modFlow (State.keeps_modBuf hs_2)))

theorem State.keeps_joinFrame {a : State} {x0} {x1} {x2} {x3} {x4} (hx4 : Keeps a x4) : Keeps a (State.joinFrame x0 x1 x2 x3 x4) := by
  unfold State.joinFrame
  extract_lets +onlyGivenNames -merge -useContext -underBinder upd_0
  have hupd_0 : ∀ y9_0 y9_1, Keeps a y9_1 → Keeps a (upd_0 y9_0 y9_1) := fun z1 z2 hz2 => (State.keeps_modFlow hz2)
  clear_value upd_0
  split <;> first | exact (hupd_0 _ _ hx4) | exact
      (by extract_lets +onlyGivenNames -merge -useContext -underBinder fb_3; exact (hupd_0 _ _ (State.keeps_modBuf hx4)))

theorem State.keeps_framePacket {a : State} {x0} {x1} {x2} {x3} {x4} {x5} (hx5 : Keeps a x5) : Keeps a (State.framePacket x0 x1 x2 x3 x4 x5) := by
  unfold State.framePacket
  extract_lets +onlyGivenNames -merge -useContext -underBinder fl_0
  refine keeps_ite (keeps_ite hx5 (State.keeps_countFlow hx5)) ?_
  extract_lets +onlyGivenNames -merge -useContext -underBinder s_1
  have hs_1 : Keeps a s_1 := State.keeps_modFlow hx5
  clear_value s_1
  extract_lets +onlyGivenNames -merge -useContext -underBinder s_2
  have hs_2 : Keeps a s_2 := keeps_ite hs_1 (State.keeps_openFrame hs_1)
  clear_value s_2
  exact State.keeps_closeMarked (State.keeps_joinFrame hs_2)

theorem State.keeps_frameSeal {a : State} {x0} {x1} {x2} (hx2 : Keeps a x2) : Keeps a (State.frameSeal x0 x1 x2) := by
  unfold State.frameSeal
  refine keeps_ite hx2 ?_
  split <;> first | exact (State.keeps_sentPic (State.keeps_sealFrame (State.keeps_modSrc hx2))) | exact (keeps_ite (State.keeps_dprxSeal hx2) hx2)

theorem State.keeps_frameTimeout {a : State} {x0} {x1} (hx1 : Keeps a x1) : Keeps a (State.frameTimeout x0 x1) := by
  unfold State.frameTimeout
  extract_lets +onlyGivenNames -merge -useContext -underBinder c_0
  extract_lets +onlyGivenNames -merge -useContext -underBinder k_1
  split <;> first | exact hx1 | exact (keeps_ite (State.keeps_closeMarked (State.keeps_closeFrame hx1)) hx1)

theorem State.keeps_pathMiss {a : State} {x0} {x1} {x2} {x3} {x4} (hx4 : Keeps a x4) : Keeps a (State.pathMiss x0 x1 x2 x3 x4) := by
  unfold State.pathMiss
  exact State.keeps_countFlow hx4

theorem State.keeps_settled {a : State} {x0} {x1} {x2} {x3} (hx3 : Keeps a x3) : Keeps a (State.settled x0 x1 x2 x3) := by
  unfold State.settled
  extract_lets +onlyGivenNames -merge -useContext -underBinder fl_0
  extract_lets +onlyGivenNames -merge -useContext -underBinder passed_1
  extract_lets +onlyGivenNames -merge -useContext -underBinder s_2
  have hs_2 : Keeps a s_2 := keeps_ite (State.keeps_pathMiss hx3) hx3
  clear_value s_2
  exact keeps_ite (State.keeps_pathMiss hs_2) hs_2

theorem State.keeps_fillGap {a : State} {x0} {x1} {x2} {x3} {x4} (hx3 : Keeps a x3) : Keeps a (State.fillGap x0 x1 x2 x3 x4) := by
  unfold State.fillGap
  split
  · exact hx3
  · extract_lets +onlyGivenNames -merge -useContext -underBinder fb_8 below_9 above_10 a_11 z_12
    exact keeps_ite hx3 (State.keeps_modFlow (State.keeps_concealRuns hx3))

theorem State.keeps_holeClose {a : State} {x0} {x1} {x2} (hx2 : Keeps a x2) : Keeps a (State.holeClose x0 x1 x2) := by
  unfold State.holeClose
  extract_lets +onlyGivenNames -merge -useContext -underBinder c_0
  extract_lets +onlyGivenNames -merge -useContext -underBinder k_1
  extract_lets +onlyGivenNames -merge -useContext -underBinder m_2
  split <;> first | exact hx2 | exact (keeps_ite hx2
      (by extract_lets +onlyGivenNames -merge -useContext -underBinder s_3; have hs_3 : Keeps a s_3 := (State.keeps_modFlow (State.keeps_countFlow hx2)); clear_value s_3; exact (by extract_lets +onlyGivenNames -merge -useContext -underBinder s_4; have hs_4 : Keeps a s_4 := (keeps_ite (State.keeps_settled hs_3) hs_3); clear_value s_4; exact State.keeps_closeMarked (keeps_foldl0 hs_4 (fun z6 z7 hz6 => State.keeps_fillGap hz6)))))

theorem State.keeps_pathDown {a : State} {x0} {x1} {x2} (hx2 : Keeps a x2) : Keeps a (State.pathDown x0 x1 x2) := by
  unfold State.pathDown
  extract_lets +onlyGivenNames -merge -useContext -underBinder c_0
  extract_lets +onlyGivenNames -merge -useContext -underBinder k_1
  extract_lets +onlyGivenNames -merge -useContext -underBinder fl_2
  extract_lets +onlyGivenNames -merge -useContext -underBinder other_3
  extract_lets +onlyGivenNames -merge -useContext -underBinder down_4
  exact keeps_ite (State.keeps_modFlow (State.keeps_countFlow hx2)) hx2

theorem State.keeps_pathSeen {a : State} {x0} {x1} {x2} {x3} {x4} (hx4 : Keeps a x4) : Keeps a (State.pathSeen x0 x1 x2 x3 x4) := by
  unfold State.pathSeen
  extract_lets +onlyGivenNames -merge -useContext -underBinder fl_0
  extract_lets +onlyGivenNames -merge -useContext -underBinder top_1
  extract_lets +onlyGivenNames -merge -useContext -underBinder got_2
  extract_lets +onlyGivenNames -merge -useContext -underBinder missed_3
  extract_lets +onlyGivenNames -merge -useContext -underBinder s_4
  have hs_4 : Keeps a s_4 := State.keeps_pathMiss hx4
  clear_value s_4
  extract_lets +onlyGivenNames -merge -useContext -underBinder top'_5
  extract_lets +onlyGivenNames -merge -useContext -underBinder got'_6
  exact keeps_ite (State.keeps_modFlow hs_4) (State.keeps_modFlow hs_4)

theorem State.keeps_sequence {a : State} {x0} {x1} {x2} {x3} {x4} (hx4 : Keeps a x4) : Keeps a (State.sequence x0 x1 x2 x3 x4) := by
  unfold State.sequence
  extract_lets +onlyGivenNames -merge -useContext -underBinder fl_0
  extract_lets +onlyGivenNames -merge -useContext -underBinder q_1
  extract_lets +onlyGivenNames -merge -useContext -underBinder s_2
  have hs_2 : Keeps a s_2 := keeps_ite (State.keeps_pathSeen hx4) hx4
  clear_value s_2
  exact keeps_ite (State.keeps_framePacket (State.keeps_modFlow hs_2)) (keeps_ite
      (by extract_lets +onlyGivenNames -merge -useContext -underBinder holes_3; exact (State.keeps_framePacket (State.keeps_modFlow hs_2)))
      (keeps_ite (State.keeps_countFlow hs_2) (keeps_ite
      (by extract_lets +onlyGivenNames -merge -useContext -underBinder s_4; have hs_4 : Keeps a s_4 := (State.keeps_modFlow (State.keeps_countFlow hs_2)); clear_value s_4; exact (State.keeps_framePacket (keeps_ite (State.keeps_settled hs_4) hs_4))) (State.keeps_countFlow hs_2))))

theorem State.keeps_rtpPacket {a : State} {x0} {x1} (hx1 : Keeps a x1) : Keeps a (State.rtpPacket x0 x1) := by
  unfold State.rtpPacket
  refine keeps_ite hx1 ?_
  split <;> first | exact hx1 | exact (keeps_ite hx1
      (by extract_lets +onlyGivenNames -merge -useContext -underBinder k_0; exact (by extract_lets +onlyGivenNames -merge -useContext -underBinder s_1; have hs_1 : Keeps a s_1 := (State.keeps_count hx1); clear_value s_1; exact (by extract_lets +onlyGivenNames -merge -useContext -underBinder s_2; have hs_2 : Keeps a s_2 := (keeps_ite (State.keeps_count hs_1) hs_1); clear_value s_2; exact (by extract_lets +onlyGivenNames -merge -useContext -underBinder s_3; have hs_3 : Keeps a s_3 := (keeps_ite (State.keeps_discontinuity hs_2) hs_2); clear_value s_3; exact (State.keeps_sequence hs_3))))))

/-! ### Machine/Serve.lean -/

theorem State.keeps_ok {a : State} {x0} {x1} {x2} {x3} {x4} (hx4 : Keeps a x4) : Keeps a (State.ok x0 x1 x2 x3 x4) := by
  unfold State.ok
  exact State.keeps_reply hx4

theorem State.keeps_refuse {a : State} {x0} {x1} {x2} {x3} {x4} (hx4 : Keeps a x4) : Keeps a (State.refuse x0 x1 x2 x3 x4) := by
  unfold State.refuse
  exact State.keeps_reply hx4

theorem State.keeps_refuseInternal {a : State} {x0} {x1} {x2} (hx2 : Keeps a x2) : Keeps a (State.refuseInternal x0 x1 x2) := by
  unfold State.refuseInternal
  exact State.keeps_refuse (State.keeps_fireSrc hx2)

theorem State.keeps_touchTxn {a : State} {x0} {x1} (hx1 : Keeps a x1) : Keeps a (State.touchTxn x0 x1) := by
  refine keeps_trans hx1 (keeps_stores rfl rfl rfl rfl rfl rfl rfl (fun h => ?_))
  refine ⟨by simpa [State.touchTxn] using h.opened_le, fun t ht => ?_, h.versions_le, h.versions_rise, h.recs_le, h.line_lt, h.bytes_wf, h.counters_wf, h.counters_le⟩
  obtain ⟨u, hu, rfl⟩ := List.mem_map.1 ht
  have := h.staged_le u hu
  split <;> exact this

theorem State.keeps_serve {a : State} {x0} {x1} {x2} {x3} {x4} (hx3 : ∀ y4_0, Keeps a y4_0 → Keeps a (x3 y4_0)) (hx4 : Keeps a x4) : Keeps a (State.serve x0 x1 x2 x3 x4) := by
  unfold State.serve
  split <;> first | exact hx4 | exact (State.keeps_refuse (keeps_ite (State.keeps_touchTxn hx4) hx4)) | exact (hx3 _ (State.keeps_touchTxn hx4))

/-! ### Machine/Compose.lean -/

theorem State.keeps_abandonPass {a : State} {x0} {x1} (hx1 : Keeps a x1) : Keeps a (State.abandonPass x0 x1) := by
  unfold State.abandonPass
  extract_lets +onlyGivenNames -merge -useContext -underBinder s_0
  have hs_0 : Keeps a s_0 := State.keeps_modRow (State.keeps_count hx1)
  clear_value s_0
  extract_lets +onlyGivenNames -merge -useContext -underBinder src_1 s_2
  have hs_2 : Keeps a s_2 := hs_0
  clear_value s_2
  exact State.keeps_fireSrc (State.keeps_schedule (State.keeps_releaseAll hs_2))

theorem State.keeps_strandLeave {a : State} {x0} {x1} (hx1 : Keeps a x1) : Keeps a (State.strandLeave x0 x1) := by
  unfold State.strandLeave
  exact hx1

theorem State.keeps_writeTile {a : State} {x0} {x1} {x2} {x3} {x4} (hx4 : Keeps a x4) : Keeps a (State.writeTile x0 x1 x2 x3 x4) := by
  unfold State.writeTile
  extract_lets +onlyGivenNames -merge -useContext -underBinder r_0
  split <;> first | exact hx4 | exact
      (by extract_lets +onlyGivenNames -merge -useContext -underBinder slot_1; exact (by extract_lets +onlyGivenNames -merge -useContext -underBinder t_2; exact (by extract_lets +onlyGivenNames -merge -useContext -underBinder s_3; have hs_3 : Keeps a s_3 := (keeps_ite hx4 (State.keeps_count hx4)); clear_value s_3; exact (by extract_lets +onlyGivenNames -merge -useContext -underBinder s_4; have hs_4 : Keeps a s_4 := (State.keeps_modRow hs_3); clear_value s_4; exact hs_4))))

theorem State.keeps_applyVerdict {a : State} {x0} {x1} {x2} {x3} {x4} {x5} (hx5 : Keeps a x5) : Keeps a (State.applyVerdict x0 x1 x2 x3 x4 x5) := by
  unfold State.applyVerdict
  split <;> first | exact (State.keeps_writeTile hx5) | exact (State.keeps_strandLeave (State.keeps_writeTile hx5)) | exact
      (State.keeps_strandLeave hx5) | exact (keeps_ite (State.keeps_abandonPass hx5) hx5)

theorem State.keeps_passComplete {a : State} {x0} {x1} {x2} (hx2 : Keeps a x2) : Keeps a (State.passComplete x0 x1 x2) := by
  unfold State.passComplete
  extract_lets +onlyGivenNames -merge -useContext -underBinder k_0
  refine keeps_ite hx2 ?_
  split <;> first | exact hx2 | exact (keeps_ite hx2
      (by extract_lets +onlyGivenNames -merge -useContext -underBinder s_1; have hs_1 : Keeps a s_1 := (State.keeps_modRow (State.keeps_count hx2)); clear_value s_1; exact (by extract_lets +onlyGivenNames -merge -useContext -underBinder s_2; have hs_2 : Keeps a s_2 := (keeps_ite hs_1 (State.keeps_count hs_1)); clear_value s_2; exact (State.keeps_schedule (State.keeps_releaseAll hs_2)))))

theorem State.keeps_strandFence {a : State} {x0} {x1} (hx1 : Keeps a x1) : Keeps a (State.strandFence x0 x1) := by
  unfold State.strandFence
  extract_lets +onlyGivenNames -merge -useContext -underBinder s_0
  have hs_0 : Keeps a s_0 := State.keeps_fenceUnit hx1
  clear_value s_0
  exact keeps_ite (State.keeps_fireSrc hs_0) hs_0

theorem State.keeps_strikeStrand {a : State} {x0} {x1} (hx0 : Keeps a x0) : Keeps a (State.strikeStrand x0 x1) := by
  unfold State.strikeStrand
  exact keeps_ite (State.keeps_strandFence hx0) hx0

theorem State.keeps_reportStrands {a : State} {x0} {x1} (hx1 : Keeps a x1) : Keeps a (State.reportStrands x0 x1) := by
  unfold State.reportStrands
  exact keeps_foldl0 (keeps_foldl0 hx1 (fun z0 z1 hz0 => (State.keeps_fireSrc hz0))) (fun z2 z3 hz2 => (State.keeps_strikeStrand hz2))

theorem State.keeps_selftestDone {a : State} {x0} {x1} {x2} (hx2 : Keeps a x2) : Keeps a (State.selftestDone x0 x1 x2) := by
  unfold State.selftestDone
  exact keeps_ite hx2 (keeps_ite hx2 (State.keeps_strandFence (State.keeps_fireSrc (State.keeps_count hx2))))

theorem State.keeps_strandSwitch {a : State} {x0} (hx0 : Keeps a x0) : Keeps a (State.strandSwitch x0) := by
  unfold State.strandSwitch
  split <;> first | exact hx0 | exact (State.keeps_event (State.keeps_count hx0))

theorem State.keeps_strandsLine0 {a : State} {x0} (hx0 : Keeps a x0) : Keeps a (State.strandsLine0 x0) := by
  unfold State.strandsLine0
  extract_lets +onlyGivenNames -merge -useContext -underBinder a_0
  extract_lets +onlyGivenNames -merge -useContext -underBinder b_1
  extract_lets +onlyGivenNames -merge -useContext -underBinder pref_2
  extract_lets +onlyGivenNames -merge -useContext -underBinder left_3
  extract_lets +onlyGivenNames -merge -useContext -underBinder src_4 s_5
  have hs_5 : Keeps a s_5 := hx0
  clear_value s_5
  extract_lets +onlyGivenNames -merge -useContext -underBinder busy_6
  exact keeps_ite (by extract_lets +onlyGivenNames -merge -useContext -underBinder src_7 s_8; have hs_8 : Keeps a s_8 := hs_5; clear_value s_8; exact (keeps_ite hs_8 (State.keeps_takeBackNow hs_8))) hs_5

theorem State.keeps_tileBoundary {a : State} {x0} (hx0 : Keeps a x0) : Keeps a (State.tileBoundary x0) := by
  unfold State.tileBoundary
  exact keeps_ite hx0 (State.keeps_takeBackNow hx0)

theorem State.keeps_tileComputed {a : State} {x0} {x1} {x2} {x3} {x4} {x5} {x6} {x7} {x8} (hx8 : Keeps a x8) : Keeps a (State.tileComputed x0 x1 x2 x3 x4 x5 x6 x7 x8) := by
  unfold State.tileComputed
  extract_lets +onlyGivenNames -merge -useContext -underBinder k_0
  extract_lets +onlyGivenNames -merge -useContext -underBinder b_1
  refine keeps_ite hx8 ?_
  split <;> first | exact hx8 | exact
      (by extract_lets +onlyGivenNames -merge -useContext -underBinder both_2; exact (by extract_lets +onlyGivenNames -merge -useContext -underBinder n_3; exact (by extract_lets +onlyGivenNames -merge -useContext -underBinder s_4; have hs_4 : Keeps a s_4 := (State.keeps_count hx8); clear_value s_4; exact (by extract_lets +onlyGivenNames -merge -useContext -underBinder src_5 s_6; have hs_6 : Keeps a s_6 := hs_4; clear_value s_6; exact (State.keeps_tileBoundary (State.keeps_reportStrands (State.keeps_applyVerdict hs_6)))))))

/-! ### Machine/Stopper.lean -/

theorem State.keeps_noteDisagree {a : State} {x0} {x1} {x2} (hx2 : Keeps a x2) : Keeps a (State.noteDisagree x0 x1 x2) := by
  unfold State.noteDisagree
  refine keeps_ite hx2 ?_
  extract_lets +onlyGivenNames -merge -useContext -underBinder u_0
  extract_lets +onlyGivenNames -merge -useContext -underBinder s_1
  have hs_1 : Keeps a s_1 := State.keeps_count hx2
  clear_value s_1
  extract_lets +onlyGivenNames -merge -useContext -underBinder src_2 s_3
  have hs_3 : Keeps a s_3 := hs_1
  clear_value s_3
  exact keeps_foldl0 hs_3 (fun z4 z5 hz4 => (State.keeps_fireSrc hz4))

theorem State.keeps_lineBuffer {a : State} {x0} {x1} {x2} (hx2 : Keeps a x2) : Keeps a (State.lineBuffer x0 x1 x2) := by
  unfold State.lineBuffer
  extract_lets +onlyGivenNames -merge -useContext -underBinder s_0
  have hs_0 : Keeps a s_0 := State.keeps_count hx2
  clear_value s_0
  exact keeps_ite hs_0 (State.keeps_fireSrc (State.keeps_count hs_0))

theorem State.keeps_countMarks {a : State} {x0} {x1} {x2} (hx2 : Keeps a x2) : Keeps a (State.countMarks x0 x1 x2) := by
  unfold State.countMarks
  exact keeps_foldl0 hx2 (fun z0 z1 hz0 => (by split <;> first | exact hz0 | exact (State.keeps_count hz0)))

theorem State.keeps_recordBand {a : State} {x0} {x1} {x2} {x3} {x4} (hx4 : Keeps a x4) : Keeps a (State.recordBand x0 x1 x2 x3 x4) := by
  unfold State.recordBand
  extract_lets +onlyGivenNames -merge -useContext -underBinder k_0
  extract_lets +onlyGivenNames -merge -useContext -underBinder c_1
  extract_lets +onlyGivenNames -merge -useContext -underBinder live_2
  extract_lets +onlyGivenNames -merge -useContext -underBinder cols_3
  extract_lets +onlyGivenNames -merge -useContext -underBinder at__4
  extract_lets +onlyGivenNames -merge -useContext -underBinder tf_5
  extract_lets +onlyGivenNames -merge -useContext -underBinder cf_6
  extract_lets +onlyGivenNames -merge -useContext -underBinder here_7
  extract_lets +onlyGivenNames -merge -useContext -underBinder newTf_8
  extract_lets +onlyGivenNames -merge -useContext -underBinder oldCf_9
  extract_lets +onlyGivenNames -merge -useContext -underBinder newCf_10
  extract_lets +onlyGivenNames -merge -useContext -underBinder marks_11
  extract_lets +onlyGivenNames -merge -useContext -underBinder caps_12
  extract_lets +onlyGivenNames -merge -useContext -underBinder src_13 s_14
  have hs_14 : Keeps a s_14 := hx4
  clear_value s_14
  extract_lets +onlyGivenNames -merge -useContext -underBinder s_15
  have hs_15 : Keeps a s_15 := keeps_ite (State.keeps_count hs_14) hs_14
  clear_value s_15
  extract_lets +onlyGivenNames -merge -useContext -underBinder s_16
  have hs_16 : Keeps a s_16 := State.keeps_count hs_15
  clear_value s_16
  extract_lets +onlyGivenNames -merge -useContext -underBinder s_17
  have hs_17 : Keeps a s_17 := keeps_ite (State.keeps_count hs_16) hs_16
  clear_value s_17
  exact keeps_foldl0 hs_17 (fun z18 z19 hz18 => (State.keeps_countMarks hz18))

theorem State.keeps_modSig {a : State} {x0} {x1} {x2} (hx2 : Keeps a x2) : Keeps a (State.modSig x0 x1 x2) := by
  unfold State.modSig
  exact hx2

/-- The lines of a band row are made ready: all but what the head sends stays. -/
theorem State.stays_emitLines (x0 : Nat) (x1 : Nat) (x2 : List TileView) (x3 : State) : Stays x3 (State.emitLines x0 x1 x2 x3) := (keeps_refl x3).1

theorem State.keeps_endSignature {a : State} {x0} {x1} (hx1 : Keeps a x1) : Keeps a (State.endSignature x0 x1) := by
  unfold State.endSignature
  extract_lets +onlyGivenNames -merge -useContext -underBinder u_0
  extract_lets +onlyGivenNames -merge -useContext -underBinder r_1
  split <;> first | exact hx1 | exact
      (by extract_lets +onlyGivenNames -merge -useContext -underBinder v_2; exact (by extract_lets +onlyGivenNames -merge -useContext -underBinder compared_3; exact (by extract_lets +onlyGivenNames -merge -useContext -underBinder stuck_4; exact (by extract_lets +onlyGivenNames -merge -useContext -underBinder wrong_5; exact (by extract_lets +onlyGivenNames -merge -useContext -underBinder s_6; have hs_6 : Keeps a s_6 := (State.keeps_modSig hx1); clear_value s_6; exact (by extract_lets +onlyGivenNames -merge -useContext -underBinder s_7; have hs_7 : Keeps a s_7 := (keeps_ite (State.keeps_fireSrc hs_6) hs_6); clear_value s_7; exact (keeps_ite (State.keeps_fireSrc hs_7) hs_7)))))))

theorem State.keeps_endProbes {a : State} {x0} {x1} (hx1 : Keeps a x1) : Keeps a (State.endProbes x0 x1) := by
  unfold State.endProbes
  extract_lets +onlyGivenNames -merge -useContext -underBinder u_0
  extract_lets +onlyGivenNames -merge -useContext -underBinder bad_1
  extract_lets +onlyGivenNames -merge -useContext -underBinder s_2
  have hs_2 : Keeps a s_2 := State.keeps_modSig hx1
  clear_value s_2
  exact keeps_foldl0 hs_2 (fun z3 z4 hz3 => (State.keeps_fireSrc hz3))

theorem State.keeps_passLines {a : State} {x0} {x1} (hx1 : Keeps a x1) : Keeps a (State.passLines x0 x1) := by
  unfold State.passLines
  extract_lets +onlyGivenNames -merge -useContext -underBinder r_0
  refine keeps_ite hx1 ?_
  extract_lets +onlyGivenNames -merge -useContext -underBinder s_1
  have hs_1 : Keeps a s_1 := keeps_ite (State.keeps_count hx1) hx1
  clear_value s_1
  extract_lets +onlyGivenNames -merge -useContext -underBinder s_2
  have hs_2 : Keeps a s_2 := State.keeps_modHead (State.keeps_modSig hs_1)
  clear_value s_2
  exact keeps_ite (State.keeps_endSignature (State.keeps_endProbes hs_2)) hs_2

theorem State.keeps_frameEnd {a : State} {x0} {x1} (hx1 : Keeps a x1) : Keeps a (State.frameEnd x0 x1) := by
  unfold State.frameEnd
  extract_lets +onlyGivenNames -merge -useContext -underBinder pol_0
  exact hx1

theorem State.keeps_startSignatures {a : State} {x0} {x1} (hx1 : Keeps a x1) : Keeps a (State.startSignatures x0 x1) := by
  unfold State.startSignatures
  exact State.keeps_modSig hx1

theorem State.keeps_beginFrame {a : State} {x0} {x1} {x2} {x3} {x4} (hx4 : Keeps a x4) : Keeps a (State.beginFrame x0 x1 x2 x3 x4) := by
  unfold State.beginFrame
  extract_lets +onlyGivenNames -merge -useContext -underBinder r_0
  extract_lets +onlyGivenNames -merge -useContext -underBinder n_1
  extract_lets +onlyGivenNames -merge -useContext -underBinder live_2
  extract_lets +onlyGivenNames -merge -useContext -underBinder dead_3
  extract_lets +onlyGivenNames -merge -useContext -underBinder msa_4
  extract_lets +onlyGivenNames -merge -useContext -underBinder s_5
  have hs_5 : Keeps a s_5 := keeps_ite (State.keeps_countHead hx4) hx4
  clear_value s_5
  exact State.keeps_strobeStart (State.keeps_modHead hs_5)

theorem State.keeps_headStateAtStart {a : State} {x0} {x1} {x2} (hx2 : Keeps a x2) : Keeps a (State.headStateAtStart x0 x1 x2) := by
  unfold State.headStateAtStart
  extract_lets +onlyGivenNames -merge -useContext -underBinder r_0
  split <;> first | exact (keeps_ite (State.keeps_headTrain hx2) hx2) | exact hx2 | exact (keeps_ite (State.keeps_modHead hx2) (keeps_ite hx2
      (keeps_ite (State.keeps_modHead hx2) (State.keeps_countHead hx2)))) | exact (State.keeps_modHead hx2)

theorem State.keeps_ownFrame {a : State} {x0} {x1} {x2} (hx2 : Keeps a x2) : Keeps a (State.ownFrame x0 x1 x2) := by
  unfold State.ownFrame
  extract_lets +onlyGivenNames -merge -useContext -underBinder x_0
  split <;> first | exact hx2 | exact (keeps_ite hx2 (State.keeps_startSignatures (State.keeps_beginFrame (State.keeps_headStateAtStart
      (State.keeps_passLines hx2)))))

theorem State.keeps_underrun {a : State} {x0} {x1} (hx1 : Keeps a x1) : Keeps a (State.underrun x0 x1) := by
  unfold State.underrun
  extract_lets +onlyGivenNames -merge -useContext -underBinder x_0
  extract_lets +onlyGivenNames -merge -useContext -underBinder rest_1
  exact State.keeps_countHead (State.keeps_modHead hx1)

/-- Sending a band row keeps all but what its head sends. -/
theorem State.stays_sendBand (x0 x1 : Nat) (x2 : BandObs) (x3 : State) : Stays x3 (State.sendBand x0 x1 x2 x3) := by
  unfold State.sendBand
  extract_lets +onlyGivenNames -merge -useContext -underBinder x_1
  extract_lets +onlyGivenNames -merge -useContext -underBinder key_2
  extract_lets +onlyGivenNames -merge -useContext -underBinder inTime_3
  extract_lets +onlyGivenNames -merge -useContext -underBinder judges_4
  have hs_5 : Keeps x3 x3 := keeps_refl x3
  extract_lets +onlyGivenNames -merge -useContext -underBinder s_6
  have hs_6 : Keeps x3 s_6 := keeps_ite (State.keeps_underrun hs_5) hs_5
  clear_value s_6
  extract_lets +onlyGivenNames -merge -useContext -underBinder s_7
  have hs_7 : Keeps x3 s_7 := keeps_ite (State.keeps_modHead hs_6) hs_6
  clear_value s_7
  extract_lets +onlyGivenNames -merge -useContext -underBinder vs_8
  extract_lets +onlyGivenNames -merge -useContext -underBinder s_9
  have hs_9 : Keeps x3 s_9 := keeps_ite (State.keeps_recordBand hs_7) hs_7
  clear_value s_9
  extract_lets +onlyGivenNames -merge -useContext -underBinder s_10
  have hs_10 : Stays x3 s_10 := stays_trans hs_9.1 (State.stays_emitLines x0 x1 _ s_9)
  clear_value s_10
  extract_lets +onlyGivenNames -merge -useContext -underBinder s_11
  have hs_11 : Keeps s_10 s_11 := State.keeps_modHead (keeps_refl s_10)
  clear_value s_11
  extract_lets +onlyGivenNames -merge -useContext -underBinder s_12
  have hs_12 : Keeps s_10 s_12 := keeps_ite (State.keeps_frameEnd hs_11) hs_11
  clear_value s_12
  extract_lets +onlyGivenNames -merge -useContext -underBinder s_13
  have hs_13 : Keeps s_10 s_13 := State.keeps_noteDisagree hs_12
  clear_value s_13
  exact stays_trans hs_10 (keeps_ite (State.keeps_lineBuffer hs_13) hs_13).1

/-- BAND_ROW_EMIT sends its band row from a state that keeps, or it keeps. -/
theorem State.bandEmit_cases (x0 x1 : Nat) (x2 : BandObs) (x3 : State) : Keeps x3 (State.bandEmit x0 x1 x2 x3) ∨
    ((x3.ownFrame x0 x1).bandDue x0 x1 = true ∧ ((x3.ownFrame x0 x1).passLines x0).bandDue x0 x1 = true ∧
      State.bandEmit x0 x1 x2 x3 = ((x3.ownFrame x0 x1).passLines x0).sendBand x0 x1 x2 ∧ Keeps x3 ((x3.ownFrame x0 x1).passLines x0)) := by
  have h0 : Keeps x3 (x3.ownFrame x0 x1) := State.keeps_ownFrame (keeps_refl x3)
  have h1 : Keeps x3 ((x3.ownFrame x0 x1).passLines x0) := State.keeps_passLines h0
  unfold State.bandEmit
  dsimp only
  by_cases hd : (x3.ownFrame x0 x1).bandDue x0 x1 = true
  · by_cases hd' : ((x3.ownFrame x0 x1).passLines x0).bandDue x0 x1 = true
    · right
      rw [if_neg (by rw [hd]; simp), if_neg (by rw [hd']; simp)]
      exact ⟨hd, hd', rfl, h1⟩
    · left
      rw [if_neg (by rw [hd]; simp), if_pos (by simpa using hd')]
      exact h1
  · left
    rw [if_pos (by simpa using hd)]
    exact h0

/-- BAND_ROW_EMIT keeps all but what its head sends. -/
theorem State.stays_bandEmit (x0 x1 : Nat) (x2 : BandObs) (x3 : State) : Stays x3 (State.bandEmit x0 x1 x2 x3) := by
  rcases State.bandEmit_cases x0 x1 x2 x3 with h | ⟨-, -, he, hk⟩
  · exact h.1
  · rw [he]; exact stays_trans hk.1 (State.stays_sendBand _ _ _ _)

theorem State.keeps_bandFetched {a : State} {x0} {x1} {x2} (hx2 : Keeps a x2) : Keeps a (State.bandFetched x0 x1 x2) := by
  unfold State.bandFetched
  extract_lets +onlyGivenNames -merge -useContext -underBinder x_0
  extract_lets +onlyGivenNames -merge -useContext -underBinder g_1
  extract_lets +onlyGivenNames -merge -useContext -underBinder k_2
  extract_lets +onlyGivenNames -merge -useContext -underBinder r_3
  exact keeps_ite (State.keeps_modHead hx2) hx2

theorem State.keeps_fetchUrgent {a : State} {x0} {x1} {x2} (hx2 : Keeps a x2) : Keeps a (State.fetchUrgent x0 x1 x2) := by
  unfold State.fetchUrgent
  extract_lets +onlyGivenNames -merge -useContext -underBinder x_0
  extract_lets +onlyGivenNames -merge -useContext -underBinder g_1
  extract_lets +onlyGivenNames -merge -useContext -underBinder k_2
  exact keeps_ite (State.keeps_countHead (State.keeps_modHead hx2)) hx2

theorem State.keeps_linesPass {a : State} {x0} (hx0 : Keeps a x0) : Keeps a (State.linesPass x0) := by
  unfold State.linesPass
  exact keeps_foldl0 hx0 (fun z0 z1 hz0 =>
      (by extract_lets +onlyGivenNames -merge -useContext -underBinder r_2; exact (keeps_ite (State.keeps_passLines hz0) hz0)))

/-! ### Machine/Encoding.lean -/

theorem State.keeps_encIdle {a : State} {x0} {x1} (hx1 : Keeps a x1) : Keeps a (State.encIdle x0 x1) := by
  unfold State.encIdle
  exact State.keeps_modEnc hx1

theorem State.keeps_encSettle {a : State} {x0} {x1} (hx1 : Keeps a x1) : Keeps a (State.encSettle x0 x1) := by
  unfold State.encSettle
  exact keeps_ite hx1 (State.keeps_encIdle hx1)

theorem State.keeps_encSeal {a : State} {x0} {x1} (hx1 : Keeps a x1) : Keeps a (State.encSeal x0 x1) := by
  unfold State.encSeal
  extract_lets +onlyGivenNames -merge -useContext -underBinder r_0
  split <;> first | exact hx1 | exact
      (by extract_lets +onlyGivenNames -merge -useContext -underBinder x_1; exact (by extract_lets +onlyGivenNames -merge -useContext -underBinder carry_2; exact (by extract_lets +onlyGivenNames -merge -useContext -underBinder k_3; exact (by extract_lets +onlyGivenNames -merge -useContext -underBinder s_4; have hs_4 : Keeps a s_4 := (State.keeps_modEnc hx1); clear_value s_4; exact (by extract_lets +onlyGivenNames -merge -useContext -underBinder s_5; have hs_5 : Keeps a s_5 := (State.keeps_count hs_4); clear_value s_5; exact (State.keeps_encSettle (keeps_ite hs_5 (State.keeps_count hs_5))))))))

theorem State.keeps_queuePacket {a : State} {x0} {x1} {x2} (hx2 : Keeps a x2) : Keeps a (State.queuePacket x0 x1 x2) := by
  unfold State.queuePacket
  extract_lets +onlyGivenNames -merge -useContext -underBinder q_0
  exact keeps_ite (State.keeps_count hx2) hx2

theorem State.keeps_queueOne {a : State} {x0} {x1} {x2} {x3} {x4} {x5} {x6} (hx6 : Keeps a x6) : Keeps a (State.queueOne x0 x1 x2 x3 x4 x5 x6) := by
  unfold State.queueOne
  extract_lets +onlyGivenNames -merge -useContext -underBinder x_0
  extract_lets +onlyGivenNames -merge -useContext -underBinder n_1
  extract_lets +onlyGivenNames -merge -useContext -underBinder e_2
  extract_lets +onlyGivenNames -merge -useContext -underBinder s_3
  have hs_3 : Keeps a s_3 := State.keeps_queuePacket hx6
  clear_value s_3
  extract_lets +onlyGivenNames -merge -useContext -underBinder s_4
  have hs_4 : Keeps a s_4 := keeps_ite (State.keeps_queuePacket hs_3) hs_3
  clear_value s_4
  exact State.keeps_modEnc hs_4

theorem State.keeps_acceptRow {a : State} {x0} {x1} {x2} {x3} (hx3 : Keeps a x3) : Keeps a (State.acceptRow x0 x1 x2 x3) := by
  unfold State.acceptRow
  extract_lets +onlyGivenNames -merge -useContext -underBinder r_0
  split <;> first | exact hx3 | exact
      (by extract_lets +onlyGivenNames -merge -useContext -underBinder n_1; exact (by extract_lets +onlyGivenNames -merge -useContext -underBinder size_2; exact (by extract_lets +onlyGivenNames -merge -useContext -underBinder fill_3; exact (by extract_lets +onlyGivenNames -merge -useContext -underBinder filler_4; exact (by extract_lets +onlyGivenNames -merge -useContext -underBinder last_5; exact (by extract_lets +onlyGivenNames -merge -useContext -underBinder ns_6; exact (by extract_lets +onlyGivenNames -merge -useContext -underBinder spent_7; exact (by extract_lets +onlyGivenNames -merge -useContext -underBinder low_8; exact (by extract_lets +onlyGivenNames -merge -useContext -underBinder src_9 p'_10; exact (by extract_lets +onlyGivenNames -merge -useContext -underBinder s_12; have hs_12 : Keeps a s_12 := (State.keeps_modEnc hx3); clear_value s_12; exact (by extract_lets +onlyGivenNames -merge -useContext -underBinder s_13; have hs_13 : Keeps a s_13 := (keeps_ite (State.keeps_count hs_12) hs_12); clear_value s_13; exact (by extract_lets +onlyGivenNames -merge -useContext -underBinder s_14; have hs_14 : Keeps a s_14 := (keeps_ite (State.keeps_count hs_13) hs_13); clear_value s_14; exact (by extract_lets +onlyGivenNames -merge -useContext -underBinder s_15; have hs_15 : Keeps a s_15 := (keeps_foldl0 hs_14 (fun z16 z17 hz16 => (State.keeps_queueOne hz16))); clear_value s_15; exact (keeps_ite (State.keeps_encSeal hs_15) hs_15))))))))))))))

theorem State.keeps_encConfig {a : State} {x0} {x1} (hx1 : Keeps a x1) : Keeps a (State.encConfig x0 x1) := by
  unfold State.encConfig
  extract_lets +onlyGivenNames -merge -useContext -underBinder r_0
  extract_lets +onlyGivenNames -merge -useContext -underBinder new_1
  extract_lets +onlyGivenNames -merge -useContext -underBinder s_2
  have hs_2 : Keeps a s_2 := keeps_ite (State.keeps_encRestart hx1) hx1
  clear_value s_2
  exact State.keeps_modEnc hs_2

theorem State.keeps_encFree {a : State} {x0} {x1} (hx1 : Keeps a x1) : Keeps a (State.encFree x0 x1) := by
  unfold State.encFree
  exact keeps_foldl0 hx1 (fun z0 z1 hz0 => (keeps_ite hz0 hz0))

theorem State.keeps_encTake {a : State} {x0} {x1} {x2} {x3} {x4} (hx4 : Keeps a x4) : Keeps a (State.encTake x0 x1 x2 x3 x4) := by
  unfold State.encTake
  extract_lets +onlyGivenNames -merge -useContext -underBinder r_0
  split <;> first | exact hx4 | exact
      (by extract_lets +onlyGivenNames -merge -useContext -underBinder g_1; exact (by extract_lets +onlyGivenNames -merge -useContext -underBinder fr_2; exact (by extract_lets +onlyGivenNames -merge -useContext -underBinder pol_3; exact (by extract_lets +onlyGivenNames -merge -useContext -underBinder tiles_4; exact (by extract_lets +onlyGivenNames -merge -useContext -underBinder part_5; exact (by extract_lets +onlyGivenNames -merge -useContext -underBinder p_6; exact (by extract_lets +onlyGivenNames -merge -useContext -underBinder s_7; have hs_7 : Keeps a s_7 := (State.keeps_modEnc hx4); clear_value s_7; exact (keeps_ite hs_7 (State.keeps_count hs_7)))))))))

theorem State.keeps_encMissed {a : State} {x0} {x1} (hx1 : Keeps a x1) : Keeps a (State.encMissed x0 x1) := by
  unfold State.encMissed
  extract_lets +onlyGivenNames -merge -useContext -underBinder r_0
  split <;> first | exact hx1 | exact (keeps_ite hx1 (keeps_foldl0 hx1 (fun z1 z2 hz1 => (State.keeps_encTake hz1))))

theorem State.keeps_encPicture {a : State} {x0} {x1} (hx1 : Keeps a x1) : Keeps a (State.encPicture x0 x1) := by
  unfold State.encPicture
  extract_lets +onlyGivenNames -merge -useContext -underBinder s_0
  have hs_0 : Keeps a s_0 := State.keeps_encConfig hx1
  clear_value s_0
  extract_lets +onlyGivenNames -merge -useContext -underBinder r_1
  extract_lets +onlyGivenNames -merge -useContext -underBinder idr_2
  extract_lets +onlyGivenNames -merge -useContext -underBinder bucket_3
  exact State.keeps_modEnc hs_0

theorem State.keeps_encRead {a : State} {x0} {x1} {x2} {x3} {x4} (hx4 : Keeps a x4) : Keeps a (State.encRead x0 x1 x2 x3 x4) := by
  unfold State.encRead
  extract_lets +onlyGivenNames -merge -useContext -underBinder r_0
  split <;> first | exact hx4 | exact
      (by extract_lets +onlyGivenNames -merge -useContext -underBinder g_1; exact (keeps_ite hx4 (State.keeps_encTake hx4)))

theorem State.keeps_encTurn {a : State} {x0} {x1} (hx1 : Keeps a x1) : Keeps a (State.encTurn x0 x1) := by
  unfold State.encTurn
  split <;> first | exact hx1 | exact (by split <;> first | exact hx1)

theorem State.keeps_encTurns {a : State} {x0} (hx0 : Keeps a x0) : Keeps a (State.encTurns x0) := by
  unfold State.encTurns
  exact keeps_foldl0 hx0 (fun z0 z1 hz0 => (State.keeps_encTurn hz0))

theorem State.keeps_encRowLate {a : State} {x0} {x1} {x2} (hx2 : Keeps a x2) : Keeps a (State.encRowLate x0 x1 x2) := by
  unfold State.encRowLate
  split <;> first | exact hx2 | exact (keeps_ite hx2 (State.keeps_encTurns (State.keeps_encFree (State.keeps_acceptRow (State.keeps_encMissed
      (State.keeps_count hx2))))))

theorem State.keeps_encStarts {a : State} {x0} (hx0 : Keeps a x0) : Keeps a (State.encStarts x0) := by
  unfold State.encStarts
  exact keeps_ite hx0 (State.keeps_encTurns (keeps_foldl0 hx0 (fun z0 z1 hz0 =>
      (by extract_lets +onlyGivenNames -merge -useContext -underBinder r_2; exact (keeps_ite (State.keeps_encPicture hz0) hz0)))))

theorem State.keeps_setQueue {a : State} {x0} {x1} {x2} (hx2 : Keeps a x2) : Keeps a (State.setQueue x0 x1 x2) := by
  unfold State.setQueue
  exact hx2

theorem State.keeps_launch {a : State} {x0} {x1} (hx1 : Keeps a x1) : Keeps a (State.launch x0 x1) := by
  unfold State.launch
  split <;> first | exact hx1 | exact (keeps_ite hx1 (keeps_ite (State.keeps_count (State.keeps_setQueue hx1)) (keeps_ite hx1
      (by extract_lets +onlyGivenNames -merge -useContext -underBinder s_0; have hs_0 : Keeps a s_0 := (State.keeps_setQueue hx1); clear_value s_0; exact (by extract_lets +onlyGivenNames -merge -useContext -underBinder src_1 src_2 s_3; have hs_3 : Keeps a s_3 := hs_0; clear_value s_3; exact (by extract_lets +onlyGivenNames -merge -useContext -underBinder s_4; have hs_4 : Keeps a s_4 := (State.keeps_count hs_3); clear_value s_4; exact (keeps_ite (State.keeps_count hs_4) hs_4)))))))

theorem State.keeps_launchSlip {a : State} {x0} {x1} (hx1 : Keeps a x1) : Keeps a (State.launchSlip x0 x1) := by
  unfold State.launchSlip
  split <;> first | exact hx1 | exact (keeps_ite hx1 (State.keeps_count (State.keeps_setQueue hx1)))

theorem State.keeps_rowCoded {a : State} {x0} {x1} {x2} (hx2 : Keeps a x2) : Keeps a (State.rowCoded x0 x1 x2) := by
  unfold State.rowCoded
  extract_lets +onlyGivenNames -merge -useContext -underBinder r_0
  split <;> first | exact hx2 | exact (keeps_ite (State.keeps_acceptRow hx2) (keeps_ite
      (by extract_lets +onlyGivenNames -merge -useContext -underBinder s_1; have hs_1 : Keeps a s_1 := (State.keeps_modEnc hx2); clear_value s_1; exact (keeps_ite hs_1 (State.keeps_count hs_1))) (State.keeps_acceptRow hx2)))

theorem State.keeps_rowComplete {a : State} {x0} {x1} {x2} (hx2 : Keeps a x2) : Keeps a (State.rowComplete x0 x1 x2) := by
  unfold State.rowComplete
  refine keeps_ite hx2 ?_
  extract_lets +onlyGivenNames -merge -useContext -underBinder s_0
  have hs_0 : Keeps a s_0 := State.keeps_encTurns hx2
  clear_value s_0
  exact keeps_ite (State.keeps_encTurns (State.keeps_encFree (State.keeps_rowCoded (State.keeps_encMissed hs_0)))) hs_0

/-! ### Machine/Memory.lean -/

theorem State.keeps_memAccess {a : State} {x0} {x1} {x2} {x3} {x4} (hx4 : Keeps a x4) : Keeps a (State.memAccess x0 x1 x2 x3 x4).2 := by
  unfold State.memAccess
  split
  · split
    · exact State.keeps_fireAccess (State.keeps_count hx4)
    · exact hx4
  · exact hx4

theorem State.keeps_access {a : State} {x0} {x1} {x2} {x3} {x4} (hx4 : Keeps a x4) : Keeps a (State.access x0 x1 x2 x3 x4).2 := by
  unfold State.access
  split
  · exact State.keeps_fireAccess hx4
  · split
    · exact State.keeps_fireAccess hx4
    · exact State.keeps_memAccess hx4

theorem State.keeps_modChan {a : State} {x0} {x1} {x2} (hx2 : Keeps a x2) : Keeps a (State.modChan x0 x1 x2) := by
  unfold State.modChan
  exact hx2

theorem State.keeps_mr4 {a : State} {x0} {x1} (hx1 : Keeps a x1) : Keeps a (State.mr4 x0 x1) := by
  unfold State.mr4
  refine keeps_ite hx1 ?_
  extract_lets +onlyGivenNames -merge -useContext -underBinder now_0
  extract_lets +onlyGivenNames -merge -useContext -underBinder since_1
  extract_lets +onlyGivenNames -merge -useContext -underBinder src_2 src_3 s_4
  have hs_4 : Keeps a s_4 := keeps_ite hx1 hx1
  clear_value s_4
  exact keeps_foldl0 hs_4 (fun z5 z6 hz5 => (State.keeps_fireSrc hz5))

theorem State.keeps_pokeByte {a : State} {x0} {x1} {x2} (hx2 : Keeps a x2) : Keeps a (State.pokeByte x0 x1 x2) := by
  unfold State.pokeByte
  refine keeps_ite hx2 (keeps_ite hx2 ?_)
  split
  · exact State.keeps_modSrc hx2
  · refine keeps_trans hx2 (keeps_stores rfl rfl rfl rfl rfl rfl rfl (fun h => ?_))
    exact ⟨h.opened_le, h.staged_le, h.versions_le, h.versions_rise, h.recs_le, h.line_lt, Tab.wf_set _ _ h.bytes_wf, h.counters_wf, h.counters_le⟩

theorem State.keeps_pokeBytes {a : State} {x0} {x1} {x2} (hx2 : Keeps a x2) : Keeps a (State.pokeBytes x0 x1 x2) := by
  induction x1 generalizing x0 x2 with
  | nil => exact hx2
  | cons b t ih => exact ih (State.keeps_pokeByte hx2)

theorem State.keeps_promote {a : State} {x0} {x1} (hx1 : Keeps a x1) : Keeps a (State.promote x0 x1) := by
  unfold State.promote
  exact keeps_ite (State.keeps_modChan hx1) hx1

theorem State.keeps_refreshAll {a : State} {x0} (hx0 : Keeps a x0) : Keeps a (State.refreshAll x0) := by
  unfold State.refreshAll
  refine keeps_ite hx0 ?_
  extract_lets +onlyGivenNames -merge -useContext -underBinder s_0
  have hs_0 : Keeps a s_0 := keeps_foldl0 hx0 (fun z1 z2 hz1 => (State.keeps_modChan hz1))
  clear_value s_0
  exact hs_0

theorem State.keeps_regulate {a : State} {x0} {x1} {x2} {x3} (hx3 : Keeps a x3) : Keeps a (State.regulate x0 x1 x2 x3) := by
  unfold State.regulate
  extract_lets +onlyGivenNames -merge -useContext -underBinder cls_0
  refine keeps_ite hx3 ?_
  extract_lets +onlyGivenNames -merge -useContext -underBinder n_1
  extract_lets +onlyGivenNames -merge -useContext -underBinder k_2
  extract_lets +onlyGivenNames -merge -useContext -underBinder b_3
  extract_lets +onlyGivenNames -merge -useContext -underBinder new_4
  extract_lets +onlyGivenNames -merge -useContext -underBinder s_5
  have hs_5 : Keeps a s_5 := keeps_ite (State.keeps_count hx3) hx3
  clear_value s_5
  extract_lets +onlyGivenNames -merge -useContext -underBinder b_6
  extract_lets +onlyGivenNames -merge -useContext -underBinder b_7
  exact hs_5

theorem State.keeps_scrub {a : State} {x0} {x1} {x2} (hx2 : Keeps a x2) : Keeps a (State.scrub x0 x1 x2) := by
  unfold State.scrub
  refine keeps_ite hx2 ?_
  extract_lets +onlyGivenNames -merge -useContext -underBinder s_0
  have hs_0 : Keeps a s_0 := State.keeps_modChan hx2
  clear_value s_0
  split <;> first | exact hs_0 | exact (State.keeps_fireSrc (State.keeps_count hs_0))

/-! ### Machine/Heads.lean -/

theorem State.keeps_attemptFail {a : State} {x0} {x1} (hx1 : Keeps a x1) : Keeps a (State.attemptFail x0 x1) := by
  unfold State.attemptFail
  extract_lets +onlyGivenNames -merge -useContext -underBinder r_0
  exact keeps_ite hx1 (keeps_ite (State.keeps_headDown (State.keeps_countHead hx1)) (State.keeps_auxUntrain (State.keeps_modHead hx1)))

theorem State.keeps_auxNext {a : State} {x0} {x1} (hx1 : Keeps a x1) : Keeps a (State.auxNext x0 x1) := by
  unfold State.auxNext
  exact State.keeps_auxSend (State.keeps_modHead hx1)

theorem State.keeps_auxQueue {a : State} {x0} {x1} {x2} (hx2 : Keeps a x2) : Keeps a (State.auxQueue x0 x1 x2) := by
  unfold State.auxQueue
  extract_lets +onlyGivenNames -merge -useContext -underBinder free_0
  extract_lets +onlyGivenNames -merge -useContext -underBinder s_1
  have hs_1 : Keeps a s_1 := State.keeps_modHead hx2
  clear_value s_1
  exact keeps_ite (State.keeps_auxSend hs_1) hs_1

theorem State.keeps_auxReply {a : State} {x0} {x1} {x2} (hx2 : Keeps a x2) : Keeps a (State.auxReply x0 x1 x2) := by
  unfold State.auxReply
  split <;> first | exact hx2 | exact
      (by extract_lets +onlyGivenNames -merge -useContext -underBinder s_0; have hs_0 : Keeps a s_0 := (State.keeps_auxNext hx2); clear_value s_0; exact (by split <;> first | exact (by extract_lets +onlyGivenNames -merge -useContext -underBinder s_1; have hs_1 : Keeps a s_1 := (State.keeps_modHead hs_0); clear_value s_1; exact (keeps_ite (State.keeps_headLinkLoss hs_1) hs_1)) | exact (State.keeps_modHead hs_0) | exact hs_0))

theorem State.keeps_auxTimeout {a : State} {x0} {x1} (hx1 : Keeps a x1) : Keeps a (State.auxTimeout x0 x1) := by
  unfold State.auxTimeout
  split <;> first | exact hx1 | exact (keeps_ite (State.keeps_auxSend (State.keeps_modHead hx1))
      (by extract_lets +onlyGivenNames -merge -useContext -underBinder s_0; have hs_0 : Keeps a s_0 := (State.keeps_auxSend (State.keeps_modHead (State.keeps_countHead hx1))); clear_value s_0; exact (keeps_ite (State.keeps_attemptFail hs_0) hs_0)))

theorem State.keeps_headOff {a : State} {x0} {x1} (hx1 : Keeps a x1) : Keeps a (State.headOff x0 x1) := by
  unfold State.headOff
  extract_lets +onlyGivenNames -merge -useContext -underBinder s_0
  have hs_0 : Keeps a s_0 := State.keeps_dropRows (State.keeps_headDown (State.keeps_passLines hx1))
  clear_value s_0
  exact State.keeps_modHead hs_0

theorem State.keeps_writePolicy {a : State} {x0} {x1} {x2} (hx2 : Keeps a x2) : Keeps a (State.writePolicy x0 x1 x2) := by
  unfold State.writePolicy
  extract_lets +onlyGivenNames -merge -useContext -underBinder src_0 s_1
  have hs_1 : Keeps a s_1 := hx2
  clear_value s_1
  exact keeps_ite (State.keeps_fireSrc hs_1) hs_1

theorem State.keeps_unitFrame {a : State} {x0} {x1} (hx1 : Keeps a x1) : Keeps a (State.unitFrame x0 x1) := by
  unfold State.unitFrame
  extract_lets +onlyGivenNames -merge -useContext -underBinder u_0
  refine keeps_ite hx1 ?_
  extract_lets +onlyGivenNames -merge -useContext -underBinder x_1
  extract_lets +onlyGivenNames -merge -useContext -underBinder n_2
  extract_lets +onlyGivenNames -merge -useContext -underBinder src_3 s_4
  have hs_4 : Keeps a s_4 := hx1
  clear_value s_4
  exact keeps_ite (State.keeps_unfence hs_4) hs_4

theorem State.keeps_testRows {a : State} {x0} {x1} {x2} (hx2 : Keeps a x2) : Keeps a (State.testRows x0 x1 x2) := by
  unfold State.testRows
  extract_lets +onlyGivenNames -merge -useContext -underBinder u_0
  extract_lets +onlyGivenNames -merge -useContext -underBinder n_1
  refine keeps_ite hx2 ?_
  extract_lets +onlyGivenNames -merge -useContext -underBinder s_2
  have hs_2 : Keeps a s_2 := State.keeps_count hx2
  clear_value s_2
  extract_lets +onlyGivenNames -merge -useContext -underBinder src_3 s_4
  have hs_4 : Keeps a s_4 := hs_2
  clear_value s_4
  exact State.keeps_fireSrc hs_4

theorem State.keeps_headStarted {a : State} {x0} {x1} {x2} (hx2 : Keeps a x2) : Keeps a (State.headStarted x0 x1 x2) := by
  unfold State.headStarted
  extract_lets +onlyGivenNames -merge -useContext -underBinder next_0
  extract_lets +onlyGivenNames -merge -useContext -underBinder done_1
  extract_lets +onlyGivenNames -merge -useContext -underBinder src_2 s_3
  have hs_3 : Keeps a s_3 := hx2
  clear_value s_3
  exact keeps_foldl0 hs_3 (fun z4 z5 hz4 => (State.keeps_event hz4))

theorem State.keeps_stopperReset {a : State} {x0} {x1} (hx1 : Keeps a x1) : Keeps a (State.stopperReset x0 x1) := by
  unfold State.stopperReset
  extract_lets +onlyGivenNames -merge -useContext -underBinder pol_0
  extract_lets +onlyGivenNames -merge -useContext -underBinder x_1
  extract_lets +onlyGivenNames -merge -useContext -underBinder cut_2
  extract_lets +onlyGivenNames -merge -useContext -underBinder mine_3
  exact hx1

theorem State.keeps_headStart {a : State} {x0} {x1} {x2} {x3} {x4} {x5} {x6} (hx6 : Keeps a x6) : Keeps a (State.headStart x0 x1 x2 x3 x4 x5 x6) := by
  unfold State.headStart
  extract_lets +onlyGivenNames -merge -useContext -underBinder fresh_0
  extract_lets +onlyGivenNames -merge -useContext -underBinder s_1
  have hs_1 : Keeps a s_1 := State.keeps_stopperReset (State.keeps_testRows (State.keeps_unitFrame (State.keeps_headStarted
      (State.keeps_passLines hx6))))
  clear_value s_1
  extract_lets +onlyGivenNames -merge -useContext -underBinder s_2
  have hs_2 : Keeps a s_2 := keeps_ite (State.keeps_modHead hs_1) hs_1
  clear_value s_2
  extract_lets +onlyGivenNames -merge -useContext -underBinder s_3
  have hs_3 : Keeps a s_3 := keeps_ite (State.keeps_modHead hs_2) hs_2
  clear_value s_3
  extract_lets +onlyGivenNames -merge -useContext -underBinder s_4
  have hs_4 : Keeps a s_4 := State.keeps_beginFrame (State.keeps_headStateAtStart hs_3)
  clear_value s_4
  extract_lets +onlyGivenNames -merge -useContext -underBinder s_5
  have hs_5 : Keeps a s_5 := keeps_ite (State.keeps_writePolicy hs_4) hs_4
  clear_value s_5
  exact State.keeps_startSignatures hs_5

theorem State.keeps_hpdAsserted {a : State} {x0} {x1} (hx1 : Keeps a x1) : Keeps a (State.hpdAsserted x0 x1) := by
  unfold State.hpdAsserted
  exact keeps_ite hx1 (State.keeps_auxQueue (State.keeps_modHead hx1))

theorem State.keeps_hpdIrq {a : State} {x0} {x1} (hx1 : Keeps a x1) : Keeps a (State.hpdIrq x0 x1) := by
  unfold State.hpdIrq
  exact keeps_ite (State.keeps_auxQueue (State.keeps_countHead hx1)) hx1

theorem State.keeps_hpdUnplug {a : State} {x0} {x1} (hx1 : Keeps a x1) : Keeps a (State.hpdUnplug x0 x1) := by
  unfold State.hpdUnplug
  refine keeps_ite hx1 ?_
  extract_lets +onlyGivenNames -merge -useContext -underBinder s_0
  have hs_0 : Keeps a s_0 := State.keeps_modHead (State.keeps_countHead hx1)
  clear_value s_0
  exact keeps_ite (State.keeps_headLinkLoss hs_0) (keeps_ite (State.keeps_headDown hs_0) hs_0)

theorem State.keeps_trainDone {a : State} {x0} {x1} {x2} (hx2 : Keeps a x2) : Keeps a (State.trainDone x0 x1 x2) := by
  unfold State.trainDone
  extract_lets +onlyGivenNames -merge -useContext -underBinder r_0
  exact keeps_ite hx2 (State.keeps_countHead (State.keeps_auxUntrain (State.keeps_modHead hx2)))

theorem State.keeps_trainRetry {a : State} {x0} {x1} (hx1 : Keeps a x1) : Keeps a (State.trainRetry x0 x1) := by
  unfold State.trainRetry
  extract_lets +onlyGivenNames -merge -useContext -underBinder r_0
  exact keeps_ite hx1 (keeps_ite (State.keeps_trainWrites (State.keeps_modHead hx1)) (State.keeps_headDown hx1))

/-! ### Machine/Lanes.lean -/

theorem State.keeps_cdrLoss {a : State} {x0} {x1} (hx1 : Keeps a x1) : Keeps a (State.cdrLoss x0 x1) := by
  unfold State.cdrLoss
  exact keeps_ite hx1 (State.keeps_count (State.keeps_modLane hx1))

theorem State.keeps_idleExit {a : State} {x0} {x1} (hx1 : Keeps a x1) : Keeps a (State.idleExit x0 x1) := by
  unfold State.idleExit
  exact keeps_ite (State.keeps_modLane hx1) hx1

theorem State.keeps_setPll {a : State} {x0} {x1} {x2} (hx2 : Keeps a x2) : Keeps a (State.setPll x0 x1 x2) := by
  unfold State.setPll
  exact hx2

theorem State.keeps_pllLock {a : State} {x0} {x1} (hx1 : Keeps a x1) : Keeps a (State.pllLock x0 x1) := by
  unfold State.pllLock
  exact keeps_ite (State.keeps_setPll hx1) hx1

theorem State.keeps_pllLost {a : State} {x0} {x1} (hx1 : Keeps a x1) : Keeps a (State.pllLost x0 x1) := by
  unfold State.pllLost
  extract_lets +onlyGivenNames -merge -useContext -underBinder s_0
  have hs_0 : Keeps a s_0 := State.keeps_quadStop (State.keeps_count (State.keeps_setPll hx1))
  clear_value s_0
  extract_lets +onlyGivenNames -merge -useContext -underBinder s_1
  have hs_1 : Keeps a s_1 := keeps_foldl0 hs_0 (fun z2 z3 hz2 => (State.keeps_modLane hz2))
  clear_value s_1
  exact State.keeps_fireSrc hs_1

theorem State.keeps_pllTimeout {a : State} {x0} {x1} (hx1 : Keeps a x1) : Keeps a (State.pllTimeout x0 x1) := by
  unfold State.pllTimeout
  exact keeps_ite (State.keeps_pllLost hx1) hx1

theorem State.keeps_pllUnlock {a : State} {x0} {x1} (hx1 : Keeps a x1) : Keeps a (State.pllUnlock x0 x1) := by
  unfold State.pllUnlock
  exact keeps_ite (State.keeps_pllLost hx1) hx1

theorem State.keeps_restExit {a : State} {x0} {x1} (hx1 : Keeps a x1) : Keeps a (State.restExit x0 x1) := by
  unfold State.restExit
  extract_lets +onlyGivenNames -merge -useContext -underBinder r_0
  refine keeps_ite hx1 ?_
  extract_lets +onlyGivenNames -merge -useContext -underBinder long_1
  extract_lets +onlyGivenNames -merge -useContext -underBinder ui_2
  extract_lets +onlyGivenNames -merge -useContext -underBinder s_3
  have hs_3 : Keeps a s_3 := State.keeps_modLane hx1
  clear_value s_3
  extract_lets +onlyGivenNames -merge -useContext -underBinder src_4 s_5
  have hs_5 : Keeps a s_5 := hs_3
  clear_value s_5
  exact keeps_ite (State.keeps_count hs_5) hs_5

/-! ### Machine/Snapshot.lean -/

theorem State.keeps_putSnapshot {a : State} {x0} {x1} (hx1 : Keeps a x1) : Keeps a (State.putSnapshot x0 x1) := by
  unfold State.putSnapshot
  exact hx1

theorem State.keeps_commandSnapshot {a : State} {x0} (hx0 : Keeps a x0) : Keeps a (State.commandSnapshot x0) := by
  unfold State.commandSnapshot
  exact State.keeps_putSnapshot hx0

theorem State.keeps_voidSlot {a : State} {x0} {x1} (hx1 : Keeps a x1) : Keeps a (State.voidSlot x0 x1) := by
  unfold State.voidSlot
  exact hx1

theorem State.keeps_fwTimeout {a : State} {x0} (hx0 : Keeps a x0) : Keeps a (State.fwTimeout x0) := by
  unfold State.fwTimeout
  exact keeps_ite (by extract_lets +onlyGivenNames -merge -useContext -underBinder src_0; have hsrc_0 : Keeps a src_0 := (State.keeps_voidSlot hx0); clear_value src_0; exact hsrc_0) hx0

theorem State.keeps_resetAfterReply {a : State} {x0} {x1} (hx1 : Keeps a x1) : Keeps a (State.resetAfterReply x0 x1) := by
  unfold State.resetAfterReply
  split <;> first | exact (State.keeps_chipReset hx1) | exact (keeps_ite (State.keeps_chipReset hx1) hx1)

theorem State.keeps_resetIfDue {a : State} {x0} {x1} (hx1 : Keeps a x1) : Keeps a (State.resetIfDue x0 x1) := by
  unfold State.resetIfDue
  exact keeps_ite (State.keeps_chipReset hx1) hx1

theorem State.keeps_writeStart {a : State} {x0} {x1} {x2} (hx2 : Keeps a x2) : Keeps a (State.writeStart x0 x1 x2) := by
  unfold State.writeStart
  extract_lets +onlyGivenNames -merge -useContext -underBinder r_0
  exact keeps_ite hx2 hx2

theorem State.keeps_setStartCount {a : State} {x0} {x1} (hx1 : Keeps a x1) : Keeps a (State.setStartCount x0 x1) := by
  unfold State.setStartCount
  exact State.keeps_writeStart hx1

theorem State.keeps_wallSnapshot {a : State} {x0} (hx0 : Keeps a x0) : Keeps a (State.wallSnapshot x0) := by
  unfold State.wallSnapshot
  exact State.keeps_putSnapshot hx0

theorem keeps_cmdClearStartCount {a : State} {x0} {x1} (hx1 : Keeps a x1) : Keeps a (cmdClearStartCount x0 x1) := by
  unfold cmdClearStartCount
  exact State.keeps_serve (fun z0 hz0 => (State.keeps_ok (State.keeps_setStartCount hz0))) hx1

theorem keeps_cmdFwBegin {a : State} {x0} {x1} {x2} (hx2 : Keeps a x2) : Keeps a (cmdFwBegin x0 x1 x2) := by
  unfold cmdFwBegin
  exact State.keeps_serve (fun z0 hz0 => (keeps_ite (State.keeps_refuse hz0)
      (by extract_lets +onlyGivenNames -merge -useContext -underBinder t_1; exact (State.keeps_ok (by extract_lets +onlyGivenNames -merge -useContext -underBinder src_2; have hsrc_2 : Keeps a src_2 := (State.keeps_voidSlot hz0); clear_value src_2; exact hsrc_2))))) hx2

theorem keeps_cmdFwData {a : State} {x0} {x1} {x2} {x3} (hx3 : Keeps a x3) : Keeps a (cmdFwData x0 x1 x2 x3) := by
  unfold cmdFwData
  exact State.keeps_serve (fun z0 hz0 => (keeps_ite (State.keeps_refuse hz0)
      (by extract_lets +onlyGivenNames -merge -useContext -underBinder src_1 s_2; have hs_2 : Keeps a s_2 := hz0; clear_value s_2; exact (keeps_ite (State.keeps_refuse hs_2) hs_2)))) hx3

theorem keeps_cmdFwEnd {a : State} {x0} {x1} {x2} {x3} {x4} (hx4 : Keeps a x4) : Keeps a (cmdFwEnd x0 x1 x2 x3 x4) := by
  unfold cmdFwEnd
  exact State.keeps_serve (fun z0 hz0 => (keeps_ite (State.keeps_refuse hz0)
      (by extract_lets +onlyGivenNames -merge -useContext -underBinder slot_1; exact (keeps_ite (State.keeps_ok hz0) (State.keeps_refuse (by extract_lets +onlyGivenNames -merge -useContext -underBinder src_2; have hsrc_2 : Keeps a src_2 := (State.keeps_voidSlot hz0); clear_value src_2; exact hsrc_2)))))) hx4

theorem keeps_cmdIdentify {a : State} {x0} {x1} (hx1 : Keeps a x1) : Keeps a (cmdIdentify x0 x1) := by
  unfold cmdIdentify
  exact State.keeps_serve (fun z0 hz0 => (State.keeps_ok hz0)) hx1

theorem keeps_cmdMemConfig {a : State} {x0} {x1} {x2} {x3} {x4} (hx4 : Keeps a x4) : Keeps a (cmdMemConfig x0 x1 x2 x3 x4) := by
  unfold cmdMemConfig
  exact State.keeps_serve (fun z0 hz0 => (keeps_ite (State.keeps_refuse hz0) hz0)) hx4

theorem keeps_cmdPaletteProgram {a : State} {x0} {x1} {x2} (hx2 : Keeps a x2) : Keeps a (cmdPaletteProgram x0 x1 x2) := by
  unfold cmdPaletteProgram
  exact State.keeps_serve (fun z0 hz0 => (keeps_ite (State.keeps_refuse hz0) (keeps_ite (State.keeps_refuse hz0) hz0))) hx2

theorem keeps_cmdReadLog {a : State} {x0} {x1} {x2} {x3} (hx3 : Keeps a x3) : Keeps a (cmdReadLog x0 x1 x2 x3) := by
  unfold cmdReadLog
  exact State.keeps_serve (fun z0 hz0 => (by extract_lets +onlyGivenNames -merge -useContext -underBinder recs_1; exact (State.keeps_ok hz0))) hx3

theorem keeps_cmdReset {a : State} {x0} {x1} (hx1 : Keeps a x1) : Keeps a (cmdReset x0 x1) := by
  unfold cmdReset
  exact State.keeps_serve (fun z0 hz0 => (State.keeps_resetAfterReply (State.keeps_ok hz0))) hx1

theorem keeps_cmdSummary {a : State} {x0} {x1} (hx1 : Keeps a x1) : Keeps a (cmdSummary x0 x1) := by
  unfold cmdSummary
  exact State.keeps_serve (fun z0 hz0 =>
      (by extract_lets +onlyGivenNames -merge -useContext -underBinder s_1; have hs_1 : Keeps a s_1 := (keeps_ite hz0 (State.keeps_commandSnapshot hz0)); clear_value s_1; exact (State.keeps_ok hs_1))) hx1

/-! ### Machine/Query.lean -/

theorem State.keeps_clearCounters {a : State} {x0} {x1} {x2} {x3} (hx3 : Keeps a x3) : Keeps a (State.clearCounters x0 x1 x2 x3) := by
  unfold State.clearCounters
  exact keeps_foldl0 hx3 (fun z0 z1 hz0 => (State.keeps_setCounter hz0))

theorem State.keeps_rearm {a : State} {x0} {x1} (hx1 : Keeps a x1) : Keeps a (State.rearm x0 x1) := by
  unfold State.rearm
  extract_lets +onlyGivenNames -merge -useContext -underBinder hit_0
  exact hx1

theorem State.keeps_unitTestDone {a : State} {x0} {x1} {x2} (hx2 : Keeps a x2) : Keeps a (State.unitTestDone x0 x1 x2) := by
  unfold State.unitTestDone
  split <;> first | exact hx2 | exact
      (by extract_lets +onlyGivenNames -merge -useContext -underBinder src_0 s_1; have hs_1 : Keeps a s_1 := hx2; clear_value s_1; exact (keeps_ite hs_1 (State.keeps_fireSrc hs_1)))

theorem keeps_cmdCounterRead {a : State} {x0} {x1} {x2} {x3} {x4} (hx4 : Keeps a x4) : Keeps a (cmdCounterRead x0 x1 x2 x3 x4) := by
  unfold cmdCounterRead
  exact State.keeps_serve (fun z1 hz1 =>
      (by extract_lets +onlyGivenNames -merge -useContext -underBinder n_2; exact (State.keeps_ok (keeps_ite (State.keeps_clearCounters hz1) hz1))))
      hx4

theorem keeps_cmdDebugChallenge {a : State} {x0} {x1} (hx1 : Keeps a x1) : Keeps a (cmdDebugChallenge x0 x1) := by
  unfold cmdDebugChallenge
  exact State.keeps_serve (fun z0 hz0 =>
      (by extract_lets +onlyGivenNames -merge -useContext -underBinder f_1; have hf_1 : Keeps a f_1.2 := (State.keeps_takeFree hz0); clear_value f_1; exact (State.keeps_ok (by extract_lets +onlyGivenNames -merge -useContext -underBinder src_2; have hsrc_2 : Keeps a src_2 := hf_1; clear_value src_2; exact hsrc_2)))) hx1

theorem keeps_cmdDebugUnlock {a : State} {x0} {x1} {x2} (hx2 : Keeps a x2) : Keeps a (cmdDebugUnlock x0 x1 x2) := by
  unfold cmdDebugUnlock
  exact State.keeps_serve (fun z0 hz0 => (keeps_ite (State.keeps_ok hz0) (keeps_ite (State.keeps_refuse hz0) (keeps_ite (State.keeps_ok hz0)
      (by extract_lets +onlyGivenNames -merge -useContext -underBinder n_1; exact (State.keeps_refuse hz0)))))) hx2

theorem keeps_cmdEncQuery {a : State} {x0} {x1} {x2} {x3} (hx3 : Keeps a x3) : Keeps a (cmdEncQuery x0 x1 x2 x3) := by
  unfold cmdEncQuery
  exact State.keeps_serve (fun z0 hz0 =>
      (by extract_lets +onlyGivenNames -merge -useContext -underBinder r_1; exact (by extract_lets +onlyGivenNames -merge -useContext -underBinder seals_2; exact (State.keeps_ok hz0)))) hx3

theorem keeps_cmdFaultQuery {a : State} {x0} {x1} {x2} {x3} (hx3 : Keeps a x3) : Keeps a (cmdFaultQuery x0 x1 x2 x3) := by
  unfold cmdFaultQuery
  exact State.keeps_serve (fun z0 hz0 => (by extract_lets +onlyGivenNames -merge -useContext -underBinder n_1; exact (State.keeps_ok hz0))) hx3

theorem keeps_cmdFaultReact {a : State} {x0} {x1} {x2} {x3} (hx3 : Keeps a x3) : Keeps a (cmdFaultReact x0 x1 x2 x3) := by
  unfold cmdFaultReact
  exact State.keeps_serve (fun z0 hz0 => (State.keeps_ok (State.keeps_modFaultSrc hz0))) hx3

theorem keeps_cmdFaultRearm {a : State} {x0} {x1} {x2} (hx2 : Keeps a x2) : Keeps a (cmdFaultRearm x0 x1 x2) := by
  unfold cmdFaultRearm
  exact State.keeps_serve (fun z0 hz0 => (State.keeps_ok (State.keeps_rearm hz0))) hx2

theorem keeps_cmdHeadQuery {a : State} {x0} {x1} {x2} {x3} {x4} {x5} (hx5 : Keeps a x5) : Keeps a (cmdHeadQuery x0 x1 x2 x3 x4 x5) := by
  unfold cmdHeadQuery
  exact State.keeps_serve (fun z0 hz0 =>
      (by extract_lets +onlyGivenNames -merge -useContext -underBinder r_1; exact (keeps_ite (State.keeps_ok hz0) (by extract_lets +onlyGivenNames -merge -useContext -underBinder bs_2; exact (State.keeps_ok hz0))))) hx5

theorem keeps_cmdPointQuery {a : State} {x0} {x1} {x2} {x3} (hx3 : Keeps a x3) : Keeps a (cmdPointQuery x0 x1 x2 x3) := by
  unfold cmdPointQuery
  exact State.keeps_serve (fun z0 hz0 => (by extract_lets +onlyGivenNames -merge -useContext -underBinder n_1; exact (State.keeps_ok hz0))) hx3

theorem keeps_cmdSourceQuery {a : State} {x0} {x1} {x2} {x3} (hx3 : Keeps a x3) : Keeps a (cmdSourceQuery x0 x1 x2 x3) := by
  unfold cmdSourceQuery
  exact State.keeps_serve (fun z0 hz0 => (keeps_ite (State.keeps_refuse hz0)
      (by extract_lets +onlyGivenNames -merge -useContext -underBinder rt_1; exact (by extract_lets +onlyGivenNames -merge -useContext -underBinder seals_2; exact (State.keeps_ok hz0))))) hx3

theorem keeps_cmdTimeStatus {a : State} {x0} {x1} {x2} {x3} {x4} (hx4 : Keeps a x4) : Keeps a (cmdTimeStatus x0 x1 x2 x3 x4) := by
  unfold cmdTimeStatus
  exact State.keeps_serve (fun z0 hz0 =>
      (by extract_lets +onlyGivenNames -merge -useContext -underBinder t_1; exact (keeps_ite (State.keeps_ok hz0) (keeps_ite (by extract_lets +onlyGivenNames -merge -useContext -underBinder xs_2; exact (State.keeps_ok (State.keeps_modDomain hz0))) (by extract_lets +onlyGivenNames -merge -useContext -underBinder xs_3; exact (State.keeps_ok hz0)))))) hx4

theorem keeps_cmdUnitRestore {a : State} {x0} {x1} {x2} (hx2 : Keeps a x2) : Keeps a (cmdUnitRestore x0 x1 x2) := by
  unfold cmdUnitRestore
  exact State.keeps_serve (fun z0 hz0 => (keeps_ite (State.keeps_refuse hz0) (keeps_ite (State.keeps_refuse hz0) (keeps_ite (State.keeps_ok hz0)
      (State.keeps_ok hz0))))) hx2

/-! ### Machine/Checks.lean -/

theorem State.keeps_endLaneTests {a : State} {x0} {x1} (hx1 : Keeps a x1) : Keeps a (State.endLaneTests x0 x1) := by
  unfold State.endLaneTests
  exact keeps_foldl0 hx1 (fun z0 z1 hz0 => (State.keeps_modLane hz0))

theorem State.keeps_laneWrite {a : State} {x0} {x1} {x2} (hx2 : Keeps a x2) : Keeps a (State.laneWrite x0 x1 x2) := by
  unfold State.laneWrite
  extract_lets +onlyGivenNames -merge -useContext -underBinder old_0
  extract_lets +onlyGivenNames -merge -useContext -underBinder rising_1
  extract_lets +onlyGivenNames -merge -useContext -underBinder s_2
  have hs_2 : Keeps a s_2 := State.keeps_modLane hx2
  clear_value s_2
  extract_lets +onlyGivenNames -merge -useContext -underBinder s_3
  have hs_3 : Keeps a s_3 := keeps_ite (State.keeps_setCounter hs_2) hs_2
  clear_value s_3
  exact keeps_ite (State.keeps_setPll hs_3) hs_3

theorem State.keeps_modWhip {a : State} {x0} {x1} {x2} (hx2 : Keeps a x2) : Keeps a (State.modWhip x0 x1 x2) := by
  unfold State.modWhip
  exact hx2

theorem State.keeps_prbsNote {a : State} {x0} {x1} (hx1 : Keeps a x1) : Keeps a (State.prbsNote x0 x1) := by
  unfold State.prbsNote
  extract_lets +onlyGivenNames -merge -useContext -underBinder r_0
  refine keeps_ite hx1 ?_
  extract_lets +onlyGivenNames -merge -useContext -underBinder s_1
  have hs_1 : Keeps a s_1 := keeps_ite (State.keeps_count hx1) (State.keeps_setCounter hx1)
  clear_value s_1
  exact State.keeps_modLane (State.keeps_count hs_1)

theorem State.keeps_whipRead {a : State} {x0} {x1} (hx1 : Keeps a x1) : Keeps a (State.whipRead x0 x1).2 := by
  induction x0 generalizing x1 with
  | nil => exact hx1
  | cons b t ih =>
    unfold State.whipRead
    dsimp only
    split
    · exact ih (State.keeps_access hx1)
    · exact State.keeps_access hx1

theorem State.keeps_whipDone {a : State} {x0} {x1} {x2} (hx2 : Keeps a x2) : Keeps a (State.whipDone x0 x1 x2) := by
  unfold State.whipDone
  split <;> first | exact hx2 | exact (keeps_ite hx2
      (by extract_lets +onlyGivenNames -merge -useContext -underBinder w_0; exact (by extract_lets +onlyGivenNames -merge -useContext -underBinder g_1; exact (by extract_lets +onlyGivenNames -merge -useContext -underBinder r_2; have hr_2 : Keeps a r_2.2 := (State.keeps_whipRead hx2); clear_value r_2; exact (by extract_lets +onlyGivenNames -merge -useContext -underBinder s_3; have hs_3 : Keeps a s_3 := hr_2; clear_value s_3; exact (by extract_lets +onlyGivenNames -merge -useContext -underBinder v_4; exact (by extract_lets +onlyGivenNames -merge -useContext -underBinder bad_5; exact (by extract_lets +onlyGivenNames -merge -useContext -underBinder stop_6; exact (by extract_lets +onlyGivenNames -merge -useContext -underBinder s_7; have hs_7 : Keeps a s_7 := (State.keeps_modWhip hs_3); clear_value s_7; exact (keeps_ite (State.keeps_fireSrc hs_7) hs_7))))))))))

theorem State.keeps_whipLine0 {a : State} {x0} (hx0 : Keeps a x0) : Keeps a (State.whipLine0 x0) := by
  unfold State.whipLine0
  exact keeps_ite hx0 hx0

theorem keeps_cmdLaneTest {a : State} {x0} {x1} {x2} {x3} {x4} (hx4 : Keeps a x4) : Keeps a (cmdLaneTest x0 x1 x2 x3 x4) := by
  unfold cmdLaneTest
  exact State.keeps_serve (fun z0 hz0 => (keeps_ite (State.keeps_refuse hz0) (keeps_ite (State.keeps_refuse hz0)
      (by extract_lets +onlyGivenNames -merge -useContext -underBinder s_1; have hs_1 : Keeps a s_1 := (keeps_ite (State.keeps_laneWrite hz0) hz0); clear_value s_1; exact (State.keeps_ok hs_1))))) hx4

theorem keeps_cmdProbeSet {a : State} {x0} {x1} {x2} (hx2 : Keeps a x2) : Keeps a (cmdProbeSet x0 x1 x2) := by
  unfold cmdProbeSet
  exact State.keeps_serve (fun z0 hz0 =>
      (by extract_lets +onlyGivenNames -merge -useContext -underBinder q_1; exact (by extract_lets +onlyGivenNames -merge -useContext -underBinder cfg_2; exact (by extract_lets +onlyGivenNames -merge -useContext -underBinder src_3 s_4; have hs_4 : Keeps a s_4 := hz0; clear_value s_4; exact (State.keeps_ok hs_4))))) hx2

theorem keeps_cmdWhipSet {a : State} {x0} {x1} {x2} (hx2 : Keeps a x2) : Keeps a (cmdWhipSet x0 x1 x2) := by
  unfold cmdWhipSet
  exact State.keeps_serve (fun z0 hz0 =>
      (by extract_lets +onlyGivenNames -merge -useContext -underBinder w_1; exact (by extract_lets +onlyGivenNames -merge -useContext -underBinder s_2; have hs_2 : Keeps a s_2 := (keeps_ite hz0 (State.keeps_modWhip hz0)); clear_value s_2; exact (State.keeps_ok hs_2)))) hx2

end Sys2Proof.Machine
end

