-- ==== Sys2Proof/Laws/KeepsHost.lean ====
section
/-! SUPPORT. What the operations of touch, the network, transactions, packets, rings and background work keep. -/

namespace Sys2Proof.Machine

open Sys2Proof

set_option Elab.async false

/-! ### Machine/Touch.lean -/

theorem State.keeps_antiTouch {a : State} {x0} {x1} (hx1 : Keeps a x1) : Keeps a (State.antiTouch x0 x1) := by
  unfold State.antiTouch
  extract_lets +onlyGivenNames -merge -useContext -underBinder k_0
  extract_lets +onlyGivenNames -merge -useContext -underBinder hit_1
  extract_lets +onlyGivenNames -merge -useContext -underBinder keep_2
  extract_lets +onlyGivenNames -merge -useContext -underBinder s_3
  have hs_3 : Keeps a s_3 := State.keeps_modDesk hx1
  clear_value s_3
  exact State.keeps_count (State.keeps_count hs_3)

theorem State.keeps_sendDesk {a : State} {x0} {x1} {x2} (hx2 : Keeps a x2) : Keeps a (State.sendDesk x0 x1 x2) := by
  unfold State.sendDesk
  exact hx2

theorem State.keeps_deskBlockLock {a : State} {x0} {x1} (hx1 : Keeps a x1) : Keeps a (State.deskBlockLock x0 x1) := by
  unfold State.deskBlockLock
  extract_lets +onlyGivenNames -merge -useContext -underBinder k_0
  exact keeps_ite hx1 (State.keeps_sendDesk (State.keeps_modLane (State.keeps_modDesk hx1)))

theorem State.keeps_deskConfig {a : State} {x0} {x1} (hx1 : Keeps a x1) : Keeps a (State.deskConfig x0 x1) := by
  unfold State.deskConfig
  extract_lets +onlyGivenNames -merge -useContext -underBinder new_0
  extract_lets +onlyGivenNames -merge -useContext -underBinder old_1
  extract_lets +onlyGivenNames -merge -useContext -underBinder s_2
  have hs_2 : Keeps a s_2 := keeps_ite (State.keeps_cancelContacts hx1) hx1
  clear_value s_2
  exact State.keeps_modDesk hs_2

theorem State.keeps_deskFault {a : State} {x0} {x1} (hx1 : Keeps a x1) : Keeps a (State.deskFault x0 x1) := by
  unfold State.deskFault
  exact State.keeps_fireSrc (State.keeps_deskState hx1)

theorem State.keeps_deskHop {a : State} {x0} {x1} (hx1 : Keeps a x1) : Keeps a (State.deskHop x0 x1) := by
  unfold State.deskHop
  extract_lets +onlyGivenNames k target s1
  have h1 : Keeps a s1 := State.keeps_modDesk hx1
  cases target with
  | none => exact h1
  | some p => exact State.keeps_count (State.keeps_modDesk h1)

theorem State.keeps_deskLoss {a : State} {x0} {x1} (hx1 : Keeps a x1) : Keeps a (State.deskLoss x0 x1) := by
  unfold State.deskLoss
  extract_lets +onlyGivenNames -merge -useContext -underBinder k_0
  refine keeps_ite hx1 ?_
  extract_lets +onlyGivenNames -merge -useContext -underBinder s_1
  have hs_1 : Keeps a s_1 := State.keeps_modLane (State.keeps_modDesk (State.keeps_count hx1))
  clear_value s_1
  exact keeps_ite (State.keeps_deskState hs_1) hs_1

theorem State.keeps_deskTimeout {a : State} {x0} {x1} (hx1 : Keeps a x1) : Keeps a (State.deskTimeout x0 x1) := by
  unfold State.deskTimeout
  extract_lets +onlyGivenNames -merge -useContext -underBinder k_0
  exact keeps_ite hx1 (keeps_ite (State.keeps_deskFault hx1) (State.keeps_modDesk hx1))

theorem State.keeps_discardFrame {a : State} {x0} {x1} (hx1 : Keeps a x1) : Keeps a (State.discardFrame x0 x1) := by
  unfold State.discardFrame
  extract_lets +onlyGivenNames -merge -useContext -underBinder n_0
  extract_lets +onlyGivenNames -merge -useContext -underBinder s_1
  have hs_1 : Keeps a s_1 := State.keeps_modDesk (State.keeps_count hx1)
  clear_value s_1
  exact keeps_ite (State.keeps_deskState (State.keeps_modDesk hs_1)) hs_1

theorem State.keeps_settleNodes {a : State} {x0} {x1} {x2} (hx2 : Keeps a x2) : Keeps a (State.settleNodes x0 x1 x2) := by
  unfold State.settleNodes
  extract_lets +onlyGivenNames -merge -useContext -underBinder k_0
  extract_lets +onlyGivenNames -merge -useContext -underBinder c_1
  extract_lets +onlyGivenNames -merge -useContext -underBinder drift_2
  extract_lets +onlyGivenNames -merge -useContext -underBinder aged_3
  extract_lets +onlyGivenNames -merge -useContext -underBinder keep_4
  extract_lets +onlyGivenNames -merge -useContext -underBinder s_5
  have hs_5 : Keeps a s_5 := State.keeps_modDesk hx2
  clear_value s_5
  exact State.keeps_count (State.keeps_count hs_5)

theorem State.keeps_track {a : State} {x0} {x1} {x2} {x3} (hx3 : Keeps a x3) : Keeps a (State.track x0 x1 x2 x3).1 := by
  unfold State.track
  extract_lets +onlyGivenNames -merge -useContext -underBinder k_0
  extract_lets +onlyGivenNames -merge -useContext -underBinder c_1
  extract_lets +onlyGivenNames -merge -useContext -underBinder ps_2
  extract_lets +onlyGivenNames -merge -useContext -underBinder got_3
  extract_lets +onlyGivenNames -merge -useContext -underBinder peakOf_4
  extract_lets +onlyGivenNames -merge -useContext -underBinder gone_5
  extract_lets +onlyGivenNames -merge -useContext -underBinder on_6
  extract_lets +onlyGivenNames -merge -useContext -underBinder free_7
  extract_lets +onlyGivenNames -merge -useContext -underBinder t_8
  extract_lets +onlyGivenNames -merge -useContext -underBinder fallen_9
  extract_lets +onlyGivenNames -merge -useContext -underBinder ends_10
  extract_lets +onlyGivenNames -merge -useContext -underBinder goes_11
  extract_lets +onlyGivenNames -merge -useContext -underBinder news_12
  extract_lets +onlyGivenNames -merge -useContext -underBinder s_13
  have hs_13 : Keeps a s_13 := State.keeps_modDesk hx3
  clear_value s_13
  exact State.keeps_count hs_13

theorem State.keeps_reportAll {a : State} {x0} {x1} (hx1 : Keeps a x1) : Keeps a (State.reportAll x0 x1) := by
  unfold State.reportAll
  exact keeps_foldl0 hx1 (fun z0 z1 hz0 => (State.keeps_report hz0))

theorem State.keeps_holdObjects {a : State} {x0} {x1} {x2} (hx2 : Keeps a x2) : Keeps a (State.holdObjects x0 x1 x2).1 := by
  unfold State.holdObjects
  extract_lets +onlyGivenNames -merge -useContext -underBinder k_0
  extract_lets +onlyGivenNames -merge -useContext -underBinder c_1
  extract_lets +onlyGivenNames -merge -useContext -underBinder held_2
  extract_lets +onlyGivenNames -merge -useContext -underBinder rs_3
  extract_lets +onlyGivenNames -merge -useContext -underBinder s_4
  have hs_4 : Keeps a s_4 := State.keeps_modDesk hx2
  clear_value s_4
  exact State.keeps_count hs_4

theorem State.keeps_runFrame {a : State} {x0} {x1} {x2} (hx2 : Keeps a x2) : Keeps a (State.runFrame x0 x1 x2) := by
  unfold State.runFrame
  extract_lets +onlyGivenNames -merge -useContext -underBinder s_0
  have hs_0 : Keeps a s_0 := State.keeps_antiTouch hx2
  clear_value s_0
  extract_lets +onlyGivenNames -merge -useContext -underBinder ds_1
  extract_lets +onlyGivenNames -merge -useContext -underBinder t_2
  have ht_2 : Keeps a t_2.1 := State.keeps_track hs_0
  clear_value t_2
  extract_lets +onlyGivenNames -merge -useContext -underBinder s_3
  have hs_3 : Keeps a s_3 := State.keeps_settleNodes ht_2
  clear_value s_3
  extract_lets +onlyGivenNames -merge -useContext -underBinder h_4
  have hh_4 : Keeps a h_4.1 := State.keeps_holdObjects hs_3
  clear_value h_4
  exact State.keeps_reportAll hh_4

theorem State.keeps_firstFrame {a : State} {x0} {x1} {x2} (hx2 : Keeps a x2) : Keeps a (State.firstFrame x0 x1 x2) := by
  unfold State.firstFrame
  extract_lets +onlyGivenNames -merge -useContext -underBinder c_0
  extract_lets +onlyGivenNames -merge -useContext -underBinder ns_1
  extract_lets +onlyGivenNames -merge -useContext -underBinder hit_2
  extract_lets +onlyGivenNames -merge -useContext -underBinder s_3
  have hs_3 : Keeps a s_3 := State.keeps_modDesk (State.keeps_deskState hx2)
  clear_value s_3
  exact State.keeps_runFrame hs_3

theorem State.keeps_infoRead {a : State} {x0} {x1} {x2} (hx2 : Keeps a x2) : Keeps a (State.infoRead x0 x1 x2) := by
  unfold State.infoRead
  extract_lets +onlyGivenNames -merge -useContext -underBinder k_0
  exact keeps_ite hx2 (keeps_ite (State.keeps_deskFault (State.keeps_modDesk hx2)) (State.keeps_deskState (State.keeps_modDesk hx2)))

theorem State.keeps_sampleInstant {a : State} {x0} {x1} {x2} {x3} {x4} (hx4 : Keeps a x4) : Keeps a (State.sampleInstant x0 x1 x2 x3 x4) := by
  unfold State.sampleInstant
  extract_lets +onlyGivenNames -merge -useContext -underBinder k_0
  refine keeps_ite hx4 ?_
  extract_lets +onlyGivenNames -merge -useContext -underBinder crcOk_1
  extract_lets +onlyGivenNames -merge -useContext -underBinder gap_2
  extract_lets +onlyGivenNames -merge -useContext -underBinder s_3
  have hs_3 : Keeps a s_3 := keeps_ite hx4 (State.keeps_count hx4)
  clear_value s_3
  exact State.keeps_modDesk hs_3

theorem State.keeps_startWrite {a : State} {x0} {x1} {x2} {x3} {x4} (hx4 : Keeps a x4) : Keeps a (State.startWrite x0 x1 x2 x3 x4) := by
  unfold State.startWrite
  exact State.keeps_modDesk (State.keeps_count hx4)

theorem State.keeps_saveStep {a : State} {x0} {x1} (hx1 : Keeps a x1) : Keeps a (State.saveStep x0 x1) := by
  unfold State.saveStep
  extract_lets +onlyGivenNames -merge -useContext -underBinder k_0
  split <;> first | exact hx1 | exact (keeps_ite (State.keeps_refuse (State.keeps_modDesk hx1))
      (by extract_lets +onlyGivenNames -merge -useContext -underBinder vs_1; exact (keeps_ite (State.keeps_modDesk hx1) (by extract_lets +onlyGivenNames -merge -useContext -underBinder raw_2; exact (by extract_lets +onlyGivenNames -merge -useContext -underBinder us_3; exact (State.keeps_startWrite hx1))))))

theorem State.keeps_thimbleMessage {a : State} {x0} {x1} {x2} {x3} (hx3 : Keeps a x3) : Keeps a (State.thimbleMessage x0 x1 x2 x3) := by
  unfold State.thimbleMessage
  extract_lets +onlyGivenNames -merge -useContext -underBinder k_0
  exact keeps_ite hx3 (keeps_ite (State.keeps_modDesk hx3) (keeps_ite hx3 (State.keeps_count hx3)))

theorem State.keeps_touchMeasured {a : State} {x0} {x1} {x2} {x3} {x4} (hx4 : Keeps a x4) : Keeps a (State.touchMeasured x0 x1 x2 x3 x4) := by
  unfold State.touchMeasured
  extract_lets +onlyGivenNames -merge -useContext -underBinder k_0
  exact keeps_ite hx4 (keeps_ite (State.keeps_discardFrame hx4)
      (by extract_lets +onlyGivenNames -merge -useContext -underBinder s_1; have hs_1 : Keeps a s_1 := (State.keeps_modDesk (State.keeps_count hx4)); clear_value s_1; exact (keeps_ite (State.keeps_firstFrame hs_1) (by extract_lets +onlyGivenNames -merge -useContext -underBinder s_2; have hs_2 : Keeps a s_2 := (State.keeps_modDesk hs_1); clear_value s_2; exact (State.keeps_runFrame hs_2)))))

theorem State.keeps_touchSlot {a : State} {x0} {x1} (hx1 : Keeps a x1) : Keeps a (State.touchSlot x0 x1) := by
  unfold State.touchSlot
  extract_lets +onlyGivenNames -merge -useContext -underBinder new_0
  extract_lets +onlyGivenNames -merge -useContext -underBinder k_1
  exact keeps_ite (keeps_ite hx1 (State.keeps_modDesk (State.keeps_deskState hx1))) (keeps_ite (State.keeps_deskState (State.keeps_modDesk hx1))
      (keeps_ite (State.keeps_modDesk hx1)
      (by extract_lets +onlyGivenNames -merge -useContext -underBinder s_2; have hs_2 : Keeps a s_2 := (keeps_ite (State.keeps_discardFrame hx1) hx1); clear_value s_2; exact (by extract_lets +onlyGivenNames -merge -useContext -underBinder s_3; have hs_3 : Keeps a s_3 := (State.keeps_deskConfig hs_2); clear_value s_3; exact (by extract_lets +onlyGivenNames -merge -useContext -underBinder k_4; exact (by extract_lets +onlyGivenNames -merge -useContext -underBinder skip_5; exact (by extract_lets +onlyGivenNames -merge -useContext -underBinder s_6; have hs_6 : Keeps a s_6 := (State.keeps_modDesk hs_3); clear_value s_6; exact (keeps_ite hs_6 (by extract_lets +onlyGivenNames -merge -useContext -underBinder s_7; have hs_7 : Keeps a s_7 := (State.keeps_modDesk (State.keeps_deskHop hs_6)); clear_value s_7; exact (State.keeps_sendDesk hs_7))))))))))

theorem State.keeps_writeDone {a : State} {x0} {x1} (hx1 : Keeps a x1) : Keeps a (State.writeDone x0 x1) := by
  unfold State.writeDone
  split <;> first | exact hx1 | exact
      (by extract_lets +onlyGivenNames -merge -useContext -underBinder s_0; have hs_0 : Keeps a s_0 := hx1; clear_value s_0; exact (by extract_lets +onlyGivenNames -merge -useContext -underBinder s_1; have hs_1 : Keeps a s_1 := (State.keeps_modDesk hs_0); clear_value s_1; exact (by extract_lets +onlyGivenNames -merge -useContext -underBinder q_2; exact (State.keeps_ok hs_1))))

theorem keeps_cmdTouchBaseline {a : State} {x0} {x1} {x2} {x3} (hx3 : Keeps a x3) : Keeps a (cmdTouchBaseline x0 x1 x2 x3) := by
  unfold cmdTouchBaseline
  exact State.keeps_serve (fun z0 hz0 =>
      (by extract_lets +onlyGivenNames -merge -useContext -underBinder k_1; exact (keeps_ite (State.keeps_refuse hz0) (keeps_ite (State.keeps_modDesk hz0) (State.keeps_startWrite hz0))))) hx3

/-! ### Machine/Network.lean -/

theorem State.keeps_setTpo {a : State} {x0} {x1} {x2} (hx2 : Keeps a x2) : Keeps a (State.setTpo x0 x1 x2) := by
  unfold State.setTpo
  exact hx2

theorem State.keeps_tpoStepped {a : State} {x0} {x1} (hx1 : Keeps a x1) : Keeps a (State.tpoStepped x0 x1) := by
  unfold State.tpoStepped
  exact keeps_foldl0 hx1 (fun z0 z1 hz0 =>
      (by extract_lets +onlyGivenNames -merge -useContext -underBinder c_2; exact (by extract_lets +onlyGivenNames -merge -useContext -underBinder x_3; exact (keeps_ite hz0 (by extract_lets +onlyGivenNames -merge -useContext -underBinder from__4; exact (by extract_lets +onlyGivenNames -merge -useContext -underBinder k_5; exact (by extract_lets +onlyGivenNames -merge -useContext -underBinder s_6; have hs_6 : Keeps a s_6 := (State.keeps_setTpo hz0); clear_value s_6; exact (State.keeps_count hs_6))))))))

theorem State.keeps_reanchor {a : State} {x0} (hx0 : Keeps a x0) : Keeps a (State.reanchor x0) := by
  unfold State.reanchor
  dsimp only
  have h2 : Keeps a { x0 with
      time := { x0.time with resid := 0, pendingSwitch := none }
      raster := { x0.raster with run := false, frame := 0, line := 0, first := firstFrameAfter x0.lay.dev.wallRate x0.wallNs, anchored := true } } :=
    keeps_trans hx0 ⟨⟨rfl, rfl, fun h => by simp at h, ⟨rfl, rfl, rfl, rfl, id⟩, id, fun h => .inl ⟨h, id⟩,
      fun h => { h with line_lt := Nat.zero_lt_succ 4095 }⟩, shown_of_eq rfl⟩
  exact keeps_foldl0 (State.keeps_tpoStepped h2) (fun s x hs => keeps_ite (State.keeps_setTpo hs) hs)

theorem State.keeps_stepDomain {a : State} {x0} {x1} {x2} (hx2 : Keeps a x2) : Keeps a (State.stepDomain x0 x1 x2) := by
  unfold State.stepDomain
  extract_lets +onlyGivenNames -merge -useContext -underBinder u_0
  exact keeps_ite (by extract_lets +onlyGivenNames -merge -useContext -underBinder f_1; have hf_1 : Keeps a f_1.2 := (State.keeps_takeFree hx2); clear_value f_1; exact (State.keeps_modDomain hf_1)) (State.keeps_modDomain hx2)

theorem State.keeps_adjust {a : State} {x0} {x1} {x2} {x3} {x4} (hx4 : Keeps a x4) : Keeps a (State.adjust x0 x1 x2 x3 x4) := by
  unfold State.adjust
  extract_lets +onlyGivenNames -merge -useContext -underBinder again_0
  extract_lets +onlyGivenNames -merge -useContext -underBinder s_1
  have hs_1 : Keeps a s_1 := keeps_ite (State.keeps_modDomain hx4) hx4
  clear_value s_1
  refine keeps_ite hs_1 ?_
  extract_lets +onlyGivenNames -merge -useContext -underBinder s_2
  have hs_2 : Keeps a s_2 := State.keeps_tpoStepped (State.keeps_stepDomain hs_1)
  clear_value s_2
  exact keeps_ite (State.keeps_reanchor hs_2) (keeps_ite hs_2 hs_2)

theorem State.keeps_selectMaster {a : State} {x0} {x1} {x2} (hx2 : Keeps a x2) : Keeps a (State.selectMaster x0 x1 x2) := by
  unfold State.selectMaster
  extract_lets +onlyGivenNames -merge -useContext -underBinder old_0
  refine keeps_ite hx2 ?_
  extract_lets +onlyGivenNames -merge -useContext -underBinder s_1
  have hs_1 : Keeps a s_1 := State.keeps_modDomain hx2
  clear_value s_1
  exact keeps_ite hs_1 (State.keeps_count hs_1)

theorem State.keeps_announceAt {a : State} {x0} {x1} {x2} (hx2 : Keeps a x2) : Keeps a (State.announceAt x0 x1 x2) := by
  unfold State.announceAt
  extract_lets +onlyGivenNames -merge -useContext -underBinder s_0
  have hs_0 : Keeps a s_0 := State.keeps_modDomain (State.keeps_count hx2)
  clear_value s_0
  extract_lets +onlyGivenNames -merge -useContext -underBinder s_1
  have hs_1 : Keeps a s_1 := by
    simp only [s_1]
    split <;> first | exact hs_0 | exact (State.keeps_selectMaster hs_0)
  clear_value s_1
  exact keeps_ite (State.keeps_modDomain hs_1) hs_1

theorem State.keeps_announceRx {a : State} {x0} {x1} (hx1 : Keeps a x1) : Keeps a (State.announceRx x0 x1) := by
  unfold State.announceRx
  split <;> first | exact hx1 | exact (keeps_ite hx1 (State.keeps_announceAt hx1))

theorem State.keeps_masterGone {a : State} {x0} {x1} {x2} (hx2 : Keeps a x2) : Keeps a (State.masterGone x0 x1 x2) := by
  unfold State.masterGone
  extract_lets +onlyGivenNames -merge -useContext -underBinder s_0
  have hs_0 : Keeps a s_0 := State.keeps_modDomain hx2
  clear_value s_0
  refine keeps_ite hs_0 ?_
  split <;> first | exact (State.keeps_selectMaster hs_0) | exact (State.keeps_domainLost hs_0)

theorem State.keeps_announceTimeout {a : State} {x0} {x1} {x2} (hx2 : Keeps a x2) : Keeps a (State.announceTimeout x0 x1 x2) := by
  unfold State.announceTimeout
  extract_lets +onlyGivenNames -merge -useContext -underBinder t_0
  exact keeps_ite hx2 (State.keeps_masterGone hx2)

theorem State.keeps_stamp {a : State} {x0} {x1} (hx1 : Keeps a x1) : Keeps a (State.stamp x0 x1).2 := by
  unfold State.stamp
  extract_lets +onlyGivenNames -merge -useContext -underBinder f_0
  have hf_0 : Keeps a f_0.2 := State.keeps_takeFree hx1
  clear_value f_0
  exact hf_0

theorem State.keeps_delayReqTx {a : State} {x0} {x1} (hx1 : Keeps a x1) : Keeps a (State.delayReqTx x0 x1) := by
  unfold State.delayReqTx
  extract_lets +onlyGivenNames -merge -useContext -underBinder g_0
  extract_lets +onlyGivenNames -merge -useContext -underBinder c_1
  refine keeps_ite hx1 ?_
  extract_lets +onlyGivenNames -merge -useContext -underBinder t_2
  have ht_2 : Keeps a t_2.2 := State.keeps_stamp hx1
  clear_value t_2
  exact State.keeps_send (State.keeps_count (State.keeps_modDomain ht_2))

theorem State.keeps_delayRespAt {a : State} {x0} {x1} {x2} (hx2 : Keeps a x2) : Keeps a (State.delayRespAt x0 x1 x2) := by
  unfold State.delayRespAt
  extract_lets +onlyGivenNames -merge -useContext -underBinder s_0
  have hs_0 : Keeps a s_0 := State.keeps_count hx2
  clear_value s_0
  split <;> first | exact hs_0 | exact (keeps_ite hs_0 (State.keeps_modDomain hs_0))

theorem State.keeps_delayRespRx {a : State} {x0} {x1} (hx1 : Keeps a x1) : Keeps a (State.delayRespRx x0 x1) := by
  unfold State.delayRespRx
  split <;> first | exact hx1 | exact (State.keeps_delayRespAt hx1)

theorem State.keeps_formSample {a : State} {x0} {x1} {x2} {x3} (hx3 : Keeps a x3) : Keeps a (State.formSample x0 x1 x2 x3) := by
  unfold State.formSample
  extract_lets +onlyGivenNames -merge -useContext -underBinder x_0
  split <;> first | exact hx3 | exact (keeps_ite hx3
      (by extract_lets +onlyGivenNames -merge -useContext -underBinder c_1; exact (by extract_lets +onlyGivenNames -merge -useContext -underBinder down_2; exact (by extract_lets +onlyGivenNames -merge -useContext -underBinder up_3; exact (by extract_lets +onlyGivenNames -merge -useContext -underBinder delay_4; exact (by extract_lets +onlyGivenNames -merge -useContext -underBinder o_5; exact (by extract_lets +onlyGivenNames -merge -useContext -underBinder y_6; exact (by extract_lets +onlyGivenNames -merge -useContext -underBinder gone_7; exact (by extract_lets +onlyGivenNames -merge -useContext -underBinder s_8; have hs_8 : Keeps a s_8 := (State.keeps_modDomain hx3); clear_value s_8; exact (State.keeps_count (State.keeps_count hs_8)))))))))))

theorem State.keeps_followUpAt {a : State} {x0} {x1} {x2} (hx2 : Keeps a x2) : Keeps a (State.followUpAt x0 x1 x2) := by
  unfold State.followUpAt
  extract_lets +onlyGivenNames -merge -useContext -underBinder s_0
  have hs_0 : Keeps a s_0 := State.keeps_count hx2
  clear_value s_0
  split <;> first | exact hs_0 | exact (keeps_ite hs_0 (State.keeps_formSample (State.keeps_modDomain hs_0)))

theorem State.keeps_followUpRx {a : State} {x0} {x1} (hx1 : Keeps a x1) : Keeps a (State.followUpRx x0 x1) := by
  unfold State.followUpRx
  split <;> first | exact hx1 | exact (State.keeps_followUpAt hx1)

theorem State.keeps_holdoverExpiry {a : State} {x0} {x1} (hx1 : Keeps a x1) : Keeps a (State.holdoverExpiry x0 x1) := by
  unfold State.holdoverExpiry
  extract_lets +onlyGivenNames -merge -useContext -underBinder x_0
  exact keeps_ite (State.keeps_modDomain hx1) hx1

theorem State.keeps_mgmtDiscard {a : State} {x0} {x1} (hx1 : Keeps a x1) : Keeps a (State.mgmtDiscard x0 x1) := by
  unfold State.mgmtDiscard
  exact keeps_ite (State.keeps_count hx1) hx1

theorem State.keeps_switchTo {a : State} {x0} {x1} (hx1 : Keeps a x1) : Keeps a (State.switchTo x0 x1) := by
  unfold State.switchTo
  extract_lets +onlyGivenNames -merge -useContext -underBinder diff_0
  extract_lets +onlyGivenNames -merge -useContext -underBinder src_1 s_2
  have hs_2 : Keeps a s_2 := hx1
  clear_value s_2
  exact State.keeps_event (State.keeps_count hs_2)

theorem State.keeps_switchLine0 {a : State} {x0} (hx0 : Keeps a x0) : Keeps a (State.switchLine0 x0) := by
  unfold State.switchLine0
  extract_lets +onlyGivenNames -merge -useContext -underBinder pend_0
  extract_lets +onlyGivenNames -merge -useContext -underBinder b_1
  extract_lets +onlyGivenNames -merge -useContext -underBinder src_2 s_3
  have hs_3 : Keeps a s_3 := hx0
  clear_value s_3
  refine keeps_ite (State.keeps_switchTo hs_3) ?_
  extract_lets +onlyGivenNames -merge -useContext -underBinder a_4
  extract_lets +onlyGivenNames -merge -useContext -underBinder o_5
  exact keeps_ite (State.keeps_switchTo hs_3) hs_3

theorem State.keeps_syncAt {a : State} {x0} {x1} {x2} (hx2 : Keeps a x2) : Keeps a (State.syncAt x0 x1 x2) := by
  unfold State.syncAt
  extract_lets +onlyGivenNames -merge -useContext -underBinder s_0
  have hs_0 : Keeps a s_0 := State.keeps_count hx2
  clear_value s_0
  refine keeps_ite hs_0 ?_
  extract_lets +onlyGivenNames -merge -useContext -underBinder t_1
  have ht_1 : Keeps a t_1.2 := State.keeps_stamp hs_0
  clear_value t_1
  extract_lets +onlyGivenNames -merge -useContext -underBinder m_2
  extract_lets +onlyGivenNames -merge -useContext -underBinder s_3
  have hs_3 : Keeps a s_3 := State.keeps_modDomain ht_1
  clear_value s_3
  exact keeps_ite hs_3 (State.keeps_formSample hs_3)

theorem State.keeps_syncRx {a : State} {x0} {x1} (hx1 : Keeps a x1) : Keeps a (State.syncRx x0 x1) := by
  unfold State.syncRx
  split <;> first | exact hx1 | exact (State.keeps_syncAt hx1)

theorem State.keeps_syncTimeout {a : State} {x0} {x1} (hx1 : Keeps a x1) : Keeps a (State.syncTimeout x0 x1) := by
  unfold State.syncTimeout
  extract_lets +onlyGivenNames -merge -useContext -underBinder x_0
  exact keeps_ite hx1 (State.keeps_masterGone hx1)

theorem State.keeps_tpiEdge {a : State} {x0} {x1} {x2} (hx2 : Keeps a x2) : Keeps a (State.tpiEdge x0 x1 x2) := by
  unfold State.tpiEdge
  extract_lets +onlyGivenNames -merge -useContext -underBinder m_0
  extract_lets +onlyGivenNames -merge -useContext -underBinder taken_1
  refine keeps_ite hx2 ?_
  extract_lets +onlyGivenNames -merge -useContext -underBinder last_2
  extract_lets +onlyGivenNames -merge -useContext -underBinder rs_3
  extract_lets +onlyGivenNames -merge -useContext -underBinder soon_4
  refine keeps_ite (State.keeps_count hx2) ?_
  extract_lets +onlyGivenNames -merge -useContext -underBinder src_5 s_6
  have hs_6 : Keeps a s_6 := hx2
  clear_value s_6
  refine keeps_ite (State.keeps_count hs_6) ?_
  extract_lets +onlyGivenNames -merge -useContext -underBinder r_7
  exact hs_6

theorem State.keeps_tpoEdge {a : State} {x0} {x1} (hx1 : Keeps a x1) : Keeps a (State.tpoEdge x0 x1) := by
  unfold State.tpoEdge
  extract_lets +onlyGivenNames -merge -useContext -underBinder c_0
  extract_lets +onlyGivenNames -merge -useContext -underBinder x_1
  extract_lets +onlyGivenNames -merge -useContext -underBinder t_2
  extract_lets +onlyGivenNames -merge -useContext -underBinder now_3
  refine keeps_ite hx1 ?_
  extract_lets +onlyGivenNames -merge -useContext -underBinder emit_4
  have hemit_4 : ∀ y9_0 y9_1, Keeps a y9_1 → Keeps a (emit_4 y9_0 y9_1) := fun z5 z6 hz6 => hz6
  clear_value emit_4
  exact keeps_ite (keeps_ite hx1 (State.keeps_count (hemit_4 _ _ (State.keeps_setTpo hx1)))) (keeps_ite hx1 (hemit_4 _ _ (State.keeps_setTpo hx1)))

theorem State.keeps_tpoStart {a : State} {x0} {x1} (hx1 : Keeps a x1) : Keeps a (State.tpoStart x0 x1) := by
  unfold State.tpoStart
  extract_lets +onlyGivenNames -merge -useContext -underBinder c_0
  refine keeps_ite (State.keeps_setTpo hx1) ?_
  extract_lets +onlyGivenNames -merge -useContext -underBinder k_1
  exact State.keeps_setTpo hx1

theorem keeps_cmdTimeAdjust {a : State} {x0} {x1} {x2} {x3} {x4} {x5} (hx5 : Keeps a x5) : Keeps a (cmdTimeAdjust x0 x1 x2 x3 x4 x5) := by
  unfold cmdTimeAdjust
  refine State.keeps_serve (fun s hs => ?_) hx5
  split
  · exact State.keeps_refuse hs
  · exact State.keeps_ok (State.keeps_adjust hs)

theorem keeps_cmdTimeSwitch {a : State} {x0} {x1} {x2} (hx2 : Keeps a x2) : Keeps a (cmdTimeSwitch x0 x1 x2) := by
  unfold cmdTimeSwitch
  exact State.keeps_serve (fun z0 hz0 => (keeps_ite (State.keeps_ok hz0) (keeps_ite (State.keeps_refuse hz0) (State.keeps_ok hz0)))) hx2

/-! ### Machine/Transaction.lean -/

theorem State.keeps_closeTxn {a : State} {x0} {x1} (hx1 : Keeps a x1) : Keeps a (State.closeTxn x0 x1) := by
  refine keeps_trans hx1 (keeps_stores rfl rfl rfl rfl rfl rfl rfl (fun h => ?_))
  exact ⟨Nat.le_trans (List.length_filter_le _ _) h.opened_le, fun t ht => h.staged_le t (List.mem_filter.1 ht).1, h.versions_le, h.versions_rise, h.recs_le,
    h.line_lt, h.bytes_wf, h.counters_wf, h.counters_le⟩

/-- The versions that a commit adds fit the store where it holds them. -/
theorem commitVersions_fit (s : State) (t : Txn) (fr : Nat) (hr : framesRise s.splice.versions = true) (hl : s.splice.versions.length ≤ 4)
    (hh : s.storeHolds fr (t.staged.map (fun o => o.obj)) = true) :
    (s.commitVersions t fr).length ≤ 4 ∧ framesRise (s.commitVersions t fr) = true := by
  unfold State.commitVersions
  extract_lets objs redo first
  unfold State.storeHolds at hh
  simp only [decide_eq_true_eq] at hh
  have h1 := insertVersion_length first _ hr
  have hfr : first.frame = fr := rfl
  rw [hfr] at h1
  split
  · next hc =>
    simp only [Bool.and_eq_true] at hc
    refine ⟨?_, insertVersion_rise _ _ hr⟩
    have hre : (s.redone fr (t.staged.map fun o => o.obj)).isEmpty = true := hc.1
    simp only [hre, if_true, List.filter_cons, List.filter_nil] at hh
    rw [h1]
    cases hany : s.splice.versions.any (fun v => decide (v.frame = fr)) <;> simp [hany] at hh ⊢ <;> omega
  · next hc =>
    refine ⟨?_, insertVersion_rise _ _ (insertVersion_rise _ _ hr)⟩
    rw [insertVersion_length _ _ (insertVersion_rise _ _ hr), insertVersion_any, h1]
    have hne : decide (first.frame = fr + 1) = false := by simp [hfr]
    simp only [hne, Bool.false_or]
    simp only [Bool.and_eq_true, Bool.not_eq_true', not_and, Bool.not_eq_false] at hc
    cases hre : (s.redone fr (t.staged.map fun o => o.obj)).isEmpty
    · simp only [hre, List.filter_cons, List.filter_nil] at hh
      cases h2 : s.splice.versions.any (fun v => decide (v.frame = fr)) <;> cases h3 : s.splice.versions.any (fun v => decide (v.frame = fr + 1)) <;>
        simp [h2, h3] at hh ⊢ <;> omega
    · have h3 := hc hre
      simp only [hre, if_true, List.filter_cons, List.filter_nil] at hh
      rw [if_pos h3]
      cases h2 : s.splice.versions.any (fun v => decide (v.frame = fr)) <;> simp [h2] at hh ⊢ <;> omega

theorem State.keeps_acceptCommit {a : State} {x0} {x1} {x2} (hh : x2.storeHolds x1 (x0.staged.map (fun o => o.obj)) = true) (hx2 : Keeps a x2) :
    Keeps a (State.acceptCommit x0 x1 x2) := by
  unfold State.acceptCommit
  refine keeps_trans hx2 (keeps_stores rfl rfl rfl rfl rfl rfl rfl (fun h => ?_))
  have hv := commitVersions_fit x2 x0 x1 h.versions_rise h.versions_le hh
  exact ⟨Nat.le_trans (List.length_filter_le _ _) h.opened_le, fun t ht => h.staged_le t (List.mem_filter.1 ht).1, hv.1, hv.2, h.recs_le,
    h.line_lt, h.bytes_wf, h.counters_wf, h.counters_le⟩

/-- A commit that is accepted fits the Splice store. -/
theorem validate_holds {s : State} {t : Txn} {f fr mask : Nat} (h : s.validate t f = .accept fr mask) :
    s.storeHolds fr (t.staged.map (fun o => o.obj)) = true := by
  unfold State.validate at h
  dsimp only at h
  repeat' split at h
  all_goals first | cases h | skip
  all_goals simp_all
theorem State.keeps_endValidation {a : State} {x0} (hx0 : Keeps a x0) : Keeps a (State.endValidation x0) := by
  unfold State.endValidation
  split
  · exact hx0
  · next c f rest _ =>
    dsimp only
    have h1 : Keeps a { x0 with bg := { x0.bg with commit := rest } } := hx0
    split
    · exact State.keeps_refuse h1
    · split
      · exact State.keeps_reply h1
      · next hv => exact State.keeps_reply (State.keeps_acceptCommit (validate_holds hv) h1)

theorem State.keeps_expireTxn {a : State} {x0} {x1} (hx1 : Keeps a x1) : Keeps a (State.expireTxn x0 x1) := by
  unfold State.expireTxn
  split <;> first | exact hx1 | exact (keeps_ite (State.keeps_event (State.keeps_closeTxn hx1)) hx1)

theorem State.keeps_idleCheck {a : State} {x0} (hx0 : Keeps a x0) : Keeps a (State.idleCheck x0) := by
  unfold State.idleCheck
  exact keeps_foldl0 hx0 (fun z0 z1 hz0 => (State.keeps_expireTxn hz0))

theorem State.keeps_reserveTxn {a : State} {x0} (hx0 : Keeps a x0) : Keeps a (State.reserveTxn x0) := by
  unfold State.reserveTxn
  refine keeps_ite hx0 ?_
  extract_lets +onlyGivenNames -merge -useContext -underBinder r_0
  exact State.keeps_writeStart hx0

theorem State.keeps_writeCommitRec {a : State} {x0} (hx0 : Keeps a x0) : Keeps a (State.writeCommitRec x0) := by
  unfold State.writeCommitRec
  extract_lets +onlyGivenNames -merge -useContext -underBinder r_0
  exact hx0

theorem State.keeps_openTxn {a : State} {x0} {x1} (hl : x1.txns.open_.length < 8) (hx1 : Keeps a x1) : Keeps a (State.openTxn x0 x1) := by
  unfold State.openTxn
  extract_lets +onlyGivenNames s1 t
  have h1 : Keeps a s1 := State.keeps_reserveTxn hx1
  have hs : s1.txns.open_ = x1.txns.open_ := by simp only [s1, State.reserveTxn, State.writeStart]; repeat (first | rfl | split)
  refine State.keeps_writeCommitRec (keeps_trans h1 (keeps_stores rfl rfl rfl rfl rfl rfl rfl (fun h => ?_)))
  refine ⟨by simp only [List.length_append, List.length_singleton, hs]; omega, fun u hu => ?_, h.versions_le, h.versions_rise, h.recs_le, h.line_lt,
    h.bytes_wf, h.counters_wf, h.counters_le⟩
  rcases List.mem_append.1 hu with hu | hu
  · exact h.staged_le u hu
  · rw [List.mem_singleton] at hu; subst hu; exact Nat.zero_le _

/-- Staging replaces an object or adds one. -/
theorem putStaged_length (x : Staged) (l : List Staged) :
    (putStaged x l).length = if l.any (fun y => decide (stagedKey y.obj = stagedKey x.obj)) then l.length else l.length + 1 := by
  induction l with
  | nil => rfl
  | cons y t ih =>
    unfold putStaged
    split
    · next h => simp [h]
    · next h => simp only [List.length_cons, ih, List.any_cons, h, decide_false, Bool.false_or]; split <;> rfl

theorem State.keeps_stageInto {a : State} {x0} {x1} {x2}
    (hr : x2.txns.open_.any (fun t => decide (t.id = x0) && !roomFor x1 t) = false) (hx2 : Keeps a x2) : Keeps a (State.stageInto x0 x1 x2) := by
  refine keeps_trans hx2 (keeps_stores rfl rfl rfl rfl rfl rfl rfl (fun h => ?_))
  refine ⟨by simpa [State.stageInto] using h.opened_le, fun t ht => ?_, h.versions_le, h.versions_rise, h.recs_le, h.line_lt, h.bytes_wf, h.counters_wf, h.counters_le⟩
  obtain ⟨u, hu, rfl⟩ := List.mem_map.1 ht
  have hle := h.staged_le u hu
  have hroom := (List.any_eq_false.1 hr) u hu
  split
  · next hid =>
    simp only [hid, decide_true, Bool.true_and, Bool.not_eq_true, Bool.not_eq_false', roomFor, Bool.or_eq_true, decide_eq_true_eq] at hroom
    show (putStaged _ u.staged).length ≤ 4096
    rw [putStaged_length]
    rcases hroom with hroom | hroom
    · split <;> omega
    · rw [if_pos hroom]; exact hle
  · exact hle

theorem State.keeps_txnExpired {a : State} {x0} {x1} (hx1 : Keeps a x1) : Keeps a (State.txnExpired x0 x1) := by
  unfold State.txnExpired
  exact keeps_ite (State.keeps_expireTxn hx1) hx1

theorem keeps_cmdObjectRead {a : State} {x0} {x1} {x2} {x3} {x4} {x5} (hx5 : Keeps a x5) : Keeps a (cmdObjectRead x0 x1 x2 x3 x4 x5) := by
  unfold cmdObjectRead
  refine State.keeps_serve (fun s hs => ?_) hx5
  dsimp only
  split
  · cases ((s.txnOf x0.txn).bind fun t => stagedAs t x1 x3 (s.runFits x0.ch x1 x4)) with
    | none => exact State.keeps_refuse hs
    | some x => exact State.keeps_ok hs
  · exact State.keeps_ok hs

theorem keeps_cmdStage {a : State} {x0} {x1} {x2} {x3} (hx3 : Keeps a x3) : Keeps a (cmdStage x0 x1 x2 x3) := by
  unfold cmdStage
  refine State.keeps_serve (fun s hs => keeps_ite (State.keeps_refuse hs) (keeps_cond (fun _ => State.keeps_refuse hs)
    (fun h => State.keeps_ok (State.keeps_stageInto ?_ hs)))) hx3
  simpa using h

theorem keeps_cmdTxnAbort {a : State} {x0} {x1} (hx1 : Keeps a x1) : Keeps a (cmdTxnAbort x0 x1) := by
  unfold cmdTxnAbort
  exact State.keeps_serve (fun z0 hz0 => (State.keeps_ok (State.keeps_closeTxn hz0))) hx1

theorem keeps_cmdTxnCommit {a : State} {x0} {x1} {x2} (hx2 : Keeps a x2) : Keeps a (cmdTxnCommit x0 x1 x2) := by
  unfold cmdTxnCommit
  exact State.keeps_serve (fun z0 hz0 => hz0) hx2

theorem keeps_cmdTxnOpen {a : State} {x0} {x1} (hx1 : Keeps a x1) : Keeps a (cmdTxnOpen x0 x1) := by
  unfold cmdTxnOpen
  exact State.keeps_serve (fun s hs => keeps_cond (fun _ => State.keeps_refuse hs) (fun h => State.keeps_ok (State.keeps_openTxn (by omega) hs))) hx1

/-! ### Machine/Surface.lean -/

theorem State.keeps_endCopy {a : State} {x0} {x1} {x2} {x3} (hx3 : Keeps a x3) : Keeps a (State.endCopy x0 x1 x2 x3) := by
  unfold State.endCopy
  split <;> first | exact hx3 | exact
      (by extract_lets +onlyGivenNames -merge -useContext -underBinder fb_0; exact (by extract_lets +onlyGivenNames -merge -useContext -underBinder src_1 s'_2; have hs'_2 : Keeps a s'_2 := hx3; clear_value s'_2; exact (keeps_ite hx3 (keeps_ite (State.keeps_refuseInternal (State.keeps_dropBuf hs'_2)) (keeps_ite hx3 (by extract_lets +onlyGivenNames -merge -useContext -underBinder s_3; have hs_3 : Keeps a s_3 := (State.keeps_sealFrame (State.keeps_modBuf hs'_2)); clear_value s_3; exact (State.keeps_reply hs_3)))))))

theorem State.keeps_startCopy {a : State} {x0} {x1} {x2} {x3} {x4} (hx4 : Keeps a x4) : Keeps a (State.startCopy x0 x1 x2 x3 x4) := by
  unfold State.startCopy
  extract_lets +onlyGivenNames -merge -useContext -underBinder o_0
  extract_lets +onlyGivenNames -merge -useContext -underBinder fb_1
  extract_lets +onlyGivenNames -merge -useContext -underBinder s_2
  have hs_2 : Keeps a s_2 := State.keeps_modBuf hx4
  clear_value s_2
  extract_lets +onlyGivenNames -merge -useContext -underBinder k_3
  exact hs_2

theorem keeps_cmdSurfacePublish {a : State} {x0} {x1} {x2} {x3} {x4} {x5} {x6} (hx6 : Keeps a x6) : Keeps a (cmdSurfacePublish x0 x1 x2 x3 x4 x5 x6) := by
  unfold cmdSurfacePublish
  exact State.keeps_serve (fun z0 hz0 => (keeps_ite (State.keeps_refuse hz0)
      (by extract_lets +onlyGivenNames -merge -useContext -underBinder cap_1; exact (by extract_lets +onlyGivenNames -merge -useContext -underBinder early_2; exact (keeps_ite (State.keeps_refuse (State.keeps_countDrop hz0)) (by split <;> first | exact (State.keeps_refuse hz0) | exact (keeps_ite (State.keeps_refuse hz0) (State.keeps_startCopy hz0)))))))) hx6

/-! ### Machine/Packet.lean -/

theorem keeps_runCommand {a : State} {x0} {x1} (hx1 : Keeps a x1) : Keeps a (runCommand x0 x1) := by
  cases x0 with
  | identify => exact keeps_cmdIdentify hx1
  | summary => exact keeps_cmdSummary hx1
  | readLog => exact keeps_cmdReadLog hx1
  | reset => exact keeps_cmdReset hx1
  | clearStartCount => exact keeps_cmdClearStartCount hx1
  | fwBegin => exact keeps_cmdFwBegin hx1
  | fwData => exact keeps_cmdFwData hx1
  | fwEnd => exact keeps_cmdFwEnd hx1
  | memConfig => exact keeps_cmdMemConfig hx1
  | paletteProgram => exact keeps_cmdPaletteProgram hx1
  | txnOpen => exact keeps_cmdTxnOpen hx1
  | txnCommit => exact keeps_cmdTxnCommit hx1
  | txnAbort => exact keeps_cmdTxnAbort hx1
  | objectRead => exact keeps_cmdObjectRead hx1
  | stageDevice => exact keeps_cmdStage hx1
  | stageSource => exact keeps_cmdStage hx1
  | stageFlow => exact keeps_cmdStage hx1
  | stageMac => exact keeps_cmdStage hx1
  | stageDprx => exact keeps_cmdStage hx1
  | stageContext => exact keeps_cmdStage hx1
  | stageHead => exact keeps_cmdStage hx1
  | stageWindow => exact keeps_cmdStage hx1
  | stageEncoder => exact keeps_cmdStage hx1
  | stageGlyphs => exact keeps_cmdStage hx1
  | stageGlyphSet => exact keeps_cmdStage hx1
  | stageAtlas => exact keeps_cmdStage hx1
  | stageColours => exact keeps_cmdStage hx1
  | stageScaler => exact keeps_cmdStage hx1
  | stageDesk => exact keeps_cmdStage hx1
  | stageQuad => exact keeps_cmdStage hx1
  | stageDomain => exact keeps_cmdStage hx1
  | stagePulse => exact keeps_cmdStage hx1
  | stageRegulator => exact keeps_cmdStage hx1
  | stageAccess => exact keeps_cmdStage hx1
  | surfacePublish => exact keeps_cmdSurfacePublish hx1
  | sourceQuery => exact keeps_cmdSourceQuery hx1
  | encQuery => exact keeps_cmdEncQuery hx1
  | pointQuery => exact keeps_cmdPointQuery hx1
  | headQuery => exact keeps_cmdHeadQuery hx1
  | counterRead => exact keeps_cmdCounterRead hx1
  | timeAdjust => exact keeps_cmdTimeAdjust hx1
  | timeSwitch => exact keeps_cmdTimeSwitch hx1
  | timeStatus => exact keeps_cmdTimeStatus hx1
  | whipSet => exact keeps_cmdWhipSet hx1
  | probeSet => exact keeps_cmdProbeSet hx1
  | laneTest => exact keeps_cmdLaneTest hx1
  | touchBaseline => exact keeps_cmdTouchBaseline hx1
  | faultQuery => exact keeps_cmdFaultQuery hx1
  | faultReact => exact keeps_cmdFaultReact hx1
  | faultRearm => exact keeps_cmdFaultRearm hx1
  | unitRestore => exact keeps_cmdUnitRestore hx1
  | debugChallenge => exact keeps_cmdDebugChallenge hx1
  | debugUnlock => exact keeps_cmdDebugUnlock hx1
  | _ => exact hx1

theorem State.keeps_unknownOpcode {a : State} {x0} {x1} {x2} (hx2 : Keeps a x2) : Keeps a (State.unknownOpcode x0 x1 x2) := by
  unfold State.unknownOpcode
  extract_lets +onlyGivenNames -merge -useContext -underBinder k_0
  split <;> first | exact hx2 | exact (State.keeps_refuse hx2) | exact (keeps_ite (State.keeps_refuse (State.keeps_touchTxn hx2))
      (State.keeps_refuse (State.keeps_touchTxn hx2))) | exact (State.keeps_refuse (State.keeps_touchTxn hx2))

theorem State.keeps_runPacket {a : State} {x0} {x1} {x2} {x3} (hx3 : Keeps a x3) : Keeps a (State.runPacket x0 x1 x2 x3) := by
  unfold State.runPacket
  split <;> first | exact (keeps_runCommand hx3) | exact (State.keeps_serve (fun z0 hz0 => hz0) hx3) | exact (State.keeps_unknownOpcode hx3)

/-! ### Machine/Transport.lean -/

theorem State.keeps_writeHeld {a : State} {x0} {x1} {x2} (hx2 : Keeps a x2) : Keeps a (State.writeHeld x0 x1 x2) := by
  induction x1 generalizing x2 with
  | nil => exact State.keeps_setRing hx2
  | cons r t ih =>
    unfold State.writeHeld
    exact keeps_ite (ih (State.keeps_wroteSlots hx2)) (State.keeps_setRing hx2)

theorem State.keeps_ringFault {a : State} {x0} {x1} {x2} (hx2 : Keeps a x2) : Keeps a (State.ringFault x0 x1 x2) := by
  unfold State.ringFault
  exact State.keeps_event (State.keeps_setRing hx2)

theorem State.keeps_takeOne {a : State} {x0} {x1} (hx1 : Keeps a x1) : Keeps a (State.takeOne x0 x1) := by
  unfold State.takeOne
  split
  · split
    · exact hx1
    · exact State.keeps_runPacket (keeps_trans hx1 (keeps_refl _))
  · split
    · exact hx1
    · exact keeps_ite (State.keeps_ringFault hx1) (State.keeps_runPacket (State.keeps_setRing hx1))

theorem State.keeps_drainN {a : State} {x0} {x1} (hx1 : Keeps a x1) : Keeps a (State.drainN x0 x1) := by
  induction x0 generalizing x1 with
  | zero => exact hx1
  | succ n ih =>
    unfold State.drainN
    split
    · exact hx1
    · exact ih (State.keeps_takeOne hx1)

theorem State.keeps_drain {a : State} {x0} (hx0 : Keeps a x0) : Keeps a (State.drain x0) := by
  unfold State.drain
  exact State.keeps_drainN hx0

theorem State.keeps_flushReports {a : State} {x0} {x1} (hx1 : Keeps a x1) : Keeps a (State.flushReports x0 x1) := by
  induction x0 generalizing x1 with
  | zero => exact hx1
  | succ n ih =>
    unfold State.flushReports
    split
    · exact hx1
    · exact keeps_ite (ih (State.keeps_wroteSlots (State.keeps_modDesk hx1))) hx1

theorem State.keeps_flushTouch {a : State} {x0} (hx0 : Keeps a x0) : Keeps a (State.flushTouch x0) := by
  unfold State.flushTouch
  extract_lets +onlyGivenNames -merge -useContext -underBinder s_0
  have hs_0 : Keeps a s_0 := State.keeps_setRing hx0
  clear_value s_0
  exact State.keeps_flushReports hs_0

theorem State.keeps_doorConsumer {a : State} {x0} {x1} {x2} (hx2 : Keeps a x2) : Keeps a (State.doorConsumer x0 x1 x2) := by
  unfold State.doorConsumer
  extract_lets +onlyGivenNames -merge -useContext -underBinder r_0
  extract_lets +onlyGivenNames -merge -useContext -underBinder index_1
  exact keeps_ite hx2 (keeps_ite (State.keeps_ringFault hx2)
      (by extract_lets +onlyGivenNames -merge -useContext -underBinder s_2; have hs_2 : Keeps a s_2 := (State.keeps_setRing hx2); clear_value s_2; exact (keeps_ite (State.keeps_eventsLost (State.keeps_setRing hs_2)) (keeps_ite (State.keeps_flushTouch hs_2) (State.keeps_drain (State.keeps_resetIfDue (State.keeps_writeHeld hs_2)))))))

theorem State.keeps_doorProducer {a : State} {x0} {x1} {x2} {x3} (hx3 : Keeps a x3) : Keeps a (State.doorProducer x0 x1 x2 x3) := by
  unfold State.doorProducer
  extract_lets +onlyGivenNames -merge -useContext -underBinder r_0
  extract_lets +onlyGivenNames -merge -useContext -underBinder index_1
  exact keeps_ite hx3 (keeps_ite (State.keeps_ringFault hx3) (keeps_ite (State.keeps_setRing hx3) (State.keeps_drain (State.keeps_setRing hx3))))

theorem State.keeps_moderationEnd {a : State} {x0} {x1} (hx1 : Keeps a x1) : Keeps a (State.moderationEnd x0 x1) := by
  unfold State.moderationEnd
  extract_lets +onlyGivenNames -merge -useContext -underBinder r_0
  exact keeps_ite (State.keeps_msix (State.keeps_setRing hx1)) (State.keeps_setRing hx1)

theorem State.keeps_orphanAll {a : State} {x0} {x1} (hx1 : Keeps a x1) : Keeps a (State.orphanAll x0 x1) := by
  unfold State.orphanAll
  exact hx1

theorem State.keeps_ringDisable {a : State} {x0} {x1} (hx1 : Keeps a x1) : Keeps a (State.ringDisable x0 x1) := by
  unfold State.ringDisable
  exact keeps_ite (State.keeps_resetIfDue (State.keeps_setRing hx1)) hx1

theorem State.keeps_ringEnable {a : State} {x0} {x1} {x2} (hx2 : Keeps a x2) : Keeps a (State.ringEnable x0 x1 x2) := by
  unfold State.ringEnable
  extract_lets +onlyGivenNames -merge -useContext -underBinder r_0
  refine keeps_ite hx2 ?_
  extract_lets +onlyGivenNames -merge -useContext -underBinder q_1
  extract_lets +onlyGivenNames -merge -useContext -underBinder s_2
  have hs_2 : Keeps a s_2 := State.keeps_hostWrite (State.keeps_orphanAll (State.keeps_setRing hx2))
  clear_value s_2
  exact keeps_ite (State.keeps_ringFault hs_2) (keeps_ite (State.keeps_eventsLost hs_2) (keeps_ite (State.keeps_flushTouch hs_2) hs_2))

theorem State.keeps_ringErrClear {a : State} {x0} {x1} (hx1 : Keeps a x1) : Keeps a (State.ringErrClear x0 x1) := by
  unfold State.ringErrClear
  exact keeps_ite (by extract_lets +onlyGivenNames -merge -useContext -underBinder src_0 s_1; have hs_1 : Keeps a s_1 := (State.keeps_setRing hx1); clear_value s_1; exact (keeps_ite (State.keeps_eventsLost hs_1) (keeps_ite (State.keeps_flushTouch hs_1) hs_1))) hx1

theorem State.keeps_strayWrite {a : State} {x0} {x1} (hx1 : Keeps a x1) : Keeps a (State.strayWrite x0 x1) := by
  unfold State.strayWrite
  exact keeps_ite hx1 (State.keeps_fireAccess hx1)

theorem State.keeps_uartDiscard {a : State} {x0} (hx0 : Keeps a x0) : Keeps a (State.uartDiscard x0) := by
  unfold State.uartDiscard
  exact hx0

theorem State.keeps_uartFrame {a : State} {x0} {x1} (hx1 : Keeps a x1) : Keeps a (State.uartFrame x0 x1) := by
  unfold State.uartFrame
  split <;> first | exact (State.keeps_uartDiscard hx1) | exact (keeps_ite (State.keeps_uartDiscard hx1)
      (by extract_lets +onlyGivenNames -merge -useContext -underBinder w_0; exact (State.keeps_drain hx1)))

theorem State.keeps_writeCtrl {a : State} {x0} {x1} {x2} (hx2 : Keeps a x2) : Keeps a (State.writeCtrl x0 x1 x2) := by
  unfold State.writeCtrl
  extract_lets +onlyGivenNames -merge -useContext -underBinder f_0
  exact keeps_ite (State.keeps_ringEnable hx2) (keeps_ite (State.keeps_ringDisable hx2) (State.keeps_setRing hx2))

theorem State.keeps_writeReg {a : State} {x0} {x1} {x2} {x3} (hx3 : Keeps a x3) : Keeps a (State.writeReg x0 x1 x2 x3) := by
  unfold State.writeReg
  extract_lets +onlyGivenNames -merge -useContext -underBinder r_0
  exact keeps_ite hx3 (keeps_ite (State.keeps_writeCtrl hx3) (keeps_ite (keeps_ite (State.keeps_ringErrClear hx3) hx3) (keeps_ite hx3 (keeps_ite
      (State.keeps_setRing hx3) (keeps_ite (State.keeps_setRing hx3) (keeps_ite (State.keeps_setRing hx3) hx3))))))

/-! ### Machine/Collector.lean -/

theorem State.keeps_bowlineFire {a : State} {x0} {x1} (hx1 : Keeps a x1) : Keeps a (State.bowlineFire x0 x1) := by
  unfold State.bowlineFire
  exact keeps_ite (State.keeps_fireSrc hx1) hx1

theorem State.keeps_dropBackground {a : State} {x0} (hx0 : Keeps a x0) : Keeps a (State.dropBackground x0) := by
  unfold State.dropBackground
  extract_lets +onlyGivenNames -merge -useContext -underBinder s_0
  have hs_0 : Keeps a s_0 := keeps_foldl0 hx0 (fun z1 z2 hz1 => (State.keeps_dropBuf hz1))
  clear_value s_0
  exact hs_0

theorem State.keeps_cleatResumes {a : State} {x0} {x1} (hx1 : Keeps a x1) : Keeps a (State.cleatResumes x0 x1) := by
  unfold State.cleatResumes
  extract_lets +onlyGivenNames -merge -useContext -underBinder l_0
  exact State.keeps_drain (keeps_foldl0 (State.keeps_dropBackground hx1) (fun z1 z2 hz1 => (State.keeps_refuse hz1)))

theorem State.keeps_collectorFail {a : State} {x0} (hx0 : Keeps a x0) : Keeps a (State.collectorFail x0) := by
  unfold State.collectorFail
  refine keeps_ite hx0 ?_
  extract_lets +onlyGivenNames -merge -useContext -underBinder r_0
  extract_lets +onlyGivenNames -merge -useContext -underBinder src_1 src_2 s_3
  have hs_3 : Keeps a s_3 := hx0
  clear_value s_3
  exact State.keeps_enterSafe hs_3

theorem State.keeps_countEcc {a : State} {x0} {x1} (hx1 : Keeps a x1) : Keeps a (State.countEcc x0 x1) := by
  unfold State.countEcc
  exact keeps_ite (State.keeps_count hx1) hx1

theorem State.keeps_kick {a : State} {x0} {x1} (hx1 : Keeps a x1) : Keeps a (State.kick x0 x1) := by
  unfold State.kick
  exact keeps_ite hx1 hx1

theorem State.keeps_restartDone {a : State} {x0} {x1} (hx1 : Keeps a x1) : Keeps a (State.restartDone x0 x1) := by
  unfold State.restartDone
  refine keeps_ite hx1 ?_
  extract_lets +onlyGivenNames -merge -useContext -underBinder src_0 s_1
  have hs_1 : Keeps a s_1 := hx1
  clear_value s_1
  exact keeps_ite (keeps_ite hs_1 (State.keeps_cleatResumes hs_1)) (keeps_ite (State.keeps_dispatch hs_1) hs_1)

theorem State.keeps_sourceFire {a : State} {x0} {x1} (hx1 : Keeps a x1) : Keeps a (State.sourceFire x0 x1) := by
  unfold State.sourceFire
  exact keeps_ite (State.keeps_fire (State.keeps_countEcc hx1)) hx1

theorem State.keeps_wdogExpiry {a : State} {x0} {x1} (hx1 : Keeps a x1) : Keeps a (State.wdogExpiry x0 x1) := by
  unfold State.wdogExpiry
  extract_lets +onlyGivenNames -merge -useContext -underBinder due_0
  exact keeps_ite (State.keeps_fireSrc hx1) hx1

/-! ### Machine/Background.lean -/

theorem State.keeps_finish {a : State} {x0} {x1} (hx0 : ∀ y1_0, Keeps a y1_0 → Keeps a (x0 y1_0)) (hx1 : Keeps a x1) : Keeps a (State.finish x0 x1) := by
  unfold State.finish
  exact keeps_ite (State.keeps_drain (hx0 _ hx1)) hx1

theorem State.keeps_endSaves {a : State} {x0} (hx0 : Keeps a x0) : Keeps a (State.endSaves x0) := by
  unfold State.endSaves
  exact keeps_foldl0 hx0 (fun z0 z1 hz0 => (State.keeps_finish (fun z2 hz2 => (State.keeps_saveStep hz2)) hz0))

theorem State.keeps_fwDataEnd {a : State} {x0} (hx0 : Keeps a x0) : Keeps a (State.fwDataEnd x0) := by
  unfold State.fwDataEnd
  split <;> first | exact hx0 | exact (State.keeps_ok hx0)

theorem State.keeps_zeroFill {a : State} {x0} (hx0 : Keeps a x0) : Keeps a (State.zeroFill x0) := by
  refine keeps_trans hx0 (keeps_stores rfl rfl rfl rfl rfl rfl rfl (fun h => ?_))
  exact ⟨h.opened_le, h.staged_le, h.versions_le, h.versions_rise, h.recs_le, h.line_lt, Tab.wf_filter _ h.bytes_wf, h.counters_wf, h.counters_le⟩

theorem State.keeps_memConfigEnd {a : State} {x0} (hx0 : Keeps a x0) : Keeps a (State.memConfigEnd x0) := by
  unfold State.memConfigEnd
  split <;> first | exact hx0 | exact
      (by extract_lets +onlyGivenNames -merge -useContext -underBinder src_0 src_1 s_2; have hsrc_0 : Keeps a src_0 := (State.keeps_zeroFill hx0); clear_value src_0; have hs_2 : Keeps a s_2 := hsrc_0; clear_value s_2; exact (State.keeps_ok hs_2))

theorem State.keeps_paletteEnd {a : State} {x0} {x1} (hx1 : Keeps a x1) : Keeps a (State.paletteEnd x0 x1) := by
  unfold State.paletteEnd
  split
  · exact hx1
  · extract_lets +onlyGivenNames -merge -useContext -underBinder bad src1 src2 s1
    have h1 : Keeps a s1 := keeps_trans hx1 ⟨⟨rfl, rfl, fun h => ⟨h, rfl, rfl⟩, ⟨rfl, rfl, rfl, rfl, fun _ => rfl⟩, id, fun h => .inl ⟨h, id⟩, id⟩, shown_of_eq rfl⟩
    exact keeps_ite (State.keeps_refuseInternal h1) (State.keeps_ok h1)

theorem State.keeps_touchStep {a : State} {x0} {x1} {x2} {x3} {x4} (hx4 : Keeps a x4) : Keeps a (State.touchStep x0 x1 x2 x3 x4) := by
  unfold State.touchStep
  extract_lets +onlyGivenNames -merge -useContext -underBinder t_0
  have ht_0 : Keeps a t_0 := State.keeps_touchMeasured hx4
  clear_value t_0
  exact keeps_ite (State.keeps_finish (fun z1 hz1 => (State.keeps_saveStep hz1)) ht_0) ht_0

end Sys2Proof.Machine
end

