-- ==== Sys2Proof/Laws/KeepsDevice.lean ====
section
/-! SUPPORT. What the operations of the start, decoding, points, the TAP, the commit line and the wall clock keep. -/

namespace Sys2Proof.Machine

open Sys2Proof

set_option Elab.async false

/-! ### Machine/Boot.lean -/

theorem State.keeps_setStep {a : State} {x0} {x1 : State} (h2 : a.boot.step ≤ 2 → x0 ≤ 2) (hn : ¬a.Settled) (hx1 : Keeps a x1) :
    Keeps a (State.setStep x0 x1) := by
  obtain ⟨⟨h1, h3, h4, h5, h6, h7, h8⟩, h9⟩ := hx1
  exact ⟨⟨h1, h3, h4, h5, h2, fun h => absurd h hn, h8⟩, h9⟩

theorem State.keeps_beginStart {a : State} {x0} (hx0 : Keeps a x0) : Keeps a (State.beginStart x0) := by
  unfold State.beginStart
  refine keeps_cond (fun h => keeps_trans hx0 (State.keeps_setStep (fun _ => Nat.le_refl 2) ?_ (keeps_refl _))) (fun _ => hx0)
  simp only [Bool.and_eq_true, decide_eq_true_eq] at h
  rintro ⟨h11, _⟩
  omega

theorem State.keeps_startQuads {a : State} {x0} {x1} (hx1 : Keeps a x1) : Keeps a (State.startQuads x0 x1) := by
  unfold State.startQuads
  exact keeps_foldl0 hx1 (fun z0 z1 hz0 => (State.keeps_setPll hz0))

theorem State.keeps_bootComplete {a : State} {x0} (hx0 : Keeps a x0) : Keeps a (State.bootComplete x0) := by
  unfold State.bootComplete
  refine keeps_cond (fun _ => hx0) (fun h => keeps_trans hx0 ?_)
  simp only [Bool.or_eq_true, decide_eq_true_eq, not_or, ne_eq, not_not] at h
  have hdev : x0.dev = .starting := h.1.1
  have hn : ¬x0.Settled := by rintro ⟨_, _, hd⟩; rw [hdev] at hd; simp at hd
  extract_lets +onlyGivenNames -merge -useContext -underBinder quads s1
  have h1 : Keeps x0 s1 := State.keeps_setStartCount (keeps_refl x0)
  clear_value s1
  dsimp only
  refine State.keeps_setDev (.inr hn) (State.keeps_restLanes (State.keeps_startQuads (keeps_foldl0 ?_ (fun s x hs => State.keeps_allocSource hs))))
  obtain ⟨⟨k1, k2, k3, k4, k5, k6, k7⟩, k8⟩ := h1
  refine ⟨⟨k1, k2, fun hr => by simp at hr, k4, fun hs => by omega, fun hs => absurd hs hn, fun hs => ?_⟩, k8⟩
  have ht := k7 hs
  exact ⟨ht.opened_le, ht.staged_le, ht.versions_le, ht.versions_rise, ht.recs_le, Nat.zero_lt_succ 4095, ht.bytes_wf, ht.counters_wf, ht.counters_le⟩

theorem State.keeps_changeOver {a : State} {x0} {x1} (hx1 : Keeps a x1) : Keeps a (State.changeOver x0 x1) := by
  cases x0 with
  | pllTime =>
    refine keeps_trans hx1 ⟨⟨rfl, rfl, ?_, ⟨rfl, rfl, rfl, rfl, id⟩, id, fun h => .inl ⟨h, id⟩, id⟩, shown_of_eq rfl⟩
    simp [State.changeOver]
  | pllMem =>
    refine keeps_trans hx1 (keeps_stores rfl rfl rfl rfl rfl rfl rfl (fun h => ?_))
    exact ⟨h.opened_le, h.staged_le, h.versions_le, h.versions_rise, h.recs_le, h.line_lt, rfl, h.counters_wf, h.counters_le⟩
  | pllPix => exact keeps_foldl0 (f := fun u (e : Nat × HeadRt) => State.rescaleStrobe e.1 u) hx1 (fun z2 z3 hz2 => State.keeps_rescaleStrobe hz2)
  | _ => exact hx1

theorem State.keeps_enterRecovery {a : State} {x0} {x1 : State} (hn : ¬a.Settled) (hx1 : Keeps a x1) : Keeps a (State.enterRecovery x0 x1) := by
  unfold State.enterRecovery
  extract_lets +onlyGivenNames -merge -useContext keep src1 src2 s1
  have h1 : Keeps a s1 := by
    obtain ⟨⟨h1, h3, h4, h5, h6, h7, h8⟩, h9⟩ := hx1
    exact ⟨⟨h1, h3, h4, h5, fun h => Nat.le_trans (Nat.min_le_left _ _) (h6 h), fun h => absurd h hn, h8⟩, h9⟩
  exact State.keeps_setDev (.inr hn) h1

theorem State.keeps_failStart {a : State} {x0} (hx0 : Keeps a x0) : Keeps a (State.failStart x0) := by
  unfold State.failStart
  exact hx0

theorem State.keeps_fuseRequest {a : State} {x0} (hx0 : Keeps a x0) : Keeps a (State.fuseRequest x0) := by
  unfold State.fuseRequest
  split
  · exact hx0
  · refine keeps_ite ?_ hx0
    exact keeps_trans hx0 ⟨⟨rfl, rfl, fun h => ⟨h, rfl, rfl⟩, ⟨rfl, rfl, rfl, rfl, id⟩, id, fun h => .inl ⟨h, id⟩, id⟩, shown_of_eq rfl⟩

theorem State.keeps_hostLink {a : State} {x0} (hx0 : Keeps a x0) : Keeps a (State.hostLink x0) := by
  unfold State.hostLink
  exact State.keeps_setPll (State.keeps_setPll hx0)

theorem State.keeps_releaseProcs {a : State} {x0} {x1} {x2 : State} (h8 : x2.boot.step = 8) (hx2 : Keeps a x2) : Keeps a (State.releaseProcs x0 x1 x2) := by
  unfold State.releaseProcs
  extract_lets +onlyGivenNames s
  have hs : Keeps a s := keeps_ite (State.keeps_hostLink hx2) hx2
  have h : s.boot.step = 8 := by simp only [s]; split <;> exact h8
  clear_value s
  refine State.keeps_fuseRequest ?_
  exact keeps_trans hs (keeps_starting rfl rfl (fun h => ⟨h, rfl, rfl⟩) rfl (by omega) (.inl (by omega)) id)

theorem State.keeps_chooseImage {a : State} {x0} {x1 : State} (h8 : x1.boot.step = 8) (hx1 : Keeps a x1) : Keeps a (State.chooseImage x0 x1) := by
  unfold State.chooseImage
  split
  · split
    · exact State.keeps_releaseProcs h8 hx1
    · exact State.keeps_failStart hx1
  · exact keeps_ite (keeps_trans hx1 (State.keeps_enterRecovery (fun hs => by have := hs.1; omega) (keeps_refl _)))
      (keeps_ite (State.keeps_releaseProcs h8 hx1) (State.keeps_failStart hx1))

theorem State.keeps_countLatches {a : State} {x0} (hx0 : Keeps a x0) : Keeps a (State.countLatches x0) := by
  unfold State.countLatches
  extract_lets +onlyGivenNames -merge -useContext -underBinder bad_0
  extract_lets +onlyGivenNames -merge -useContext -underBinder srcs_1
  extract_lets +onlyGivenNames -merge -useContext -underBinder s_2
  have hs_2 : Keeps a s_2 := keeps_foldl0 hx0 (fun z3 z4 hz3 => (State.keeps_faultCapture (State.keeps_faultCount hz3)))
  clear_value s_2
  extract_lets +onlyGivenNames -merge -useContext -underBinder src_5 s_6
  have hs_6 : Keeps a s_6 := keeps_ite hs_2 hs_2
  clear_value s_6
  extract_lets +onlyGivenNames -merge -useContext -underBinder s_7
  have hs_7 : Keeps a s_7 := keeps_ite (State.keeps_faultCount hs_6) hs_6
  clear_value s_7
  extract_lets +onlyGivenNames -merge -useContext -underBinder src_8 s_9
  have hs_9 : Keeps a s_9 := hs_7
  clear_value s_9
  exact keeps_ite (State.keeps_fireSrc hs_9) hs_9

theorem State.keeps_stepFive {a : State} {x0 : State} (h4 : x0.boot.step = 4) (hx0 : Keeps a x0) : Keeps a (State.stepFive x0) := by
  refine keeps_trans hx0 ?_
  have hn : ¬x0.Settled := by rintro ⟨h, _⟩; omega
  have h1 : Keeps x0 (State.countLatches
      { x0 with bk := { x0.bk with bootId := (x0.bk.bootId + 1) % 4294967296 }, boot := { x0.boot with step := 6 } }) :=
    State.keeps_countLatches (keeps_starting rfl rfl (fun h => ⟨h, rfl, rfl⟩) rfl (fun h => by omega) (.inl (by omega)) id)
  unfold State.stepFive
  dsimp only
  exact keeps_ite (keeps_ite h1 (State.keeps_enterRecovery hn h1)) h1

theorem State.keeps_enableClock {a : State} {x0} {x1} (hx1 : Keeps a x1) : Keeps a (State.enableClock x0 x1) := by
  unfold State.enableClock
  exact keeps_ite hx1 hx1

theorem State.keeps_clockSteps {a : State} {x0} (hx0 : Keeps a x0) : Keeps a (State.clockSteps x0) := by
  refine keeps_trans hx0 ?_
  have h0 := keeps_refl x0
  unfold State.clockSteps
  refine keeps_cond (fun _ => ?_) (fun _ => keeps_cond (fun h => ?_) (fun _ => keeps_cond (fun h => ?_) (fun _ => h0)))
  · extract_lets +onlyGivenNames s
    have hs : Keeps x0 s := keeps_ite (State.keeps_enableClock h0) h0
    clear_value s
    exact keeps_ite (State.keeps_hostLink hs) hs
  · simp only [Bool.and_eq_true, decide_eq_true_eq] at h
    refine keeps_ite (State.keeps_enableClock h0) ?_
    exact State.keeps_setStep (by omega) (fun hs => by have := hs.1; omega) (keeps_foldl0 h0 (fun s x hs => State.keeps_enableClock hs))
  · simp only [Bool.and_eq_true, decide_eq_true_eq] at h
    exact State.keeps_setStep (by omega) (fun hs => by have := hs.1; omega) (keeps_ite h0 (State.keeps_hostLink h0))

theorem State.keeps_clockPasses {a : State} {x0} {x1} (hx1 : Keeps a x1) : Keeps a (State.clockPasses x0 x1) := by
  unfold State.clockPasses
  refine keeps_ite hx1 ?_
  have h1 : Keeps a { x1 with clk := { x1.clk with stable := x0 :: x1.clk.stable } } := hx1
  refine keeps_cond (fun h => State.keeps_stepFive ?_ h1) (fun _ => State.keeps_clockSteps h1)
  simp only [Bool.and_eq_true, decide_eq_true_eq] at h
  exact h.2

theorem State.keeps_clockStable {a : State} {x0} {x1} {x2} (hx2 : Keeps a x2) : Keeps a (State.clockStable x0 x1 x2) := by
  unfold State.clockStable
  exact keeps_ite (State.keeps_clockPasses hx2) hx2

theorem State.keeps_unstable {a : State} {x0} {x1} (hx1 : Keeps a x1) : Keeps a (State.unstable x0 x1) := by
  unfold State.unstable
  exact hx1

theorem State.keeps_disableClock {a : State} {x0} {x1} (hx1 : Keeps a x1) : Keeps a (State.disableClock x0 x1) := by
  unfold State.disableClock
  extract_lets +onlyGivenNames -merge -useContext -underBinder s_0
  have hs_0 : Keeps a s_0 := State.keeps_unstable hx1
  clear_value s_0
  exact hs_0

theorem State.keeps_fioFails {a : State} {x0 : State} (h : x0.boot.step ≠ 11) (hx0 : Keeps a x0) : Keeps a (State.fioFails x0) :=
  keeps_trans hx0 (keeps_starting rfl rfl (fun h => ⟨h, rfl, rfl⟩) rfl id (.inl h) id)

theorem State.keeps_clockTimeout {a : State} {x0} {x1} {x2} (hx2 : Keeps a x2) : Keeps a (State.clockTimeout x0 x1 x2) := by
  unfold State.clockTimeout
  exact keeps_ite hx2 (keeps_ite (State.keeps_clockPasses hx2) (keeps_cond (fun h => keeps_ite (State.keeps_fioFails (by omega) hx2) hx2)
    (fun _ => keeps_ite (State.keeps_failStart hx2) (keeps_ite (State.keeps_disableClock hx2) hx2))))

theorem State.keeps_failedStart {a : State} {x0} (hx0 : Keeps a x0) : Keeps a (State.failedStart x0) := by
  unfold State.failedStart
  exact keeps_ite (State.keeps_chipReset hx0) hx0

theorem State.keeps_fioRetry {a : State} {x0} (hx0 : Keeps a x0) : Keeps a (State.fioRetry x0) := by
  unfold State.fioRetry
  refine keeps_cond (fun _ => hx0) (fun h => ?_)
  simp only [Bool.not_eq_true', Bool.not_eq_false] at h
  refine keeps_ite (keeps_trans hx0 (State.keeps_enterRecovery (fun hs => by have := hs.2.1; rw [h] at this; cases this) (keeps_refl _)))
    (State.keeps_enableClock ?_)
  exact keeps_trans hx0 (keeps_starting rfl rfl (fun h => ⟨h, rfl, rfl⟩) rfl id (.inr (.inl h)) id)

theorem State.keeps_strapMeasure {a : State} {x0} {x1} (hx1 : Keeps a x1) : Keeps a (State.strapMeasure x0 x1) := by
  unfold State.strapMeasure
  split <;> first | exact hx1

/-- FUSE_LOAD_DONE does nothing but in the fuse load; there it keeps what a start past it would keep. -/
theorem State.keeps_fuseLoad (bad readings : List Nat) (s : State) :
    s.fuseLoad bad readings = s ∨ (s.dev = .starting ∧ Keeps { s with boot := { s.boot with step := 3 } } (s.fuseLoad bad readings)) := by
  by_cases h : (s.dev ≠ .starting || s.boot.step ≠ 2 || s.boot.failed) = true
  · left; unfold State.fuseLoad; rw [if_pos h]
  · right
    have hdev : s.dev = .starting := by
      simp only [Bool.or_eq_true, decide_eq_true_eq, not_or, ne_eq, not_not] at h; exact h.1.1
    refine ⟨hdev, ?_⟩
    unfold State.fuseLoad
    rw [if_neg h]
    generalize hb : ({ s with boot := { s.boot with step := 3 } } : State) = b
    have hn : ¬b.Settled := by rw [← hb]; rintro ⟨h3, _⟩; cases h3
    have h3 : b.boot.step = 3 := by rw [← hb]
    have k0 : ∀ (bk : Backup) (f : Fuses) (bt : Boot), f.fieldLocked = s.fuses.fieldLocked → f.dieId = s.fuses.dieId → f.pinFactory = s.fuses.pinFactory →
        f.paletteFactory = s.fuses.paletteFactory → f.paletteProgrammed = s.fuses.paletteProgrammed →
        Keeps b { s with bk := bk, fuses := f, boot := bt } := by
      intro bk f bt g1 g2 g3 g4 g5
      subst hb
      exact ⟨⟨rfl, rfl, fun h => ⟨h, rfl, rfl⟩, ⟨g1, g2, g3, g4, fun h => g5 ▸ h⟩, fun h => by simp at h, fun h => absurd h hn, id⟩, shown_of_eq rfl⟩
    dsimp only
    refine keeps_ite (State.keeps_enterRecovery hn (k0 _ s.fuses s.boot rfl rfl rfl rfl rfl))
      (keeps_ite (State.keeps_failStart (k0 _ s.fuses s.boot rfl rfl rfl rfl rfl)) ?_)
    generalize hv : State.enableClock .fio (State.enableClock .xa _) = v
    have h5 : Keeps b v := hv ▸ State.keeps_enableClock (State.keeps_enableClock (k0 _ _ _ rfl rfl rfl rfl rfl))
    have h6 : Keeps b (if v.boot.afterPor then v.strapMeasure readings else v) := keeps_ite (State.keeps_strapMeasure h5) h5
    exact keeps_ite (State.keeps_enterRecovery hn h6) h6

theorem State.keeps_gaspDone {a : State} {x0} (hx0 : Keeps a x0) : Keeps a (State.gaspDone x0) := by
  unfold State.gaspDone
  split <;> first | exact hx0

theorem State.keeps_imageLoad {a : State} {x0} {x1} (hx1 : Keeps a x1) : Keeps a (State.imageLoad x0 x1) := by
  unfold State.imageLoad
  refine keeps_cond (fun _ => hx1) (fun h => ?_)
  simp only [Bool.or_eq_true, decide_eq_true_eq, not_or, ne_eq, not_not] at h
  refine keeps_ite (keeps_trans hx1 (State.keeps_enterRecovery (fun hs => by have := hs.1; omega) (keeps_refl _)))
    (State.keeps_chooseImage ?_ (State.keeps_setStartCount hx1))
  have h8 := h.1.2
  simp only [State.setStartCount, State.writeStart]
  repeat (first | exact h8 | split)

theorem State.keeps_memTrained {a : State} {x0} {x1} (hx1 : Keeps a x1) : Keeps a (State.memTrained x0 x1) := by
  unfold State.memTrained
  refine keeps_cond (fun _ => hx1) (fun h => ?_)
  simp only [Bool.or_eq_true, decide_eq_true_eq, not_or, ne_eq, not_not] at h
  have h9 : x1.boot.step = 9 := h.1.2
  extract_lets +onlyGivenNames bad
  refine keeps_ite ?_ (keeps_foldl0 (State.keeps_failStart hx1) (fun s x hs => State.keeps_fireSrc hs))
  refine keeps_trans hx1 (keeps_starting rfl rfl (fun h => ⟨h, rfl, rfl⟩) rfl (by omega) (.inl (by omega)) (fun h => ?_))
  exact ⟨h.opened_le, h.staged_le, h.versions_le, h.versions_rise, h.recs_le, h.line_lt, rfl, h.counters_wf, h.counters_le⟩

theorem State.keeps_monitorFail {a : State} {x0} {x1} {x2} (hx2 : Keeps a x2) : Keeps a (State.monitorFail x0 x1 x2) := by
  unfold State.monitorFail
  refine keeps_cond (fun h => keeps_ite (State.keeps_fioFails ?_ hx2) hx2) (fun _ => keeps_ite hx2 ?_)
  · simp only [Bool.and_eq_true, decide_eq_true_eq] at h
    omega
  · exact State.keeps_fireSrc (State.keeps_changeOver (State.keeps_unstable (x0 := x1) hx2))

theorem State.keeps_onClock {a : State} {x0} {x1} {x2} (hx1 : ∀ y2_0 y2_1, Keeps a y2_1 → Keeps a (x1 y2_0 y2_1)) (hx2 : Keeps a x2) : Keeps a (State.onClock x0 x1 x2) := by
  unfold State.onClock
  split <;> first | exact hx2 | exact (hx1 _ _ hx2)

theorem State.keeps_perst {a : State} {x0} (hx0 : Keeps a x0) : Keeps a (State.perst x0) := by
  unfold State.perst
  exact hx0

theorem State.keeps_porRelease {a : State} {x0} (hx0 : Keeps a x0) : Keeps a (State.porRelease x0) := by
  unfold State.porRelease
  refine keeps_ite hx0 ?_
  extract_lets +onlyGivenNames -merge -useContext -underBinder src s1
  have h1 : Keeps a s1 := hx0
  exact State.keeps_beginStart (State.keeps_resetTo (Nat.zero_le 2) h1)

theorem State.keeps_powerBack {a : State} {x0} (hx0 : Keeps a x0) : Keeps a (State.powerBack x0) := by
  unfold State.powerBack
  exact hx0

theorem State.keeps_powerOff {a : State} {x0} (hx0 : Keeps a x0) : Keeps a (State.powerOff x0) :=
  keeps_trans hx0 ⟨⟨rfl, rfl, fun h => by simp [State.powerOff, State.reset] at h, ⟨rfl, rfl, rfl, rfl, id⟩, fun _ => Nat.zero_le _,
    fun _ => .inr (Nat.zero_le _), fun _ => sound_empty 0 (by decide)⟩, shown_nil⟩

theorem State.keeps_stopSaves {a : State} {x0} (hx0 : Keeps a x0) : Keeps a (State.stopSaves x0) := by
  unfold State.stopSaves
  extract_lets +onlyGivenNames -merge -useContext -underBinder t_0
  have ht_0 : Keeps a t_0 := hx0
  clear_value t_0
  exact keeps_foldl0 ht_0 (fun z1 z2 hz1 => (by split <;> first | exact hz1 | exact (State.keeps_refuse (State.keeps_modDesk hz1))))

theorem State.keeps_powerWarn {a : State} {x0} (hx0 : Keeps a x0) : Keeps a (State.powerWarn x0) := by
  unfold State.powerWarn
  refine keeps_ite hx0 ?_
  extract_lets +onlyGivenNames -merge -useContext -underBinder s_0
  have hs_0 : Keeps a s_0 := State.keeps_stopSaves (State.keeps_fireSrc hx0)
  clear_value s_0
  exact hs_0

theorem State.keeps_tearPalette {a : State} {x0} (hx0 : Keeps a x0) : Keeps a (State.tearPalette x0) := by
  unfold State.tearPalette
  refine keeps_ite ?_ hx0
  exact keeps_trans hx0 ⟨⟨rfl, rfl, fun h => ⟨h, rfl, rfl⟩, ⟨rfl, rfl, rfl, rfl, fun _ => rfl⟩, id, fun h => .inl ⟨h, id⟩, id⟩, shown_of_eq rfl⟩

theorem State.keeps_railTrip {a : State} {x0} {x1} (hx1 : Keeps a x1) : Keeps a (State.railTrip x0 x1) := by
  unfold State.railTrip
  have ht : Keeps a x1.tearPalette := State.keeps_tearPalette hx1
  refine keeps_ite hx1 (keeps_ite ?_ ?_)
  · dsimp only
    have h1 : Keeps a (if x1.pins.vddFuse then x1.tearPalette else x1) := keeps_ite ht hx1
    exact h1
  · dsimp only
    exact keeps_ite (State.keeps_powerOff ht) (keeps_ite ht (State.keeps_resetTo (Nat.zero_le 2) ht))

theorem State.keeps_resetAssert {a : State} {x0} (hx0 : Keeps a x0) : Keeps a (State.resetAssert x0) := by
  unfold State.resetAssert
  refine keeps_ite hx0 ?_
  have h1 : Keeps a (x0.resetTo .pin 0) := State.keeps_resetTo (Nat.zero_le 2) hx0
  exact h1

theorem State.keeps_resetRelease {a : State} {x0} (hx0 : Keeps a x0) : Keeps a (State.resetRelease x0) := by
  unfold State.resetRelease
  extract_lets +onlyGivenNames -merge -useContext -underBinder src_0 d_1
  exact State.keeps_beginStart hx0

theorem State.keeps_startTimeout {a : State} {x0} (hx0 : Keeps a x0) : Keeps a (State.startTimeout x0) := by
  unfold State.startTimeout
  exact keeps_ite (State.keeps_failStart hx0) hx0

theorem State.keeps_supplyRelease {a : State} {x0} (hx0 : Keeps a x0) : Keeps a (State.supplyRelease x0) := by
  unfold State.supplyRelease
  exact keeps_ite hx0 (State.keeps_beginStart hx0)

/-! ### Machine/Decoding.lean -/

theorem State.keeps_outputPic {a : State} {x0} {x1} {x2} (hx2 : Keeps a x2) : Keeps a (State.outputPic x0 x1 x2) := by
  unfold State.outputPic
  extract_lets +onlyGivenNames cfg i b
  cases b with
  | none => exact hx2
  | some b =>
    dsimp only
    exact State.keeps_makeReady (State.keeps_modCtx (keeps_ite (State.keeps_count (State.keeps_modBuf hx2)) (State.keeps_modBuf hx2)))

theorem State.keeps_outputPics {a : State} {x0} {x1} {x2} {x3} (hx3 : Keeps a x3) : Keeps a (State.outputPics x0 x1 x2 x3) := by
  induction x2 generalizing x3 with
  | zero => exact hx3
  | succ n ih =>
    unfold State.outputPics
    dsimp only
    refine keeps_ite hx3 ?_
    split
    · exact hx3
    · exact ih (State.keeps_outputPic hx3)

theorem State.keeps_pictureDone {a : State} {x0} {x1} {x2} {x3} {x4} {x5} {x6} (hx6 : Keeps a x6) : Keeps a (State.pictureDone x0 x1 x2 x3 x4 x5 x6) := by
  unfold State.pictureDone
  extract_lets +onlyGivenNames -merge -useContext -underBinder codec_0
  extract_lets +onlyGivenNames -merge -useContext -underBinder late_1
  extract_lets +onlyGivenNames -merge -useContext -underBinder s_2
  have hs_2 : Keeps a s_2 := State.keeps_count (State.keeps_count hx6)
  clear_value s_2
  extract_lets +onlyGivenNames -merge -useContext -underBinder s_3
  have hs_3 : Keeps a s_3 := keeps_ite (State.keeps_count hs_2) hs_2
  clear_value s_3
  extract_lets +onlyGivenNames -merge -useContext -underBinder s_4
  have hs_4 : Keeps a s_4 := State.keeps_modCtx hs_3
  clear_value s_4
  extract_lets +onlyGivenNames -merge -useContext -underBinder s_5
  have hs_5 : Keeps a s_5 := keeps_ite (State.keeps_outputPics hs_4) hs_4
  clear_value s_5
  extract_lets +onlyGivenNames -merge -useContext -underBinder rt_6
  extract_lets +onlyGivenNames -merge -useContext -underBinder gone_7
  extract_lets +onlyGivenNames -merge -useContext -underBinder planes_8
  extract_lets +onlyGivenNames -merge -useContext -underBinder map_9
  extract_lets +onlyGivenNames -merge -useContext -underBinder s_10
  have hs_10 : Keeps a s_10 := State.keeps_modCtx hs_5
  clear_value s_10
  extract_lets +onlyGivenNames -merge -useContext -underBinder s_11
  have hs_11 : Keeps a s_11 := keeps_ite (State.keeps_modCtx hs_10) hs_10
  clear_value s_11
  extract_lets +onlyGivenNames -merge -useContext -underBinder s_12
  have hs_12 : Keeps a s_12 := State.keeps_modCtx hs_11
  clear_value s_12
  extract_lets +onlyGivenNames -merge -useContext -underBinder s_13
  have hs_13 : Keeps a s_13 := State.keeps_outputPics hs_12
  clear_value s_13
  extract_lets +onlyGivenNames -merge -useContext -underBinder s_14
  have hs_14 : Keeps a s_14 := State.keeps_modCtx hs_13
  clear_value s_14
  extract_lets +onlyGivenNames -merge -useContext -underBinder s_15
  have hs_15 : Keeps a s_15 := State.keeps_modEngine hs_14
  clear_value s_15
  extract_lets +onlyGivenNames -merge -useContext -underBinder s_16
  have hs_16 : Keeps a s_16 := keeps_ite (State.keeps_ctxWaitIrap hs_15) hs_15
  clear_value s_16
  exact State.keeps_dispatch (keeps_alarmUpdate (State.keeps_ctxSettle (State.keeps_saveCtx hs_16)))

theorem State.keeps_restoreFail {a : State} {x0} {x1} {x2} {x3} (hx3 : Keeps a x3) : Keeps a (State.restoreFail x0 x1 x2 x3) := by
  unfold State.restoreFail
  extract_lets +onlyGivenNames -merge -useContext -underBinder s_0
  have hs_0 : Keeps a s_0 := State.keeps_count (State.keeps_modEngine hx3)
  clear_value s_0
  extract_lets +onlyGivenNames -merge -useContext -underBinder s_1
  have hs_1 : Keeps a s_1 := State.keeps_unreadPic hs_0
  clear_value s_1
  extract_lets +onlyGivenNames -merge -useContext -underBinder s_2
  have hs_2 : Keeps a s_2 := State.keeps_ctxSettle (State.keeps_ctxWaitIrap hs_1)
  clear_value s_2
  extract_lets +onlyGivenNames -merge -useContext -underBinder src_3 s_4
  have hs_4 : Keeps a s_4 := keeps_ite (keeps_boundCheck hs_2) hs_2
  clear_value s_4
  exact State.keeps_fireSrc (State.keeps_dispatch (keeps_alarmUpdate hs_4))

theorem State.keeps_decodeComplete {a : State} {x0} {x1} {x2} (hx2 : Keeps a x2) : Keeps a (State.decodeComplete x0 x1 x2) := by
  unfold State.decodeComplete
  split <;> first | exact hx2 | exact (keeps_ite hx2 (keeps_ite (State.keeps_restoreFail hx2) (State.keeps_pictureDone hx2)))

theorem State.keeps_decodeOverrun {a : State} {x0} {x1} {x2} (hx2 : Keeps a x2) : Keeps a (State.decodeOverrun x0 x1 x2) := by
  unfold State.decodeOverrun
  split <;> first | exact hx2 | exact (keeps_ite hx2 (State.keeps_pictureDone hx2))

theorem State.keeps_poolFreed {a : State} {x0} {x1} (hx1 : Keeps a x1) : Keeps a (State.poolFreed x0 x1) := by
  unfold State.poolFreed
  refine keeps_ite hx1 ?_
  extract_lets +onlyGivenNames -merge -useContext -underBinder rt_0
  extract_lets +onlyGivenNames -merge -useContext -underBinder s_1
  have hs_1 : Keeps a s_1 := State.keeps_outputPics hx1
  clear_value s_1
  exact keeps_ite (State.keeps_dispatch hs_1) hs_1

/-! ### Machine/Points.lean -/

theorem State.keeps_applyRecord {a : State} {x0} {x1} {x2} {x3} {x4} (hx4 : Keeps a x4) : Keeps a (State.applyRecord x0 x1 x2 x3 x4) := by
  unfold State.applyRecord
  refine keeps_ite (State.keeps_count hx4) ?_
  extract_lets +onlyGivenNames -merge -useContext -underBinder s_0
  have hs_0 : Keeps a s_0 := keeps_ite (State.keeps_count hx4) hx4
  clear_value s_0
  exact keeps_ite (by extract_lets +onlyGivenNames -merge -useContext -underBinder e_1; exact hs_0) (State.keeps_count hs_0)

theorem State.keeps_fetchSlot {a : State} {x0} (hx0 : Keeps a x0) : Keeps a (State.fetchSlot x0) := by
  unfold State.fetchSlot
  extract_lets +onlyGivenNames -merge -useContext -underBinder r_0
  exact State.keeps_setRing hx0

theorem State.keeps_hostSlot {a : State} {x0} {x1} (hx1 : Keeps a x1) : Keeps a (State.hostSlot x0 x1) := by
  unfold State.hostSlot
  extract_lets +onlyGivenNames -merge -useContext -underBinder q_0
  extract_lets +onlyGivenNames -merge -useContext -underBinder recs_1
  refine keeps_ite hx1 ?_
  extract_lets +onlyGivenNames -merge -useContext -underBinder s_2
  have hs_2 : Keeps a s_2 := State.keeps_fetchSlot hx1
  clear_value s_2
  exact keeps_ite (State.keeps_count hs_2) (keeps_foldl0 hs_2 (fun z3 z4 hz3 => (State.keeps_applyRecord hz3)))

theorem State.keeps_modOverlay {a : State} {x0} {x1} {x2} (hx2 : Keeps a x2) : Keeps a (State.modOverlay x0 x1 x2) := by
  unfold State.modOverlay
  exact hx2

theorem State.keeps_overlayBegin {a : State} {x0} {x1} {x2} {x3} (hx3 : Keeps a x3) : Keeps a (State.overlayBegin x0 x1 x2 x3) := by
  unfold State.overlayBegin
  extract_lets +onlyGivenNames -merge -useContext -underBinder i_0
  extract_lets +onlyGivenNames -merge -useContext -underBinder c_1
  refine keeps_ite hx3 ?_
  split <;> first | exact (State.keeps_count hx3) | exact
      (by extract_lets +onlyGivenNames -merge -useContext -underBinder fb_2; exact (by extract_lets +onlyGivenNames -merge -useContext -underBinder d_3; exact (State.keeps_modOverlay (State.keeps_modBuf hx3))))

theorem State.keeps_overlayDone {a : State} {x0} {x1} {x2} (hx2 : Keeps a x2) : Keeps a (State.overlayDone x0 x1 x2) := by
  unfold State.overlayDone
  split <;> first | exact hx2 | exact (keeps_ite hx2
      (by extract_lets +onlyGivenNames -merge -useContext -underBinder i_0; exact (by extract_lets +onlyGivenNames -merge -useContext -underBinder l_1; exact (by extract_lets +onlyGivenNames -merge -useContext -underBinder gs_2; exact (by extract_lets +onlyGivenNames -merge -useContext -underBinder s_3; have hs_3 : Keeps a s_3 := (State.keeps_modBuf hx2); clear_value s_3; exact (by extract_lets +onlyGivenNames -merge -useContext -underBinder s_4; have hs_4 : Keeps a s_4 := (State.keeps_modOverlay hs_3); clear_value s_4; exact (by extract_lets +onlyGivenNames -merge -useContext -underBinder f_5; exact (by extract_lets +onlyGivenNames -merge -useContext -underBinder s_6; have hs_6 : Keeps a s_6 := (keeps_ite hs_4 (State.keeps_count hs_4)); clear_value s_6; exact (by extract_lets +onlyGivenNames -merge -useContext -underBinder s_7; have hs_7 : Keeps a s_7 := (State.keeps_setCounter hs_6); clear_value s_7; exact (by extract_lets +onlyGivenNames -merge -useContext -underBinder s_8; have hs_8 : Keeps a s_8 := (State.keeps_setCounter hs_7); clear_value s_8; exact (State.keeps_sealFrame hs_8)))))))))))

theorem State.keeps_overlayWindowEnd {a : State} {x0} {x1} (hx1 : Keeps a x1) : Keeps a (State.overlayWindowEnd x0 x1) := by
  unfold State.overlayWindowEnd
  split <;> first | exact hx1 | exact (keeps_ite hx1 (State.keeps_count (State.keeps_modOverlay hx1)))

theorem State.keeps_takeDatagram {a : State} {x0} {x1} {x2} {x3} (hx3 : Keeps a x3) : Keeps a (State.takeDatagram x0 x1 x2 x3) := by
  unfold State.takeDatagram
  extract_lets +onlyGivenNames -merge -useContext -underBinder p_0
  exact keeps_ite (State.keeps_count hx3) (keeps_ite (State.keeps_count hx3) (keeps_ite (State.keeps_count hx3)
      (by extract_lets +onlyGivenNames -merge -useContext -underBinder a_1; exact (by extract_lets +onlyGivenNames -merge -useContext -underBinder src_2 s_3; have hs_3 : Keeps a s_3 := (State.keeps_count hx3); clear_value s_3; exact (by extract_lets +onlyGivenNames -merge -useContext -underBinder s_4; have hs_4 : Keeps a s_4 := (State.keeps_count hs_3); clear_value s_4; exact (by extract_lets +onlyGivenNames -merge -useContext -underBinder s_5; have hs_5 : Keeps a s_5 := (keeps_ite (State.keeps_count hs_4) hs_4); clear_value s_5; exact (keeps_foldl0 hs_5 (fun z6 z7 hz6 => (State.keeps_applyRecord hz6)))))))))

theorem State.keeps_pointDatagram {a : State} {x0} {x1} (hx1 : Keeps a x1) : Keeps a (State.pointDatagram x0 x1) := by
  unfold State.pointDatagram
  refine keeps_ite hx1 ?_
  split <;> first | exact hx1 | exact (keeps_ite hx1 (State.keeps_takeDatagram (State.keeps_count hx1)))

/-! ### Machine/Ports.lean -/

theorem State.keeps_setCdr {a : State} {x0} {x1} {x2} (hx2 : Keeps a x2) : Keeps a (State.setCdr x0 x1 x2) := by
  unfold State.setCdr
  exact keeps_foldl0 hx2 (fun z0 z1 hz0 => (State.keeps_modLane hz0))

theorem State.keeps_dprxUp {a : State} {x0} {x1} (hx1 : Keeps a x1) : Keeps a (State.dprxUp x0 x1) := by
  unfold State.dprxUp
  extract_lets +onlyGivenNames -merge -useContext -underBinder c_0
  extract_lets +onlyGivenNames -merge -useContext -underBinder lns_1
  exact keeps_ite (State.keeps_setCdr hx1) hx1

theorem State.keeps_ethDown {a : State} {x0} {x1} (hx1 : Keeps a x1) : Keeps a (State.ethDown x0 x1) := by
  unfold State.ethDown
  extract_lets +onlyGivenNames -merge -useContext -underBinder c_0
  exact keeps_ite (State.keeps_setCdr (State.keeps_macDown hx1)) hx1

theorem State.keeps_ethUp {a : State} {x0} {x1} (hx1 : Keeps a x1) : Keeps a (State.ethUp x0 x1) := by
  unfold State.ethUp
  extract_lets +onlyGivenNames -merge -useContext -underBinder c_0
  exact keeps_ite (State.keeps_setCdr hx1) hx1

/-! ### Machine/Tap.lean -/

theorem State.keeps_barWrite {a : State} {x0} {x1} {x2} (hx2 : Keeps a x2) : Keeps a (State.barWrite x0 x1 x2) := by
  unfold State.barWrite
  exact keeps_foldl0 hx2 (fun z0 z1 hz0 =>
      (by extract_lets +onlyGivenNames -merge -useContext -underBinder block_2; exact (by extract_lets +onlyGivenNames -merge -useContext -underBinder page_3; exact (by extract_lets +onlyGivenNames -merge -useContext -underBinder s_4; have hs_4 : Keeps a s_4 := (keeps_foldl0 hz0 (fun z5 z6 hz5 => (keeps_ite (State.keeps_writeReg hz5) hz5))); clear_value s_4; exact (by extract_lets +onlyGivenNames -merge -useContext -underBinder s_7; have hs_7 : Keeps a s_7 := (keeps_ite (State.keeps_doorProducer hs_4) hs_4); clear_value s_7; exact (keeps_ite (State.keeps_doorConsumer hs_7) hs_7))))))

theorem State.keeps_busWrite {a : State} {x0} {x1} {x2} (hx2 : Keeps a x2) : Keeps a (State.busWrite x0 x1 x2) := by
  unfold State.busWrite
  exact keeps_ite (keeps_ite (State.keeps_barWrite hx2) hx2) (State.keeps_pokeBytes hx2)

theorem State.keeps_tap {a : State} {x0} {x1} (hx1 : Keeps a x1) : Keeps a (State.tap x0 x1) := by
  unfold State.tap
  exact keeps_ite hx1 hx1

theorem State.keeps_debugAccess {a : State} {x0} {x1} (hx1 : Keeps a x1) : Keeps a (State.debugAccess x0 x1) := by
  unfold State.debugAccess
  refine keeps_ite hx1 ?_
  extract_lets +onlyGivenNames -merge -useContext -underBinder s_0
  have hs_0 : Keeps a s_0 := State.keeps_tap hx1
  clear_value s_0
  extract_lets +onlyGivenNames -merge -useContext -underBinder r_1
  have hr_1 : Keeps a r_1.2 := State.keeps_access hs_0
  clear_value r_1
  extract_lets +onlyGivenNames -merge -useContext -underBinder s_2
  have hs_2 : Keeps a s_2 := hr_1
  clear_value s_2
  exact keeps_ite (State.keeps_tap hs_2) (keeps_ite (State.keeps_busWrite hs_2) (State.keeps_tap hs_2))

theorem State.keeps_haltRefused {a : State} {x0} (hx0 : Keeps a x0) : Keeps a (State.haltRefused x0) := by
  unfold State.haltRefused
  exact State.keeps_fireAccess (State.keeps_tap hx0)

theorem State.keeps_debugHalt {a : State} {x0} {x1} {x2} (hx2 : Keeps a x2) : Keeps a (State.debugHalt x0 x1 x2) := by
  unfold State.debugHalt
  refine keeps_ite hx2 ?_
  extract_lets +onlyGivenNames -merge -useContext -underBinder s_0
  have hs_0 : Keeps a s_0 := State.keeps_tap hx2
  clear_value s_0
  refine keeps_ite (State.keeps_haltRefused hs_0) ?_
  split <;> first | exact (State.keeps_haltRefused hs_0) | exact (State.keeps_tap hs_0) | exact hs_0 | exact
      (by extract_lets +onlyGivenNames -merge -useContext -underBinder s_1; have hs_1 : Keeps a s_1 := (State.keeps_tap hs_0); clear_value s_1; exact (keeps_ite (State.keeps_drain hs_1) (State.keeps_dispatch hs_1)))

theorem State.keeps_takePins {a : State} {x0} {x1} (hx1 : Keeps a x1) : Keeps a (State.takePins x0 x1) := by
  unfold State.takePins
  exact State.keeps_tap hx1

/-! ### Machine/Apply.lean -/

theorem State.keeps_appliedNow {a : State} {x0} (hx0 : Keeps a x0) : Keeps a (State.appliedNow x0) := by
  unfold State.appliedNow
  extract_lets +onlyGivenNames -merge -useContext -underBinder done_0
  extract_lets +onlyGivenNames -merge -useContext -underBinder src_1 s_2
  have hs_2 : Keeps a s_2 := hx0
  clear_value s_2
  exact keeps_foldl0 hs_2 (fun z3 z4 hz3 => (State.keeps_event hz3))

theorem State.keeps_applyContext {a : State} {x0} {x1} (hx1 : Keeps a x1) : Keeps a (State.applyContext x0 x1) := by
  unfold State.applyContext
  extract_lets +onlyGivenNames -merge -useContext -underBinder new_0
  refine keeps_ite (keeps_ite (State.keeps_modCtx hx1) hx1) ?_
  extract_lets +onlyGivenNames -merge -useContext -underBinder s_1
  have hs_1 : Keeps a s_1 := keeps_ite hx1 (State.keeps_ctxSettle hx1)
  clear_value s_1
  exact keeps_ite hs_1 (State.keeps_modCtx hs_1)

theorem State.keeps_applyEncoder {a : State} {x0} {x1} {x2} (hx2 : Keeps a x2) : Keeps a (State.applyEncoder x0 x1 x2) := by
  unfold State.applyEncoder
  extract_lets +onlyGivenNames -merge -useContext -underBinder new_0
  exact keeps_ite (State.keeps_modEnc hx2) (State.keeps_encSettle hx2)

theorem State.keeps_applyCodecs {a : State} {x0} {x1} {x2} {x3} (hx3 : Keeps a x3) : Keeps a (State.applyCodecs x0 x1 x2 x3) := by
  unfold State.applyCodecs
  extract_lets +onlyGivenNames -merge -useContext -underBinder s_0
  have hs_0 : Keeps a s_0 := keeps_foldl0 hx3 (fun z1 z2 hz1 => (State.keeps_applyContext hz1))
  clear_value s_0
  extract_lets +onlyGivenNames -merge -useContext -underBinder s_3
  have hs_3 : Keeps a s_3 := keeps_foldl0 hs_0 (fun z4 z5 hz4 => (State.keeps_applyEncoder hz4))
  clear_value s_3
  extract_lets +onlyGivenNames -merge -useContext -underBinder s_6
  have hs_6 : Keeps a s_6 := keeps_ite (State.keeps_encRebind hs_3) hs_3
  clear_value s_6
  exact State.keeps_dispatch (keeps_alarmUpdate (State.keeps_releaseAll hs_6))

theorem State.keeps_applyDomain {a : State} {x0} {x1} {x2} (hx2 : Keeps a x2) : Keeps a (State.applyDomain x0 x1 x2) := by
  unfold State.applyDomain
  exact keeps_ite (State.keeps_modDomain hx2) hx2

theorem State.keeps_dropFrames {a : State} {x0} {x1} {x2} (hx2 : Keeps a x2) : Keeps a (State.dropFrames x0 x1 x2) := by
  unfold State.dropFrames
  extract_lets +onlyGivenNames -merge -useContext -underBinder s_0
  have hs_0 : Keeps a s_0 := keeps_ite (keeps_foldl0 hx2 (fun z1 z2 hz1 =>
      (by split <;> first | exact hz1 | exact (State.keeps_countDrop (State.keeps_dropBuf hz1))))) hx2
  clear_value s_0
  exact State.keeps_modFlow hs_0

theorem State.keeps_applyFlow {a : State} {x0} {x1} {x2} (hx2 : Keeps a x2) : Keeps a (State.applyFlow x0 x1 x2) := by
  unfold State.applyFlow
  extract_lets +onlyGivenNames -merge -useContext -underBinder a_0
  extract_lets +onlyGivenNames -merge -useContext -underBinder b_1
  extract_lets +onlyGivenNames -merge -useContext -underBinder cut_2
  extract_lets +onlyGivenNames -merge -useContext -underBinder s_3
  have hs_3 : Keeps a s_3 := keeps_ite (State.keeps_dropFrames hx2) hx2
  clear_value s_3
  exact keeps_ite hs_3 (State.keeps_modFlow hs_3)

theorem State.keeps_applyGroups {a : State} {x0} {x1} (hx1 : Keeps a x1) : Keeps a (State.applyGroups x0 x1) := by
  unfold State.applyGroups
  extract_lets +onlyGivenNames -merge -useContext -underBinder multi_0
  extract_lets +onlyGivenNames -merge -useContext -underBinder same_1
  extract_lets +onlyGivenNames -merge -useContext -underBinder fresh_2
  extract_lets +onlyGivenNames -merge -useContext -underBinder gone_3
  extract_lets +onlyGivenNames -merge -useContext -underBinder s_4
  have hs_4 : Keeps a s_4 := keeps_foldl0 hx1 (fun z5 z6 hz5 => (keeps_ite (State.keeps_send hz5) hz5))
  clear_value s_4
  exact keeps_foldl0 hs_4 (fun z7 z8 hz7 => (keeps_ite (State.keeps_send hz7) hz7))

theorem State.keeps_applyMac {a : State} {x0} {x1} {x2} (hx2 : Keeps a x2) : Keeps a (State.applyMac x0 x1 x2) := by
  unfold State.applyMac
  extract_lets +onlyGivenNames -merge -useContext -underBinder a_0
  extract_lets +onlyGivenNames -merge -useContext -underBinder b_1
  exact keeps_ite (State.keeps_macDown hx2) hx2

theorem State.keeps_applyPort {a : State} {x0} {x1} {x2} (hx2 : Keeps a x2) : Keeps a (State.applyPort x0 x1 x2) := by
  unfold State.applyPort
  extract_lets +onlyGivenNames -merge -useContext -underBinder a_0
  extract_lets +onlyGivenNames -merge -useContext -underBinder b_1
  extract_lets +onlyGivenNames -merge -useContext -underBinder r_2
  extract_lets +onlyGivenNames -merge -useContext -underBinder moved_3
  extract_lets +onlyGivenNames -merge -useContext -underBinder s_4
  have hs_4 : Keeps a s_4 := keeps_ite (State.keeps_modDprx
      (by split <;> first | exact (State.keeps_countDrop (State.keeps_dropBuf hx2)) | exact hx2)) hx2
  clear_value s_4
  extract_lets +onlyGivenNames -merge -useContext -underBinder s_5
  have hs_5 : Keeps a s_5 := keeps_ite (State.keeps_dprxDown hs_4) hs_4
  clear_value s_5
  exact keeps_ite (State.keeps_modDprx hs_5) hs_5

theorem State.keeps_dropWaiting {a : State} {x0} {x1} (hx1 : Keeps a x1) : Keeps a (State.dropWaiting x0 x1) := by
  unfold State.dropWaiting
  exact State.keeps_modSrc (keeps_foldl0 hx1 (fun z0 z1 hz0 => (State.keeps_sentPic (State.keeps_countDrop (State.keeps_dropBuf hz0)))))

theorem State.keeps_applySource {a : State} {x0} {x1} {x2} {x3} (hx3 : Keeps a x3) : Keeps a (State.applySource x0 x1 x2 x3) := by
  unfold State.applySource
  extract_lets +onlyGivenNames -merge -useContext -underBinder a_0
  extract_lets +onlyGivenNames -merge -useContext -underBinder b_1
  exact keeps_ite hx3 (keeps_ite (State.keeps_releaseBufs (State.keeps_allocSource (State.keeps_modSrc (State.keeps_dropWaiting hx3))))
      (keeps_ite (State.keeps_releaseBufs (State.keeps_modSrc (State.keeps_dropWaiting hx3))) (keeps_ite (State.keeps_allocSource hx3) hx3)))

theorem State.keeps_applyIngest {a : State} {x0} {x1} {x2} (hx2 : Keeps a x2) : Keeps a (State.applyIngest x0 x1 x2) := by
  unfold State.applyIngest
  extract_lets +onlyGivenNames -merge -useContext -underBinder s_0
  have hs_0 : Keeps a s_0 := keeps_foldl0 hx2 (fun z1 z2 hz1 => (State.keeps_applyFlow hz1))
  clear_value s_0
  extract_lets +onlyGivenNames -merge -useContext -underBinder s_3
  have hs_3 : Keeps a s_3 := keeps_foldl0 hs_0 (fun z4 z5 hz4 => (State.keeps_applyPort hz4))
  clear_value s_3
  extract_lets +onlyGivenNames -merge -useContext -underBinder s_6
  have hs_6 : Keeps a s_6 := keeps_foldl0 hs_3 (fun z7 z8 hz7 => (State.keeps_applyMac hz7))
  clear_value s_6
  extract_lets +onlyGivenNames -merge -useContext -underBinder s_9
  have hs_9 : Keeps a s_9 := keeps_foldl0 hs_6 (fun z10 z11 hz10 => (State.keeps_applySource hz10))
  clear_value s_9
  exact State.keeps_applyGroups hs_9

theorem State.keeps_applyQuad {a : State} {x0} {x1} {x2} (hx2 : Keeps a x2) : Keeps a (State.applyQuad x0 x1 x2) := by
  unfold State.applyQuad
  extract_lets +onlyGivenNames -merge -useContext -underBinder a_0
  extract_lets +onlyGivenNames -merge -useContext -underBinder b_1
  exact keeps_ite hx2 (keeps_ite (keeps_foldl0 (State.keeps_setPll hx2) (fun z2 z3 hz2 => (State.keeps_modLane hz2))) (State.keeps_setPll hx2))

theorem State.keeps_applyTests {a : State} {x0} {x1} {x2} (hx2 : Keeps a x2) : Keeps a (State.applyTests x0 x1 x2) := by
  unfold State.applyTests
  extract_lets +onlyGivenNames -merge -useContext -underBinder lanes_0
  exact keeps_ite (by extract_lets +onlyGivenNames -merge -useContext -underBinder rate_1; exact (by extract_lets +onlyGivenNames -merge -useContext -underBinder s_2; have hs_2 : Keeps a s_2 := (State.keeps_endLaneTests hx2); clear_value s_2; exact (keeps_ite (State.keeps_setPll hs_2) hs_2))) hx2

theorem State.keeps_applyPulse {a : State} {x0} {x1} {x2} (hx2 : Keeps a x2) : Keeps a (State.applyPulse x0 x1 x2) := by
  unfold State.applyPulse
  exact keeps_ite hx2 (State.keeps_tpoStart hx2)

theorem State.keeps_applyLinks {a : State} {x0} {x1} (hx1 : Keeps a x1) : Keeps a (State.applyLinks x0 x1) := by
  unfold State.applyLinks
  extract_lets +onlyGivenNames -merge -useContext -underBinder s_0
  have hs_0 : Keeps a s_0 := keeps_foldl0 hx1 (fun z1 z2 hz1 => (State.keeps_applyTests (State.keeps_applyQuad hz1)))
  clear_value s_0
  extract_lets +onlyGivenNames -merge -useContext -underBinder s_3
  have hs_3 : Keeps a s_3 := State.keeps_restLanes hs_0
  clear_value s_3
  extract_lets +onlyGivenNames -merge -useContext -underBinder s_4
  have hs_4 : Keeps a s_4 := keeps_foldl0 hs_3 (fun z5 z6 hz5 => (State.keeps_applyDomain hz5))
  clear_value s_4
  exact keeps_foldl0 hs_4 (fun z7 z8 hz7 => (State.keeps_applyPulse hz7))

theorem State.keeps_applyRebase {a : State} {x0} {x1} {x2} {x3} (hx2 : Keeps a x2) : Keeps a (State.applyRebase x0 x1 x2 x3) := by
  unfold State.applyRebase
  refine keeps_ite hx2 ?_
  extract_lets +onlyGivenNames -merge -useContext -underBinder b_0
  exact keeps_ite hx2 (keeps_ite (State.keeps_modSrc hx2) (State.keeps_moveSource hx2))

theorem State.keeps_applyReserve {a : State} {x0} {x1} (hx1 : Keeps a x1) : Keeps a (State.applyReserve x0 x1) := by
  unfold State.applyReserve
  extract_lets +onlyGivenNames -merge -useContext -underBinder srcs_0
  exact keeps_ite (keeps_foldl0 hx1 (fun z1 z2 hz1 => (keeps_ite hz1 (keeps_ite (State.keeps_modSrc hz1) (State.keeps_moveSource hz1)))))
      (keeps_ite (keeps_foldl0 hx1 (fun z3 z4 hz3 => (keeps_ite (State.keeps_allocSource hz3) hz3))) hx1)

theorem State.keeps_takeSet {a : State} {x0} {x1} {x2} (hx2 : Keeps a x2) : Keeps a (State.takeSet x0 x1 x2) := by
  refine keeps_trans hx2 (keeps_stores rfl rfl rfl rfl rfl rfl rfl (fun h => ?_))
  exact ⟨h.opened_le, h.staged_le, Nat.le_trans (List.length_filter_le _ _) h.versions_le, framesRise_filter _ _ h.versions_rise, h.recs_le,
    h.line_lt, h.bytes_wf, h.counters_wf, h.counters_le⟩

theorem State.keeps_setDevice {a : State} {x0} (hx0 : Keeps a x0) : Keeps a (State.setDevice x0) := by
  unfold State.setDevice
  refine keeps_cond (fun h => State.keeps_setDev (.inl ⟨?_, fun hs => by simp [hs] at h⟩) hx0) (fun _ => keeps_cond (fun h => ?_) (fun _ => hx0))
  · split <;> simp
  · exact State.keeps_setDev (.inl ⟨by simp, fun hs => by simp [hs] at h⟩) hx0

theorem State.keeps_applySet {a : State} {x0} {x1} {x2} (hx2 : Keeps a x2) : Keeps a (State.applySet x0 x1 x2) := by
  unfold State.applySet
  refine keeps_ite hx2 ?_
  extract_lets +onlyGivenNames -merge -useContext -underBinder old_0
  extract_lets +onlyGivenNames -merge -useContext -underBinder s_1
  have hs_1 : Keeps a s_1 := State.keeps_appliedNow (State.keeps_setDevice (State.keeps_takeSet hx2))
  clear_value s_1
  extract_lets +onlyGivenNames -merge -useContext -underBinder s_2
  have hs_2 : Keeps a s_2 := keeps_ite (State.keeps_writeCommitRec hs_1) hs_1
  clear_value s_2
  extract_lets +onlyGivenNames -merge -useContext -underBinder s_3
  have hs_3 : Keeps a s_3 := State.keeps_applyReserve (State.keeps_applyLinks (State.keeps_applyIngest hs_2))
  clear_value s_3
  extract_lets +onlyGivenNames -merge -useContext -underBinder s_4
  have hs_4 : Keeps a s_4 := keeps_foldl0 hs_3 (fun z5 z6 hz5 => (State.keeps_applyRebase hz5))
  clear_value s_4
  exact State.keeps_applyCodecs hs_4

/-! ### Machine/Wall.lean -/

theorem State.keeps_armSigs {a : State} {x0} (hx0 : Keeps a x0) : Keeps a (State.armSigs x0) := by
  unfold State.armSigs
  generalize (List.range 8).foldl _ _ = t
  exact hx0

theorem State.keeps_cleatLine0 {a : State} {x0} (hx0 : Keeps a x0) : Keeps a (State.cleatLine0 x0) := by
  unfold State.cleatLine0
  exact keeps_ite (State.keeps_wallSnapshot hx0) hx0

theorem State.keeps_forgetTime {a : State} {x0} (hx0 : Keeps a x0) : Keeps a (State.forgetTime x0) := by
  unfold State.forgetTime
  extract_lets +onlyGivenNames -merge -useContext -underBinder s_0
  have hs_0 : Keeps a s_0 := keeps_foldl0 hx0 (fun z1 z2 hz1 => (keeps_ite (State.keeps_headOff hz1) hz1))
  clear_value s_0
  exact hs_0

theorem State.keeps_frameStart {a : State} {x0} {x1} {x2} {x3} {x4} {x5} {x6} (hx6 : Keeps a x6) : Keeps a (State.frameStart x0 x1 x2 x3 x4 x5 x6) := by
  unfold State.frameStart
  exact State.keeps_headStart (keeps_ite (State.keeps_unfence hx6) hx6)

theorem State.keeps_headsOff {a : State} {x0} {x1} {x2} (hx2 : Keeps a x2) : Keeps a (State.headsOff x0 x1 x2) := by
  unfold State.headsOff
  exact keeps_foldl0 hx2 (fun z0 z1 hz0 => (keeps_ite (State.keeps_headOff (State.keeps_headStarted hz0)) hz0))

theorem State.keeps_headsStart {a : State} {x0} {x1} {x2} {x3} (hx3 : Keeps a x3) : Keeps a (State.headsStart x0 x1 x2 x3) := by
  unfold State.headsStart
  exact keeps_foldl0 hx3 (fun z0 z1 hz0 => (keeps_ite (State.keeps_frameStart hz0) hz0))

theorem State.keeps_rebase {a : State} {x0} {x1} {x2} (hx2 : Keeps a x2) : Keeps a (State.rebase x0 x1 x2) := by
  unfold State.rebase
  refine keeps_ite hx2 ?_
  extract_lets +onlyGivenNames charged items r
  have hr : Keeps a r.2 := keeps_foldl2 hx2 (fun s x hs => by
    dsimp only
    split
    · exact State.keeps_count (a := a) (x4 := { s.2 with splice := { s.2.splice with wantRebase := insertSorted x s.2.splice.wantRebase } }) hs
    · exact State.keeps_count hs)
  exact keeps_ite hr (State.keeps_modChan hr)

theorem State.keeps_hotspot {a : State} {x0} {x1} {x2} {x3} {x4} {x5} (hx5 : Keeps a x5) : Keeps a (State.hotspot x0 x1 x2 x3 x4 x5) := by
  unfold State.hotspot
  extract_lets +onlyGivenNames -merge -useContext -underBinder s_0
  have hs_0 : Keeps a s_0 := State.keeps_event (State.keeps_modChan hx5)
  clear_value s_0
  exact State.keeps_rebase (State.keeps_fireSrc hs_0)

theorem State.keeps_judgeOcc {a : State} {x0} {x1} {x2} {x3} (hx2 : Keeps a x2) : Keeps a (State.judgeOcc x0 x1 x2 x3) := by
  unfold State.judgeOcc
  extract_lets +onlyGivenNames -merge -useContext -underBinder live_0
  extract_lets +onlyGivenNames -merge -useContext -underBinder sum_1
  extract_lets +onlyGivenNames -merge -useContext -underBinder occ_2
  extract_lets +onlyGivenNames -merge -useContext -underBinder hot_3
  extract_lets +onlyGivenNames -merge -useContext -underBinder s_4
  have hs_4 : Keeps a s_4 := State.keeps_modChan hx2
  clear_value s_4
  extract_lets +onlyGivenNames -merge -useContext -underBinder r_5
  extract_lets +onlyGivenNames -merge -useContext -underBinder s_6
  have hs_6 : Keeps a s_6 := keeps_ite (State.keeps_setCounter hs_4) hs_4
  clear_value s_6
  exact keeps_ite (State.keeps_hotspot hs_6) hs_6

theorem State.keeps_overlaysBegin {a : State} {x0} {x1} {x2} (hx2 : Keeps a x2) : Keeps a (State.overlaysBegin x0 x1 x2) := by
  unfold State.overlaysBegin
  exact keeps_foldl0 hx2 (fun z0 z1 hz0 => (keeps_ite (State.keeps_overlayBegin hz0) hz0))

theorem State.keeps_patternSeal {a : State} {x0} {x1} {x2} (hx2 : Keeps a x2) : Keeps a (State.patternSeal x0 x1 x2) := by
  unfold State.patternSeal
  extract_lets +onlyGivenNames -merge -useContext -underBinder i_0
  refine keeps_ite hx2 ?_
  split <;> first | exact (State.keeps_countDrop hx2) | exact
      (by extract_lets +onlyGivenNames -merge -useContext -underBinder p_1; exact (by extract_lets +onlyGivenNames -merge -useContext -underBinder t_2; exact (by extract_lets +onlyGivenNames -merge -useContext -underBinder fb_3; exact (State.keeps_sealFrame (State.keeps_modBuf hx2)))))

theorem State.keeps_portNote {a : State} {x0} {x1} (hx1 : Keeps a x1) : Keeps a (State.portNote x0 x1) := by
  unfold State.portNote
  exact State.keeps_count (State.keeps_count (State.keeps_count hx1))

theorem State.keeps_refreshCheck {a : State} {x0} {x1} (hx1 : Keeps a x1) : Keeps a (State.refreshCheck x0 x1) := by
  unfold State.refreshCheck
  exact keeps_ite hx1 (keeps_foldl0 hx1 (fun z0 z1 hz0 =>
      (by extract_lets +onlyGivenNames -merge -useContext -underBinder n_2; exact (by extract_lets +onlyGivenNames -merge -useContext -underBinder s_3; have hs_3 : Keeps a s_3 := (State.keeps_modChan hz0); clear_value s_3; exact (keeps_ite hs_3 (by extract_lets +onlyGivenNames -merge -useContext -underBinder s_4; have hs_4 : Keeps a s_4 := (State.keeps_setCounter hs_3); clear_value s_4; exact (keeps_ite (State.keeps_fireSrc hs_4) hs_4)))))))

theorem State.keeps_retrainStall {a : State} {x0} (hx0 : Keeps a x0) : Keeps a (State.retrainStall x0) := by
  unfold State.retrainStall
  refine keeps_ite hx0 ?_
  extract_lets +onlyGivenNames -merge -useContext -underBinder t_0
  have ht_0 : Keeps a t_0 := keeps_foldl0 hx0 (fun z1 z2 hz1 => (State.keeps_count hz1))
  clear_value t_0
  exact ht_0

theorem State.keeps_returnUnits {a : State} {x0} (hx0 : Keeps a x0) : Keeps a (State.returnUnits x0) := by
  unfold State.returnUnits
  exact keeps_foldl0 hx0 (fun z0 z1 hz0 => (State.keeps_unfence hz0))

theorem State.keeps_rowMiss {a : State} {x0} {x1} {x2} {x3} {x4} (hx4 : Keeps a x4) : Keeps a (State.rowMiss x0 x1 x2 x3 x4) := by
  unfold State.rowMiss
  exact State.keeps_count (State.keeps_modRow hx4)

theorem State.keeps_rowReaches {a : State} {x0} {x1} {x2} {x3} {x4} (hx4 : Keeps a x4) : Keeps a (State.rowReaches x0 x1 x2 x3 x4) := by
  unfold State.rowReaches
  extract_lets +onlyGivenNames -merge -useContext -underBinder r_0
  exact keeps_ite (keeps_ite hx4 (State.keeps_rowBind hx4)) (keeps_ite (State.keeps_rowMiss hx4) hx4)

theorem State.keeps_rowsBegin {a : State} {x0} {x1} {x2} (hx2 : Keeps a x2) : Keeps a (State.rowsBegin x0 x1 x2) := by
  unfold State.rowsBegin
  exact keeps_foldl0 hx2 (fun z0 z1 hz0 => (keeps_foldl0 hz0 (fun z2 z3 hz2 => (keeps_ite (State.keeps_rowBegin hz2) hz2))))

theorem State.keeps_rowsBind {a : State} {x0} {x1} {x2} (hx2 : Keeps a x2) : Keeps a (State.rowsBind x0 x1 x2) := by
  unfold State.rowsBind
  exact keeps_foldl0 hx2 (fun z0 z1 hz0 => (keeps_foldl0 hz0 (fun z2 z3 hz2 => (keeps_ite (State.keeps_rowReaches hz2) hz2))))

theorem State.keeps_stopperCheck {a : State} {x0} {x1} (hx0 : Keeps a x0) : Keeps a (State.stopperCheck x0 x1) := by
  unfold State.stopperCheck
  extract_lets +onlyGivenNames -merge -useContext -underBinder x_0
  extract_lets +onlyGivenNames -merge -useContext -underBinder n_1
  extract_lets +onlyGivenNames -merge -useContext -underBinder src_2 s_3
  have hs_3 : Keeps a s_3 := hx0
  clear_value s_3
  exact keeps_ite (State.keeps_fireSrc hs_3) hs_3

theorem State.keeps_takeMasks {a : State} {x0} (hx0 : Keeps a x0) : Keeps a (State.takeMasks x0) := by
  unfold State.takeMasks
  exact hx0

theorem State.keeps_takeOccs {a : State} {x0} {x1} (hx1 : Keeps a x1) : Keeps a (State.takeOccs x0 x1) := by
  unfold State.takeOccs
  refine keeps_ite hx1 ?_
  extract_lets +onlyGivenNames -merge -useContext -underBinder s_0
  have hs_0 : Keeps a s_0 := keeps_foldl0 hx1 (fun z1 z2 hz1 => (State.keeps_setCounter hz1))
  clear_value s_0
  exact keeps_foldl0 hs_0 (fun z3 z4 hz3 => (State.keeps_judgeOcc hz3))

theorem State.keeps_takeTemps {a : State} {x0} {x1} (hx1 : Keeps a x1) : Keeps a (State.takeTemps x0 x1) := by
  unfold State.takeTemps
  refine keeps_ite hx1 ?_
  extract_lets +onlyGivenNames -merge -useContext -underBinder bad_0
  extract_lets +onlyGivenNames -merge -useContext -underBinder inside_1
  extract_lets +onlyGivenNames -merge -useContext -underBinder s_2
  have hs_2 : Keeps a s_2 := hx1
  clear_value s_2
  extract_lets +onlyGivenNames -merge -useContext -underBinder s_3
  have hs_3 : Keeps a s_3 := keeps_ite (State.keeps_fireSrc hs_2) hs_2
  clear_value s_3
  exact keeps_ite (State.keeps_fireSrc hs_3) hs_3

theorem State.keeps_touchSlots {a : State} {x0} {x1} (hx1 : Keeps a x1) : Keeps a (State.touchSlots x0 x1) := by
  unfold State.touchSlots
  extract_lets +onlyGivenNames -merge -useContext -underBinder k_0
  exact keeps_ite (State.keeps_endSaves (keeps_foldl0 hx1 (fun z1 z2 hz1 => (State.keeps_touchSlot hz1)))) hx1

theorem keeps_runSteps {a : State} {x0} {x1} (hg : ∀ g ∈ x0, ∀ s, Keeps a s → Keeps a (g s)) (hx1 : Keeps a x1) : Keeps a (runSteps x0 x1) := by
  unfold runSteps
  induction x0 generalizing x1 with
  | nil => exact hx1
  | cons g t ih => exact ih (fun g' h => hg g' (List.mem_cons_of_mem _ h)) (keeps_ite (hg g List.mem_cons_self _ hx1) hx1)

theorem State.keeps_lineEvents {a : State} {x0} {x1} (hx1 : Keeps a x1) : Keeps a (State.lineEvents x0 x1) := by
  unfold State.lineEvents
  refine keeps_runSteps ?_ hx1
  simp only [lineSteps, List.forall_mem_cons, List.not_mem_nil, false_imp_iff, implies_true, and_true]
  exact ⟨fun _ => State.keeps_linesPass, fun _ => State.keeps_headsOff, fun _ => State.keeps_headsStart, fun _ => State.keeps_overlaysBegin,
    fun _ => State.keeps_rowsBegin, fun _ => State.keeps_rowsBind, fun _ => State.keeps_schedule, fun _ => State.keeps_encStarts, fun _ => State.keeps_touchSlots⟩

theorem State.keeps_lineZero {a : State} {x0} {x1} {x2} {x3} {x4} (hx4 : Keeps a x4) : Keeps a (State.lineZero x0 x1 x2 x3 x4) := by
  have hs : Keeps a (runSteps (lineZeroSteps x0 (x4.dueVersions x0 x1) x2 x3) x4) := by
    refine keeps_runSteps ?_ hx4
    simp only [lineZeroSteps, List.forall_mem_cons, List.not_mem_nil, false_imp_iff, implies_true, and_true]
    exact ⟨fun _ => State.keeps_switchLine0, fun _ h => h, fun _ => State.keeps_takeMasks,
      fun _ => State.keeps_dueFaultEvents, fun _ => State.keeps_applySet,
      fun _ => State.keeps_whipLine0, fun _ => State.keeps_returnUnits, fun _ h => keeps_foldl0 h (fun _ _ => State.keeps_patternSeal),
      fun _ => State.keeps_takeTemps, fun _ => State.keeps_refreshCheck, fun _ => State.keeps_retrainStall, fun _ => State.keeps_takeOccs,
      fun _ h => keeps_foldl0 h (fun _ _ => State.keeps_portNote), fun _ h => keeps_foldl0 h (fun _ _ => State.keeps_prbsNote),
      fun _ => State.keeps_strandsLine0, fun _ h => keeps_foldl0 h (fun _ _ => State.keeps_stopperCheck), fun _ => State.keeps_armSigs,
      fun _ => State.keeps_endSaves, fun _ => State.keeps_placeInternal, fun _ => keeps_boundLine0, fun _ => State.keeps_idleCheck, fun _ => State.keeps_cleatLine0⟩
  unfold State.lineZero
  exact keeps_ite (State.keeps_reanchor hs) hs

/-- RASTER_START does nothing, or it starts line 0 of the frame that is due and keeps the rest. -/
theorem State.keeps_rasterBegin (o : LineObs) (s : State) :
    s.rasterBegin o = s ∨ (s.raster.run = false ∧ s.boot.step = 11 ∧
      ∃ t r, Keeps s t ∧ r.line = 0 ∧ Keeps { t with raster := r } (s.rasterBegin o)) := by
  unfold State.rasterBegin
  extract_lets +onlyGivenNames -merge -useContext -underBinder f again s1 origin s2
  by_cases h : (!s.rasterReady || decide (s.wallNs < lineStartNs s.lay.dev.wallRate f 0)) = true
  · left; rw [if_pos h]
  · right
    rw [if_neg h]
    simp only [Bool.or_eq_true, not_or, Bool.not_eq_true', Bool.not_eq_false, State.rasterReady, Bool.and_eq_true, decide_eq_true_eq] at h
    refine ⟨h.1.1.1.1, h.1.1.1.2, s1, s2.raster, ?_, rfl, State.keeps_lineEvents (State.keeps_lineZero (keeps_refl _))⟩
    exact keeps_ite (State.keeps_forgetTime (keeps_refl s)) (keeps_refl s)

/-- WALL_LINE_START does nothing, or it moves to the next line of the raster and keeps the rest. -/
theorem State.keeps_wallLine (o : LineObs) (s : State) :
    s.wallLine o = s ∨ (s.raster.run = true ∧ Keeps { s with raster := { s.raster with frame := s.raster.next.1, line := s.raster.next.2 } } (s.wallLine o)) := by
  unfold State.wallLine
  extract_lets +onlyGivenNames -merge -useContext -underBinder p src s1
  by_cases h : (!s.raster.run || decide (s.wallNs < lineStartNs s.lay.dev.wallRate p.1 p.2)) = true
  · left; rw [if_pos h]
  · right
    rw [if_neg h]
    simp only [Bool.or_eq_true, not_or, Bool.not_eq_true', Bool.not_eq_false] at h
    have h1 : Keeps s1 s1 := keeps_refl s1
    exact ⟨h.1, State.keeps_lineEvents (keeps_ite (State.keeps_lineZero h1) h1)⟩

/-- What the state that a row answers keeps. -/
theorem next_keeps {a u t : State} (h : (.next u : Host.Outcome State Fault Refusal) = .next t) (hk : Keeps a u) : Keeps a t := by
  cases h; exact hk

/-- Every row but FUSE_LOAD_DONE, WALL_LINE_START and RASTER_START keeps, from the state in which its ticks have passed. -/
theorem exec_keeps {i : Instr} {s t : State} (hf : ∀ dt b r, i ≠ .fuseLoadDone dt b r) (hw : ∀ dt o, i ≠ .wallLineStart dt o)
    (hr : ∀ dt o, i ≠ .rasterStart dt o) (hb : ∀ dt k j o, i ≠ .bandRowEmit dt k j o) (h : exec i s = .next t) : Keeps (s.advance i.ticks) t := by
  cases i with
  | identify => exact next_keeps h (keeps_cmdIdentify (keeps_refl _))
  | summary => exact next_keeps h (keeps_cmdSummary (keeps_refl _))
  | readLog => exact next_keeps h (keeps_cmdReadLog (keeps_refl _))
  | reset => exact next_keeps h (keeps_cmdReset (keeps_refl _))
  | clearStartCount => exact next_keeps h (keeps_cmdClearStartCount (keeps_refl _))
  | fwBegin => exact next_keeps h (keeps_cmdFwBegin (keeps_refl _))
  | fwData => exact next_keeps h (keeps_cmdFwData (keeps_refl _))
  | fwEnd => exact next_keeps h (keeps_cmdFwEnd (keeps_refl _))
  | fwLoadTimeout => exact next_keeps h (State.keeps_fwTimeout (keeps_refl _))
  | memConfig => exact next_keeps h (keeps_cmdMemConfig (keeps_refl _))
  | memConfigDone => exact next_keeps h (State.keeps_finish (fun z0 hz0 => (State.keeps_memConfigEnd hz0)) (keeps_refl _))
  | paletteProgram => exact next_keeps h (keeps_cmdPaletteProgram (keeps_refl _))
  | txnOpen => exact next_keeps h (keeps_cmdTxnOpen (keeps_refl _))
  | txnCommit => exact next_keeps h (keeps_cmdTxnCommit (keeps_refl _))
  | commitValidated => exact next_keeps h (State.keeps_finish (fun z0 hz0 => (keeps_boundCheck (State.keeps_endValidation hz0))) (keeps_refl _))
  | txnAbort => exact next_keeps h (keeps_cmdTxnAbort (keeps_refl _))
  | objectRead => exact next_keeps h (keeps_cmdObjectRead (keeps_refl _))
  | stageDevice => exact next_keeps h (keeps_cmdStage (keeps_refl _))
  | stageSource => exact next_keeps h (keeps_cmdStage (keeps_refl _))
  | stageFlow => exact next_keeps h (keeps_cmdStage (keeps_refl _))
  | stageMac => exact next_keeps h (keeps_cmdStage (keeps_refl _))
  | stageDprx => exact next_keeps h (keeps_cmdStage (keeps_refl _))
  | stageContext => exact next_keeps h (keeps_cmdStage (keeps_refl _))
  | stageHead => exact next_keeps h (keeps_cmdStage (keeps_refl _))
  | stageWindow => exact next_keeps h (keeps_cmdStage (keeps_refl _))
  | stageEncoder => exact next_keeps h (keeps_cmdStage (keeps_refl _))
  | stageGlyphs => exact next_keeps h (keeps_cmdStage (keeps_refl _))
  | stageGlyphSet => exact next_keeps h (keeps_cmdStage (keeps_refl _))
  | stageAtlas => exact next_keeps h (keeps_cmdStage (keeps_refl _))
  | stageColours => exact next_keeps h (keeps_cmdStage (keeps_refl _))
  | stageScaler => exact next_keeps h (keeps_cmdStage (keeps_refl _))
  | stageDesk => exact next_keeps h (keeps_cmdStage (keeps_refl _))
  | stageQuad => exact next_keeps h (keeps_cmdStage (keeps_refl _))
  | stageDomain => exact next_keeps h (keeps_cmdStage (keeps_refl _))
  | stagePulse => exact next_keeps h (keeps_cmdStage (keeps_refl _))
  | stageRegulator => exact next_keeps h (keeps_cmdStage (keeps_refl _))
  | stageAccess => exact next_keeps h (keeps_cmdStage (keeps_refl _))
  | surfacePublish => exact next_keeps h (keeps_cmdSurfacePublish (keeps_refl _))
  | surfaceCopyDone => exact next_keeps h (State.keeps_finish (fun z0 hz0 => (State.keeps_endCopy hz0)) (keeps_refl _))
  | sourceQuery => exact next_keeps h (keeps_cmdSourceQuery (keeps_refl _))
  | encQuery => exact next_keeps h (keeps_cmdEncQuery (keeps_refl _))
  | pointQuery => exact next_keeps h (keeps_cmdPointQuery (keeps_refl _))
  | headQuery => exact next_keeps h (keeps_cmdHeadQuery (keeps_refl _))
  | counterRead => exact next_keeps h (keeps_cmdCounterRead (keeps_refl _))
  | timeAdjust => exact next_keeps h (keeps_cmdTimeAdjust (keeps_refl _))
  | timeSwitch => exact next_keeps h (keeps_cmdTimeSwitch (keeps_refl _))
  | timeStatus => exact next_keeps h (keeps_cmdTimeStatus (keeps_refl _))
  | whipSet => exact next_keeps h (keeps_cmdWhipSet (keeps_refl _))
  | probeSet => exact next_keeps h (keeps_cmdProbeSet (keeps_refl _))
  | laneTest => exact next_keeps h (keeps_cmdLaneTest (keeps_refl _))
  | touchBaseline => exact next_keeps h (keeps_cmdTouchBaseline (keeps_refl _))
  | baselineFlashWriteDone => exact next_keeps h (State.keeps_finish (fun z0 hz0 => (State.keeps_writeDone hz0)) (keeps_refl _))
  | faultQuery => exact next_keeps h (keeps_cmdFaultQuery (keeps_refl _))
  | faultReact => exact next_keeps h (keeps_cmdFaultReact (keeps_refl _))
  | faultRearm => exact next_keeps h (keeps_cmdFaultRearm (keeps_refl _))
  | unitRestore => exact next_keeps h (keeps_cmdUnitRestore (keeps_refl _))
  | unitTestDone => exact next_keeps h (State.keeps_unitTestDone (keeps_refl _))
  | debugChallenge => exact next_keeps h (keeps_cmdDebugChallenge (keeps_refl _))
  | debugUnlock => exact next_keeps h (keeps_cmdDebugUnlock (keeps_refl _))
  | debugChallengeExpiry => exact next_keeps h (keeps_stores rfl rfl rfl rfl rfl rfl rfl id)
  | debugLockoutExpiry => exact next_keeps h (keeps_stores rfl rfl rfl rfl rfl rfl rfl id)
  | dbProducer => exact next_keeps h (State.keeps_doorProducer (keeps_refl _))
  | dbConsumer => exact next_keeps h (State.keeps_doorConsumer (keeps_refl _))
  | ringEnable => exact next_keeps h (State.keeps_ringEnable (keeps_refl _))
  | ringDisable => exact next_keeps h (State.keeps_ringDisable (keeps_refl _))
  | ringErrClear => exact next_keeps h (State.keeps_ringErrClear (keeps_refl _))
  | registerWrite => exact next_keeps h (State.keeps_writeReg (keeps_refl _))
  | bar0StrayWrite => exact next_keeps h (State.keeps_strayWrite (keeps_refl _))
  | msixModerationExpiry => exact next_keeps h (State.keeps_moderationEnd (keeps_refl _))
  | uartFrameRx => exact next_keeps h (State.keeps_uartFrame (keeps_refl _))
  | uartGapTimeout => exact next_keeps h (State.keeps_uartDiscard (keeps_refl _))
  | txnExpired => exact next_keeps h (State.keeps_txnExpired (keeps_refl _))
  | wallLineStart _ _ => exact absurd rfl (hw _ _)
  | rasterStart _ _ => exact absurd rfl (hr _ _)
  | ethFrameRx => exact next_keeps h (State.keeps_ethFrame (keeps_refl _))
  | rtpPacketRx => exact next_keeps h (State.keeps_rtpPacket (keeps_refl _))
  | holeClose => exact next_keeps h (State.keeps_holeClose (keeps_refl _))
  | frameCloseTimeout => exact next_keeps h (State.keeps_frameTimeout (keeps_refl _))
  | pathDown => exact next_keeps h (State.keeps_pathDown (keeps_refl _))
  | frameSeal => exact next_keeps h (State.keeps_frameSeal (keeps_refl _))
  | dprxFrameStart => exact next_keeps h (State.keeps_dprxStart (keeps_refl _))
  | dprxLinkLoss => exact next_keeps h (State.keeps_dprxLost (keeps_refl _))
  | dprxHpdRelease => exact next_keeps h (State.keeps_modDprx (keeps_refl _))
  | pointDatagramRx => exact next_keeps h (State.keeps_pointDatagram (keeps_refl _))
  | hostPointSlot => exact next_keeps h (State.keeps_hostSlot (keeps_refl _))
  | decodePictureComplete => exact next_keeps h (State.keeps_decodeComplete (keeps_refl _))
  | decodeOverrun => exact next_keeps h (State.keeps_decodeOverrun (keeps_refl _))
  | poolBufferFreed => exact next_keeps h (State.keeps_poolFreed (keeps_refl _))
  | encodeRowComplete => exact next_keeps h (State.keeps_rowComplete (keeps_refl _))
  | rowLate => exact next_keeps h (State.keeps_encRowLate (keeps_refl _))
  | encTileRowRead => exact next_keeps h (State.keeps_encRead (keeps_refl _))
  | packetLaunch => exact next_keeps h (State.keeps_launch (keeps_refl _))
  | launchSlip => exact next_keeps h (State.keeps_launchSlip (keeps_refl _))
  | tileComputed => exact next_keeps h (State.keeps_tileComputed (keeps_refl _))
  | strandSwitch => exact next_keeps h (State.keeps_strandSwitch (keeps_refl _))
  | passComplete => exact next_keeps h (State.keeps_passComplete (keeps_refl _))
  | strandSelftestDone => exact next_keeps h (State.keeps_selftestDone (keeps_refl _))
  | overlaySurfaceDone => exact next_keeps h (State.keeps_overlayDone (keeps_refl _))
  | overlayWindowEnd => exact next_keeps h (State.keeps_overlayWindowEnd (keeps_refl _))
  | bandRowFetchDone => exact next_keeps h (State.keeps_bandFetched (keeps_refl _))
  | fetchUrgent => exact next_keeps h (State.keeps_fetchUrgent (keeps_refl _))
  | bandRowEmit _ _ _ _ => exact absurd rfl (hb _ _ _ _)
  | hpdIrq => exact next_keeps h (State.keeps_hpdIrq (keeps_refl _))
  | hpdUnplug => exact next_keeps h (State.keeps_hpdUnplug (keeps_refl _))
  | hpdAsserted => exact next_keeps h (State.keeps_hpdAsserted (keeps_refl _))
  | auxReply => exact next_keeps h (State.keeps_auxReply (keeps_refl _))
  | auxTimeout => exact next_keeps h (State.keeps_auxTimeout (keeps_refl _))
  | trainingSuccess => exact next_keeps h (State.keeps_trainDone (keeps_refl _))
  | trainingAttemptFail => exact next_keeps h (State.keeps_attemptFail (keeps_refl _))
  | trainingAttemptTimeout => exact next_keeps h (State.keeps_attemptFail (keeps_refl _))
  | trainingRetry => exact next_keeps h (State.keeps_trainRetry (keeps_refl _))
  | restExitRequest => exact next_keeps h (State.keeps_restExit (keeps_refl _))
  | laneIdleExit => exact next_keeps h (State.keeps_idleExit (keeps_refl _))
  | quadPllLock => exact next_keeps h (State.keeps_pllLock (keeps_refl _))
  | quadPllLockTimeout => exact next_keeps h (State.keeps_pllTimeout (keeps_refl _))
  | quadPllUnlock => exact next_keeps h (State.keeps_pllUnlock (keeps_refl _))
  | cdrLoss => exact next_keeps h (State.keeps_cdrLoss (keeps_refl _))
  | ptpSyncRx => exact next_keeps h (State.keeps_syncRx (keeps_refl _))
  | followUpRx => exact next_keeps h (State.keeps_followUpRx (keeps_refl _))
  | announceRx => exact next_keeps h (State.keeps_announceRx (keeps_refl _))
  | delayRespRx => exact next_keeps h (State.keeps_delayRespRx (keeps_refl _))
  | delayReqTx => exact next_keeps h (State.keeps_delayReqTx (keeps_refl _))
  | mgmtDiscard => exact next_keeps h (State.keeps_mgmtDiscard (keeps_refl _))
  | syncTimeout => exact next_keeps h (State.keeps_syncTimeout (keeps_refl _))
  | announceTimeout => exact next_keeps h (State.keeps_announceTimeout (keeps_refl _))
  | holdoverExpiry => exact next_keeps h (State.keeps_holdoverExpiry (keeps_refl _))
  | tpiEdge => exact next_keeps h (State.keeps_tpiEdge (keeps_refl _))
  | tpoPulse => exact next_keeps h (State.keeps_tpoEdge (keeps_refl _))
  | sampleInstantRx => exact next_keeps h (State.keeps_sampleInstant (keeps_refl _))
  | thimbleMessageRx => exact next_keeps h (State.keeps_thimbleMessage (keeps_refl _))
  | touchFrameMeasured => exact next_keeps h (State.keeps_touchStep (keeps_refl _))
  | deskBlockLock => exact next_keeps h (State.keeps_deskBlockLock (keeps_refl _))
  | deskInfoReadDone => exact next_keeps h (State.keeps_infoRead (keeps_refl _))
  | deskStartTimeout => exact next_keeps h (State.keeps_deskTimeout (keeps_refl _))
  | deskLinkLoss => exact next_keeps h (State.keeps_endSaves (State.keeps_deskLoss (keeps_refl _)))
  | refresh => exact next_keeps h (State.keeps_refreshAll (keeps_refl _))
  | mr4Poll => exact next_keeps h (State.keeps_mr4 (keeps_refl _))
  | regulatorRelease => exact next_keeps h (State.keeps_regulate (keeps_refl _))
  | class2Promotion => exact next_keeps h (State.keeps_promote (keeps_refl _))
  | whipCheckDone => exact next_keeps h (State.keeps_whipDone (keeps_refl _))
  | faultSourceFire => exact next_keeps h (State.keeps_sourceFire (keeps_refl _))
  | processorWdogExpiry => exact next_keeps h (State.keeps_wdogExpiry (keeps_refl _))
  | watchdogKick => exact next_keeps h (State.keeps_kick (keeps_refl _))
  | bowlineWdog => exact next_keeps h (State.keeps_bowlineFire (keeps_refl _))
  | bowlineLockstep => exact next_keeps h (State.keeps_bowlineFire (keeps_refl _))
  | collector => exact next_keeps h (State.keeps_collectorFail (keeps_refl _))
  | por => exact next_keeps h (State.keeps_porRelease (keeps_refl _))
  | railExcursion => exact next_keeps h (State.keeps_railTrip (keeps_refl _))
  | resetNAssert => exact next_keeps h (State.keeps_resetAssert (keeps_refl _))
  | resetNRelease => exact next_keeps h (State.keeps_resetRelease (keeps_refl _))
  | perstN => exact next_keeps h (State.keeps_perst (keeps_refl _))
  | fuseLoadDone _ _ _ => exact absurd rfl (hf _ _ _)
  | clockStable => exact next_keeps h (State.keeps_drain (State.keeps_onClock (fun z0 z1 hz1 => (State.keeps_clockStable hz1)) (keeps_refl _)))
  | clockJudgeTimeout => exact next_keeps h (State.keeps_drain (State.keeps_onClock (fun z0 z1 hz1 => (State.keeps_clockTimeout hz1)) (keeps_refl _)))
  | clockMonitorFail => exact next_keeps h (State.keeps_onClock (fun z0 z1 hz1 => (State.keeps_monitorFail hz1)) (keeps_refl _))
  | fioRetry => exact next_keeps h (State.keeps_drain (State.keeps_fioRetry (keeps_refl _)))
  | imageLoaded => exact next_keeps h (State.keeps_drain (State.keeps_imageLoad (keeps_refl _)))
  | memTrainingDone => exact next_keeps h (State.keeps_memTrained (keeps_refl _))
  | bootComplete => exact next_keeps h (State.keeps_bootComplete (keeps_refl _))
  | startTimeout => exact next_keeps h (State.keeps_startTimeout (keeps_refl _))
  | failedStartReset => exact next_keeps h (State.keeps_failedStart (keeps_refl _))
  | pwrFailAssert => exact next_keeps h (State.keeps_powerWarn (keeps_refl _))
  | pwrFailRelease => exact next_keeps h (State.keeps_drain (State.keeps_powerBack (keeps_refl _)))
  | lastGaspWriteDone => exact next_keeps h (State.keeps_gaspDone (keeps_refl _))
  | extest => exact next_keeps h (State.keeps_takePins (keeps_refl _))
  | samplePreload => exact next_keeps h (State.keeps_tap (keeps_refl _))
  | idcode => exact next_keeps h (State.keeps_tap (keeps_refl _))
  | clamp => exact next_keeps h (State.keeps_takePins (keeps_refl _))
  | highz => exact next_keeps h (State.keeps_takePins (keeps_refl _))
  | dbgAccess => exact next_keeps h (State.keeps_debugAccess (keeps_refl _))
  | dbgTrace => exact next_keeps h (State.keeps_tap (keeps_refl _))
  | dbgHalt => exact next_keeps h (State.keeps_debugHalt (keeps_refl _))
  | bypass => exact next_keeps h (State.keeps_tap (keeps_refl _))
  | trstN => exact next_keeps h (State.keeps_tap (keeps_refl _))
  | ethLinkDown => exact next_keeps h (State.keeps_ethDown (keeps_refl _))
  | ethBlockLock => exact next_keeps h (State.keeps_ethUp (keeps_refl _))
  | dprxSymbolLock => exact next_keeps h (State.keeps_dprxUp (keeps_refl _))
  | dprxAuxRequest => exact next_keeps h (State.keeps_dprxAux (keeps_refl _))
  | scrub => exact next_keeps h (State.keeps_scrub (keeps_refl _))
  | supplyResetRelease => exact next_keeps h (State.keeps_supplyRelease (keeps_refl _))
  | paletteProgramDone => exact next_keeps h (State.keeps_finish (fun z0 hz0 => (State.keeps_paletteEnd hz0)) (keeps_refl _))
  | fwDataDone => exact next_keeps h (State.keeps_finish (fun z0 hz0 => (State.keeps_fwDataEnd hz0)) (keeps_refl _))
  | processorRestartDone => exact next_keeps h (State.keeps_restartDone (keeps_refl _))

/-- BAND_ROW_EMIT keeps all but what its head shows. -/
theorem exec_stays_bandRowEmit {dt k j : Nat} {o : BandObs} {s t : State} (h : exec (.bandRowEmit dt k j o) s = .next t) : Stays (s.advance dt) t := by
  have h : (s.advance dt).bandEmit k j o = t := by injection h
  exact h ▸ State.stays_bandEmit k j o (s.advance dt)

/-- All but what the heads show stays under every row, but for the three that restart the wall position or the start. -/
theorem exec_stays {i : Instr} {s t : State} (hf : ∀ dt b r, i ≠ .fuseLoadDone dt b r) (hw : ∀ dt o, i ≠ .wallLineStart dt o)
    (hr : ∀ dt o, i ≠ .rasterStart dt o) (h : exec i s = .next t) : Stays (s.advance i.ticks) t := by
  by_cases hb : ∃ dt k j o, i = .bandRowEmit dt k j o
  · obtain ⟨dt, k, j, o, rfl⟩ := hb
    exact exec_stays_bandRowEmit h
  · exact (exec_keeps hf hw hr (fun dt k j o e => hb ⟨dt, k, j, o, e⟩) h).1

/-- FUSE_LOAD_DONE keeps outside the fuse load, and there it keeps what a start past it would keep. -/
theorem exec_keeps_fuseLoad {dt : Nat} {b r : List Nat} {s t : State} (h : exec (.fuseLoadDone dt b r) s = .next t) :
    Keeps (s.advance dt) t ∨
      (s.dev = .starting ∧ Keeps { s.advance dt with boot := { s.boot with step := 3 } } t) := by
  rcases State.keeps_fuseLoad b r (s.advance dt) with hk | ⟨hd, hk⟩
  · exact .inl (next_keeps h (State.keeps_drain (hk.symm ▸ keeps_refl _)))
  · exact .inr ⟨hd, next_keeps h (State.keeps_drain hk)⟩

end Sys2Proof.Machine
end

