-- ==== Sys2Proof/Laws/Basics.lean ====
section
/-! SUPPORT. Laws of tables, lists and numbers that the other laws use. -/

namespace Sys2Proof.Machine

open Sys2Proof

/-- Bit 0 of a number says that it is odd. -/
theorem testBit_zero_eq (n : Nat) : n.testBit 0 = decide (n % 2 = 1) := by simp [Nat.testBit_zero]

/-- A table reads back a value, other than the default, that has been set. -/
theorem tab_get_set_same {α} [DecidableEq α] (d : α) (k : Nat) (v : α) (t : Tab α) (h : v ≠ d) : Tab.get d k (Tab.set d k v t) = v := by
  unfold Tab.set; rw [if_neg h]; exact Tab.get_put_same d k v t

/-- Of two writes to one key the later stands. -/
theorem tab_put_put {α} (k : Nat) (v w : α) (t : Tab α) : Tab.put k v (Tab.put k w t) = Tab.put k v t := by
  induction t with
  | nil => simp [Tab.put]
  | cons e t ih =>
    obtain ⟨j, x⟩ := e
    simp only [Tab.put]
    split
    · simp [Tab.put]
    · split
      · simp [Tab.put]
      · simp only [Tab.put]; rw [if_neg (by assumption), if_neg (by assumption), ih]

/-- A write leaves every other key as it was. -/
theorem tab_get_put_other {α} (d : α) (k j : Nat) (v : α) (t : Tab α) (h : j ≠ k) : Tab.get d j (Tab.put k v t) = Tab.get d j t := Tab.get_put_other d h v t

/-- Setting a key to a value other than the default leaves every other key as it was. -/
theorem tab_get_set_other {α} [DecidableEq α] (d : α) (k j : Nat) (v : α) (t : Tab α) (h : v ≠ d) (hj : j ≠ k) : Tab.get d j (Tab.set d k v t) = Tab.get d j t := by
  unfold Tab.set; rw [if_neg h]; exact tab_get_put_other d k j v t hj

/-- Of two settings of one key, to values other than the default, the later stands. -/
theorem tab_set_set {α} [DecidableEq α] (d : α) (k : Nat) (v w : α) (t : Tab α) (hv : v ≠ d) (hw : w ≠ d) : Tab.set d k v (Tab.set d k w t) = Tab.set d k v t := by
  unfold Tab.set; rw [if_neg hv, if_neg hw, if_neg hv, tab_put_put]

/-- What a table holds after one entry has been changed. -/
theorem tab_get_modify {α} [DecidableEq α] (d : α) (k j : Nat) (f : α → α) (t : Tab α) (h : f (Tab.get d k t) ≠ d) :
    Tab.get d j (Tab.modify d k f t) = if j = k then f (Tab.get d k t) else Tab.get d j t := by
  unfold Tab.modify
  by_cases hj : j = k
  · subst hj; rw [if_pos rfl, tab_get_set_same _ _ _ _ h]
  · rw [if_neg hj, tab_get_set_other _ _ _ _ _ h hj]

/-- A key that a filter drops is not found. -/
theorem find?_filter_none {α} (k : Nat) (l : List (Nat × α)) (p : Nat → Bool) (h : p k = true) : Tab.find? k (l.filter (fun e => !p e.1)) = none := by
  induction l with
  | nil => rfl
  | cons e t ih =>
    rw [List.filter_cons]
    split
    · obtain ⟨j, v⟩ := e
      unfold Tab.find?
      split
      · subst_vars; simp_all
      · split
        · rfl
        · exact ih
    · exact ih

/-- A running maximum bounds what it has run over, and is its start or one of the values. -/
theorem foldl_max_spec (f : Nat → Nat) (l : List Nat) (g : Nat) :
    (g ≤ l.foldl (fun g k => max g (f k)) g) ∧ (∀ k ∈ l, f k ≤ l.foldl (fun g k => max g (f k)) g) ∧
    (l.foldl (fun g k => max g (f k)) g = g ∨ ∃ k ∈ l, l.foldl (fun g k => max g (f k)) g = f k) := by
  induction l generalizing g with
  | nil => exact ⟨le_refl _, fun k h => (by cases h), .inl rfl⟩
  | cons x t ih =>
    obtain ⟨h1, h2, h3⟩ := ih (max g (f x))
    refine ⟨le_trans (Nat.le_max_left _ _) h1, ?_, ?_⟩
    · intro k hk
      rcases List.mem_cons.mp hk with rfl | hk
      · exact le_trans (Nat.le_max_right _ _) h1
      · exact h2 k hk
    · show (t.foldl _ (max g (f x)) = g) ∨ _
      rcases h3 with h3 | ⟨k, hk, h3⟩
      · rcases Nat.le_total g (f x) with h | h
        · rw [Nat.max_eq_right h] at h3
          exact .inr ⟨x, List.mem_cons_self, by show t.foldl _ (max g (f x)) = _; rw [Nat.max_eq_right h]; exact h3⟩
        · rw [Nat.max_eq_left h] at h3 ⊢; exact .inl h3
      · exact .inr ⟨k, List.mem_cons_of_mem _ hk, h3⟩

/-- A change that a view does not show leaves the view of a list as it was. -/
theorem map_mapIdx_eq {α β} (p : α → β) : ∀ (l : List α) (f : Nat → α → α), (∀ i n, p (f i n) = p n) → (l.mapIdx f).map p = l.map p := by
  intro l
  induction l with
  | nil => intro f _; rfl
  | cons x l ih =>
    intro f h
    rw [List.mapIdx_cons, List.map_cons, List.map_cons, h, ih]
    intro i n; exact h _ _

/-- A number that is not in a list is not found there. -/
theorem hasNat_of_not_mem (k : Nat) (l : List Nat) (h : k ∉ l) : hasNat k l = false := by
  rw [Bool.eq_false_iff]; unfold hasNat; intro hh; rw [List.any_eq_true] at hh; obtain ⟨y, hy, he⟩ := hh; rw [decide_eq_true_eq] at he; exact h (he ▸ hy)

/-- The search of a list of numbers decides membership. -/
theorem hasNat_eq_decide (k : Nat) (l : List Nat) : hasNat k l = decide (k ∈ l) := by
  by_cases h : k ∈ l
  · rw [decide_eq_true h]; unfold hasNat; rw [List.any_eq_true]; exact ⟨k, h, by simp⟩
  · rw [decide_eq_false h]; exact hasNat_of_not_mem k l h

/-- The search of a list of clocks decides membership. -/
theorem hasClock_eq_decide (k : Clock) (l : List Clock) : hasClock k l = decide (k ∈ l) := by
  unfold hasClock
  by_cases h : k ∈ l
  · rw [decide_eq_true h, List.any_eq_true]; exact ⟨k, h, by simp⟩
  · rw [decide_eq_false h, Bool.eq_false_iff]; intro hh; rw [List.any_eq_true] at hh; obtain ⟨y, hy, he⟩ := hh; rw [decide_eq_true_eq] at he; exact h (he ▸ hy)

/-- An exclusive or with a fixed number loses nothing. -/
theorem xor_left_inj (a b f : Nat) (h : a ^^^ f = b ^^^ f) : a = b := by
  have := congrArg (fun z => z ^^^ f) h
  simpa [Nat.xor_assoc] using this

/-- A multiple of g and a remainder below g are determined by their sum. -/
theorem mul_add_inj (x y g : Nat) (hg : 0 < g) (r t : Nat) (h : x * g + r = y * g + t) (hr : r < g) (ht : t < g) : x = y ∧ r = t := by
  have h1 : (x * g + r) / g = x := by rw [Nat.mul_comm, Nat.mul_add_div hg, Nat.div_eq_of_lt hr, Nat.add_zero]
  have h2 : (y * g + t) / g = y := by rw [Nat.mul_comm, Nat.mul_add_div hg, Nat.div_eq_of_lt ht, Nat.add_zero]
  have : x = y := by rw [← h1, h, h2]
  exact ⟨this, by subst this; omega⟩

/-- A pair, taken apart. -/
theorem exists_pair {o : Option (Nat × Nat)} {z : Nat × Nat} (h : o = some z) : ∃ c l, o = some (c, l) ∧ c = z.1 := ⟨z.1, z.2, h, rfl⟩

end Sys2Proof.Machine
end

