-- ==== Sys2Proof/Laws/Host.lean ====
section
/-! SUPPORT. What the operations of the host interface leave and write: admission, replies, events, rings, transactions, counters. -/

namespace Sys2Proof.Machine

open Sys2Proof

/-- Time passes by the ticks of the row. -/
theorem advance_upTicks (s : State) (n) : (s.advance n).time.upTicks = s.time.upTicks + n := by
  simp only [State.advance, Time.after]; split <;> rfl

/-- Soundness does not depend on time. -/
theorem sound_advance {s : State} {n} (h : s.Sound) : (s.advance n).Sound := h

/-- A command that waits, waits whatever its parameters are. -/
theorem admit_wait_of_none {s : State} {k c} (h : s.admission k c none = .wait) (bad) : s.admission k c bad = .wait := by
  unfold State.admission at h ⊢
  split at h
  · rw [if_pos (by assumption)]
  · split at h
    · cases h
    · split at h
      · cases h
      · split at h
        · cases h
        · split at h
          · cases h
          · exfalso; revert h; cases c.rsvAt <;> dsimp only <;> intro h
            · split at h
              · cases h
              · split at h
                · cases h
                · split at h <;> cases h
            · cases h

/-- A command that is refused is refused with its status or with E_PARAM, whatever its parameters are. -/
theorem admit_refuse_of_none {s : State} {k c st d} (h : s.admission k c none = .refuse st d) (bad) :
    ∃ st' d', (st' = st ∧ d' = d ∨ st' = .eParam) ∧ s.admission k c bad = .refuse st' d' := by
  cases bad with
  | none => exact ⟨st, d, .inl ⟨rfl, rfl⟩, h⟩
  | some b =>
    unfold State.admission at h ⊢
    split at h
    · cases h
    · rw [if_neg (by assumption)]
      split at h
      · rw [if_pos (by assumption)]; exact ⟨_, _, .inl ⟨rfl, rfl⟩, h⟩
      · rw [if_neg (by assumption)]
        split at h
        · rw [if_pos (by assumption)]; exact ⟨_, _, .inl ⟨rfl, rfl⟩, h⟩
        · rw [if_neg (by assumption)]
          split at h
          · rw [if_pos (by assumption)]; exact ⟨_, _, .inl ⟨rfl, rfl⟩, h⟩
          · rw [if_neg (by assumption)]
            split at h
            · rw [if_pos (by assumption)]; exact ⟨_, _, .inl ⟨rfl, rfl⟩, h⟩
            · rw [if_neg (by assumption)]
              cases c.rsvAt with
              | some o => exact ⟨_, _, .inr rfl, rfl⟩
              | none => exact ⟨_, _, .inr rfl, rfl⟩

/-- A command that waits leaves everything as it is. -/
theorem serve_of_wait {s : State} {k c bad f} (h : s.admission k c none = .wait) : s.serve k c bad f = s := by
  unfold State.serve; rw [admit_wait_of_none h]

/-- A command that the checks of R39 turn away has its reply as its only effect. -/
theorem serve_of_refuse {s : State} {k c bad f st d} (h : s.admission k c none = .refuse st d) :
    ∃ st' d', (st' = st ∧ d' = d ∨ st' = .eParam) ∧ s.serve k c bad f = (if c.crcOk then s.touchTxn c.txn else s).refuse k c st' d' := by
  obtain ⟨st', d', h1, h2⟩ := admit_refuse_of_none h bad
  exact ⟨st', d', h1, by unfold State.serve; rw [h2]⟩

/-- An enabled ring reads back what has been set. -/
theorem ring_setRing_same (n : Nat) (r : Ring) (s : State) (h : r.enable = true) : (s.setRing n r).ring n = r := by
  unfold State.ring State.setRing
  exact tab_get_set_same _ _ _ _ (by rintro rfl; cases h)

/-- A ring that runs is enabled. -/
theorem enable_of_runs {r : Ring} (h : r.runs = true) : r.enable = true := by unfold Ring.runs at h; simp at h; exact h.1

/-- Writing host memory leaves the rest alone. -/
theorem hostWrites_foldl (f : Nat → Nat) (g : Nat → List Byte) (l : List Nat) (s : State) :
    ∃ w, l.foldl (fun s i => State.hostWrite (f i) (g i) s) s = { s with out := { s.out with hostWrites := w } } := by
  induction l generalizing s with
  | nil => exact ⟨_, rfl⟩
  | cons x t ih => obtain ⟨w, h⟩ := ih (s.hostWrite (f x) (g x)); exact ⟨w, h⟩

/-- A ring's interrupt changes rings and sends messages. -/
theorem ringInterrupt_frame (n : Nat) (s : State) : ∃ g m, s.ringInterrupt n = { s with rings := g, out := { s.out with msix := m } } := by
  unfold State.ringInterrupt State.msix State.setRing
  dsimp only
  split
  · exact ⟨_, s.out.msix, rfl⟩
  · split
    · exact ⟨s.rings, _, rfl⟩
    · exact ⟨_, _, rfl⟩

/-- Writing slots changes rings, sends messages and writes host memory, and nothing else. -/
theorem wroteSlots_frame (n k : Nat) (bs : List Byte) (s : State) :
    ∃ g m w, s.wroteSlots n k bs = { s with rings := g, out := { s.out with msix := m, hostWrites := w } } := by
  unfold State.wroteSlots
  dsimp only
  obtain ⟨w, h⟩ := hostWrites_foldl (fun i => (s.ring n).slotAddr n ((s.ring n).wbProducer + i)) (fun i => inSlots 1 (bs.drop (64 * i))) (List.range k) s
  rw [h]
  obtain ⟨g, m, h⟩ := ringInterrupt_frame n (State.hostWrite (s.ring n).wbAddr
    (writeBackBytes { s.ring n with wbProducer := ((s.ring n).wbProducer + k) % 4294967296, wbGeneration := s.snap.generation })
    (State.setRing n (if (decide (n = 16) || decide (n = 17)) = true then
      Ring.markFull { s.ring n with wbProducer := ((s.ring n).wbProducer + k) % 4294967296, wbGeneration := s.snap.generation }
      else { s.ring n with wbProducer := ((s.ring n).wbProducer + k) % 4294967296, wbGeneration := s.snap.generation })
      { s with out := { s.out with hostWrites := w } }))
  exact ⟨g, m, _, h⟩

/-- Writing slots moves WB_PRODUCER on by their number. -/
theorem wroteSlots_producer (n k : Nat) (bs : List Byte) (s : State) (h : (s.ring n).enable = true) :
    ((s.wroteSlots n k bs).ring n).wbProducer = ((s.ring n).wbProducer + k) % 4294967296 := by
  unfold State.wroteSlots
  dsimp only
  obtain ⟨w, hw⟩ := hostWrites_foldl (fun i => (s.ring n).slotAddr n ((s.ring n).wbProducer + i)) (fun i => inSlots 1 (bs.drop (64 * i))) (List.range k) s
  rw [hw]
  generalize hr : (if (decide (n = 16) || decide (n = 17)) = true then
    Ring.markFull { s.ring n with wbProducer := ((s.ring n).wbProducer + k) % 4294967296, wbGeneration := s.snap.generation }
    else { s.ring n with wbProducer := ((s.ring n).wbProducer + k) % 4294967296, wbGeneration := s.snap.generation }) = r
  have he : r.enable = true := by rw [← hr]; split <;> exact h
  have hp : r.wbProducer = ((s.ring n).wbProducer + k) % 4294967296 := by rw [← hr]; split <;> rfl
  rw [← hp]
  unfold State.ringInterrupt
  dsimp only
  have hg : ∀ (u : State) a b, State.ring (State.hostWrite a b u) n = u.ring n := fun _ _ _ => rfl
  rw [hg, ring_setRing_same _ _ _ he]
  split
  · rw [ring_setRing_same _ _ _ (by exact he)]
  · split
    · show (State.ring (State.setRing n r _) n).wbProducer = _
      rw [ring_setRing_same _ _ _ he]
    · show ((State.ring (State.setRing n _ _) n)).wbProducer = _
      rw [ring_setRing_same _ _ _ (by exact he)]

/-- Writing slots of an enabled ring leaves every other ring as it was. -/
theorem wroteSlots_ring (n k : Nat) (bs : List Byte) (s : State) (h : (s.ring n).enable = true) (m : Nat) (hm : m ≠ n) : (s.wroteSlots n k bs).ring m = s.ring m := by
  unfold State.wroteSlots
  dsimp only
  obtain ⟨w, hw⟩ := hostWrites_foldl (fun i => (s.ring n).slotAddr n ((s.ring n).wbProducer + i)) (fun i => inSlots 1 (bs.drop (64 * i))) (List.range k) s
  rw [hw]
  generalize hr : (if (decide (n = 16) || decide (n = 17)) = true then
    Ring.markFull { s.ring n with wbProducer := ((s.ring n).wbProducer + k) % 4294967296, wbGeneration := s.snap.generation }
    else { s.ring n with wbProducer := ((s.ring n).wbProducer + k) % 4294967296, wbGeneration := s.snap.generation }) = r
  have he : r.enable = true := by rw [← hr]; split <;> exact h
  have hs : ∀ (q : Ring) (u : State), q.enable = true → (u.setRing n q).ring m = u.ring m := by
    intro q u hq
    unfold State.ring State.setRing Tab.set
    rw [if_neg (by rintro rfl; cases hq)]
    exact tab_get_put_other _ _ _ _ _ hm
  unfold State.ringInterrupt
  dsimp only
  have hg : ∀ (u : State) a b j, State.ring (State.hostWrite a b u) j = u.ring j := fun _ _ _ _ => rfl
  rw [hg, ring_setRing_same _ _ _ he]
  split
  · rw [hs _ _ (by exact he), hg, hs _ _ he]; rfl
  · split
    · show State.ring (State.setRing n r _) m = _
      rw [hs _ _ he]; rfl
    · show State.ring (State.setRing n _ (State.hostWrite _ _ (State.setRing n r _))) m = _
      rw [hs _ _ (by exact he), hg, hs _ _ he]; rfl

/-- An event touches the log, the rings and what leaves the device. -/
theorem event_frame (code subject data : Nat) (s : State) :
    { s.event code subject data with log := s.log, rings := s.rings, out := s.out } = s ∧
    (s.event code subject data).log.recs = (s.nextEvent code subject data :: s.log.recs).take 4096 := by
  unfold State.event
  generalize s.nextEvent code subject data = e
  dsimp only
  generalize hu : (e :: s.log.recs).take 4096 = l
  unfold State.deliverEvent
  dsimp only
  split
  · obtain ⟨g, m, w, h⟩ := wroteSlots_frame 16 1 (eventBytes e) { s with log := { s.log with next := s.log.next + 1, recs := l }, out := { s.out with events := e :: s.out.events } }
    rw [h]; exact ⟨rfl, rfl⟩
  · exact ⟨rfl, rfl⟩

/-- The event that is written stands in front of the log. -/
theorem event_recs (code sub data : Nat) (s : State) : (s.event code sub data).log.recs = ({ seq := s.log.next, frame := s.raster.frame, line := s.raster.line, code := code, subject := sub, data := data } :: s.log.recs).take 4096 :=
  (event_frame code sub data s).2

/-- A reply touches the rings and what leaves the device. -/
theorem reply_frame (s : State) (op : Nat) (c : CmdHdr) (st : Status) (legal detail : Nat) (data : ReplyData) (len : Nat) :
    { s.reply op c st legal detail data len with rings := s.rings, out := s.out } = s := by
  unfold State.reply
  generalize s.mkReply op c st legal detail data len = r
  split
  · rfl
  · unfold State.sendReply
    split
    · rfl
    · dsimp only
      split
      · rfl
      · split
        · obtain ⟨g, m, w, h⟩ := wroteSlots_frame _ (packetSlots (24 + r.len)) (replyBytes r) { s with out := { s.out with replies := r :: s.out.replies } }
          rw [h]
        · rfl

/-- A reply with status OK touches the rings and what leaves the device. -/
theorem ok_frame (k c d l) (a : State) : { a.ok k c d l with rings := a.rings, out := a.out } = a := reply_frame a k.opcode c .ok 0 0 d l

/-- Setting a ring leaves the other rings as they were. -/
theorem ring_setRing_other (n m : Nat) (r : Ring) (s : State) (h : r.enable = true) (hn : m ≠ n) : (s.setRing n r).ring m = s.ring m := by
  unfold State.ring State.setRing Tab.set
  rw [if_neg (by rintro rfl; cases h)]
  exact tab_get_put_other _ _ _ _ _ hn

/-- Of two settings of an enabled ring the later stands. -/
theorem setRing_setRing (n : Nat) (a b : Ring) (s : State) (ha : a.enable = true) (hb : b.enable = true) : (s.setRing n a).setRing n b = s.setRing n b := by
  unfold State.setRing Tab.set
  have ea : a ≠ {} := by rintro rfl; cases ha
  have eb : b ≠ {} := by rintro rfl; cases hb
  rw [if_neg ea, if_neg eb, if_neg eb]
  dsimp only
  rw [tab_put_put]

/-- An event leaves every ring but ring 16 as it was. -/
theorem event_ring (code sub data n : Nat) (s : State) (hn : n ≠ 16 ∨ (s.ring 16).runs = false) : (s.event code sub data).ring n = s.ring n := by
  unfold State.event State.deliverEvent
  dsimp only
  rw [show State.ring { s with log := { s.log with next := s.log.next + 1, recs := (s.nextEvent code sub data :: s.log.recs).take 4096 } } 16 = s.ring 16 from rfl]
  split
  · rename_i h
    have hr : (s.ring 16).runs = true := by simp at h; exact h.1
    have hn : n ≠ 16 := by rcases hn with hn | hn; exact hn; rw [hr] at hn; cases hn
    rw [wroteSlots_ring 16 1 _ _ (by exact enable_of_runs hr) n hn]; rfl
  · rfl

/-- With no packet waiting, draining does nothing. -/
theorem drain_of_none_waiting (s : State) (h : ∀ ch ∈ channels, s.waitingOn ch = []) : s.drain = s := by
  have : s.waitingCount = 0 := by
    unfold State.waitingCount
    have : channels.map (fun ch => (s.waitingOn ch).length) = channels.map (fun _ => 0) := List.map_congr_left (fun ch hc => by rw [h ch hc]; rfl)
    rw [this]; simp
  unfold State.drain; rw [this]; rfl

/-- A command that passes every check of R39 has its effect. -/
theorem serve_of_runs {k c bad dt s a f} (h : Runs k c bad dt s a) : (s.advance dt).serve k c bad f = f a := by
  unfold State.serve; rw [h.1, h.2]

/-- A command that runs with sound parameters runs. -/
theorem runs_of_none {k c bad dt s a} (hb : bad = none) (h : Runs k c none dt s a) : Runs k c bad dt s a := by rw [hb]; exact h

/-- Cleat runs while neither core restarts nor is halted. -/
theorem cleatUp_advance {s : State} (h0 : s.procDown 0 = false) (h1 : s.procDown 1 = false) (dt) : (s.advance dt).cleatUp = true := by
  have a0 : (s.advance dt).procDown 0 = s.procDown 0 := rfl
  have a1 : (s.advance dt).procDown 1 = s.procDown 1 := rfl
  unfold State.cleatUp; rw [a0, a1, h0, h1]; rfl

/-- The end of a background command takes effect while Cleat runs. -/
theorem finish_of_cleatUp {s : State} {f} (h : s.cleatUp = true) : s.finish f = (f s).drain := by unfold State.finish; rw [if_pos h]

/-- Reserving transaction identities touches flash and the store alone. -/
theorem reserveTxn_frame (s : State) : { s.reserveTxn with txns := s.txns, flash := s.flash, out := s.out } = s ∧ s.reserveTxn.txns.next = s.txns.next ∧
    s.reserveTxn.txns.open_ = s.txns.open_ := by
  unfold State.reserveTxn State.writeStart; split
  · exact ⟨rfl, rfl, rfl⟩
  · dsimp only; split <;> exact ⟨rfl, rfl, rfl⟩

/-- A version that is inserted stands in the store, alone or merged. -/
theorem mem_insertVersion (v : Version) (vs : List Version) : ∃ w ∈ insertVersion v vs, w.frame = v.frame ∧ (∀ x ∈ v.txns, x ∈ w.txns) ∧ ∀ x ∈ v.objs, x ∈ w.objs := by
  induction vs with
  | nil => exact ⟨v, by simp [insertVersion], rfl, fun _ h => h, fun _ h => h⟩
  | cons w t ih =>
    unfold insertVersion
    split
    · rename_i h
      exact ⟨_, List.mem_cons_self, h, fun x hx => List.mem_append_right _ hx, fun x hx => List.mem_append_right _ hx⟩
    · split
      · exact ⟨v, List.mem_cons_self, rfl, fun _ h => h, fun _ h => h⟩
      · obtain ⟨u, hu, h⟩ := ih
        exact ⟨u, List.mem_cons_of_mem _ hu, h⟩

/-- Versions for other frames stay in the store. -/
theorem insertVersion_keeps (v w : Version) (vs : List Version) (hw : w ∈ vs) (hne : w.frame ≠ v.frame) : w ∈ insertVersion v vs := by
  induction vs with
  | nil => cases hw
  | cons u t ih =>
    unfold insertVersion
    rcases List.mem_cons.mp hw with rfl | hw
    · rw [if_neg hne]; split
      · exact List.mem_cons_of_mem _ List.mem_cons_self
      · exact List.mem_cons_self
    · split
      · exact List.mem_cons_of_mem _ hw
      · split
        · exact List.mem_cons_of_mem _ (List.mem_cons_of_mem _ hw)
        · exact List.mem_cons_of_mem _ (ih hw)

/-- An object that is staged stands in its transaction. -/
theorem mem_putStaged (x : Staged) (l : List Staged) : x ∈ putStaged x l := by
  induction l with
  | nil => simp [putStaged]
  | cons y t ih => unfold putStaged; split <;> simp [ih]

/-- Other objects of the transaction stay staged. -/
theorem putStaged_keeps (x z : Staged) (l : List Staged) (hz : z ∈ l) (hk : stagedKey z.obj ≠ stagedKey x.obj) : z ∈ putStaged x l := by
  induction l with
  | nil => cases hz
  | cons y t ih =>
    unfold putStaged
    rcases List.mem_cons.mp hz with rfl | hz
    · rw [if_neg hk]; exact List.mem_cons_self
    · split
      · exact List.mem_cons_of_mem _ hz
      · exact List.mem_cons_of_mem _ (ih hz)

/-- What the counters hold after one has been set. -/
theorem counter_setCounter (s : State) (b i x v b' i' x' : Nat) (hs : s.Sound) : (State.setCounter b i x v s).counter b' i' x' =
    if counterKey b' i' x' = counterKey b i x then min v 4294967295 else s.counter b' i' x' := by
  have hsorted : Tab.sortedFrom none s.counters = true := (Tab.wf_iff.mp hs.counters_wf).1
  unfold State.setCounter State.counter
  split
  · rename_i h; rw [h, Tab.get_set_same _ _ _ _ hsorted]
  · rename_i h; rw [Tab.get_set_other _ h _ _ hsorted]

/-- Clearing a run of counters clears them and no other. -/
theorem clearCounters_spec (b i : Nat) (l : List Nat) (s : State) (hs : s.Sound) :
    let t := l.foldl (fun s x => State.setCounter b i x 0 s) s
    t.Sound ∧ { t with counters := s.counters } = s ∧ ∀ b' i' x', t.counter b' i' x' =
      if ∃ x ∈ l, counterKey b' i' x' = counterKey b i x then 0 else s.counter b' i' x' := by
  induction l generalizing s with
  | nil => exact ⟨hs, rfl, fun _ _ _ => by simp⟩
  | cons x t ih =>
    have h1 : (State.setCounter b i x 0 s).Sound := (State.keeps_setCounter (keeps_refl s)).1.2.2.2.2.2.2 hs
    obtain ⟨k1, k2, k3⟩ := ih _ h1
    refine ⟨k1, ?_, ?_⟩
    · have := congrArg (fun y : State => { y with counters := s.counters }) k2
      exact this
    · intro b' i' x'
      show State.counter (t.foldl _ (State.setCounter b i x 0 s)) _ _ _ = _
      rw [k3, counter_setCounter _ _ _ _ _ _ _ _ hs]
      by_cases h : counterKey b' i' x' = counterKey b i x
      · rw [if_pos h, if_pos (c := ∃ y ∈ x :: t, counterKey b' i' x' = counterKey b i y) ⟨x, List.mem_cons_self, h⟩]; split <;> rfl
      · rw [if_neg h]
        by_cases h' : ∃ y ∈ t, counterKey b' i' x' = counterKey b i y
        · obtain ⟨y, hy, he⟩ := h'
          rw [if_pos ⟨y, hy, he⟩, if_pos ⟨y, List.mem_cons_of_mem _ hy, he⟩]
        · rw [if_neg h', if_neg]
          rintro ⟨y, hy, he⟩
          rcases List.mem_cons.mp hy with rfl | hy
          · exact h he
          · exact h' ⟨y, hy, he⟩

/-- The blocks of R375 hold at most 13 counters, and instances up to 1,023. -/
theorem counterBlock_bounds {b n lo hi : Nat} (h : counterBlock b = some (n, lo, hi)) : n ≤ 13 ∧ hi ≤ 1023 := by
  unfold counterBlock at h
  split at h <;> first | (injection h with h; injection h with h1 h; injection h with h2 h3; omega) | cases h

/-- Cutting a ring from its background commands touches those commands alone. -/
theorem orphanAll_frame (n : Nat) (s : State) : { s.orphanAll n with bg := s.bg, ing := { (s.orphanAll n).ing with copies := s.ing.copies }, desks := s.desks } = s := rfl

/-- Writing a list of places in host memory writes each, and keeps what was written before. -/
theorem hostWrites_mem (f : Nat → Nat) (g : Nat → List Byte) : ∀ (l : List Nat) (s : State),
    (∀ x ∈ s.out.hostWrites, x ∈ (l.foldl (fun s i => State.hostWrite (f i) (g i) s) s).out.hostWrites) ∧
      ∀ i ∈ l, (f i, g i) ∈ (l.foldl (fun s i => State.hostWrite (f i) (g i) s) s).out.hostWrites := by
  intro l
  induction l with
  | nil => intro s; exact ⟨fun _ h => h, nofun⟩
  | cons a t ih =>
    intro s
    obtain ⟨h1, h2⟩ := ih (s.hostWrite (f a) (g a))
    refine ⟨fun x hx => h1 x (List.mem_cons_of_mem _ hx), fun i hi => ?_⟩
    rcases List.mem_cons.mp hi with rfl | hi
    · exact h1 _ (List.mem_cons_self ..)
    · exact h2 i hi

/-- Slots that are written reach host memory. -/
theorem wroteSlots_writes (n k : Nat) (bs : List Byte) (s : State) (i : Nat) (hi : i < k) :
    ((s.ring n).slotAddr n ((s.ring n).wbProducer + i), inSlots 1 (bs.drop (64 * i))) ∈ (s.wroteSlots n k bs).out.hostWrites := by
  unfold State.wroteSlots
  dsimp only
  have h := (hostWrites_mem (fun i => (s.ring n).slotAddr n ((s.ring n).wbProducer + i)) (fun i => inSlots 1 (bs.drop (64 * i))) (List.range k) s).2 i (List.mem_range.mpr hi)
  generalize (List.range k).foldl _ s = u at h
  generalize hr : (if (decide (n = 16) || decide (n = 17)) = true then _ else _ : Ring) = r
  obtain ⟨g, m, e⟩ := ringInterrupt_frame n (State.hostWrite (s.ring n).wbAddr
    (writeBackBytes { s.ring n with wbProducer := ((s.ring n).wbProducer + k) % 4294967296, wbGeneration := s.snap.generation }) (State.setRing n r u))
  rw [e]
  exact List.mem_cons_of_mem _ h

end Sys2Proof.Machine
end

