-- ==== Sys2Proof/Laws/Clocks.lean ====
section
/-! SUPPORT. What the operations of time leave and write (R66, R253 to R265). -/

namespace Sys2Proof.Machine

open Sys2Proof

/-- A stepped domain moves pulses and their counters, and neither time nor the residual. -/
theorem tpoStepped_frame (b : Nat) (s : State) : { s.tpoStepped b with time := s.time, counters := s.counters } = s ∧
    (∀ d, (s.tpoStepped b).time.domain d = s.time.domain d) ∧ (s.tpoStepped b).time.resid = s.time.resid ∧ (s.tpoStepped b).time.active = s.time.active := by
  unfold State.tpoStepped
  generalize List.range 4 = l
  have key : ∀ (l : List Nat) (u : State), ({ u with time := s.time, counters := s.counters } = s ∧
    (∀ d, u.time.domain d = s.time.domain d) ∧ u.time.resid = s.time.resid ∧ u.time.active = s.time.active) →
    let v := l.foldl (fun s o =>
      let c := s.lay.pulses.get {} (2 + o)
      let x := s.tpoRt o
      if c.mode = 0 || c.mode = 3 || x.done || pulseBase c ≠ b then s
      else
        let from_ := if x.level then x.next + 1 else x.next
        let k := max from_ (firstEdge s.lay.dev.wallRate c (s.baseNs b))
        let s := s.setTpo o { x with next := if from_ < k then (if x.level then k - 1 else k) else x.next, done := decide (c.mode = 1) && decide (from_ < k) }
        s.count 0x0F o 1 (k - from_)) u
    ({ v with time := s.time, counters := s.counters } = s ∧
    (∀ d, v.time.domain d = s.time.domain d) ∧ v.time.resid = s.time.resid ∧ v.time.active = s.time.active) := by
    intro l
    induction l with
    | nil => intro u h; exact h
    | cons x t ih =>
      intro u h
      apply ih
      dsimp only
      split
      · exact h
      · exact h
  exact key l s ⟨rfl, fun _ => rfl, rfl, rfl⟩

/-- A step that keeps a counter from below zero adds its offset. -/
theorem stepDomain_of_nonneg (d : Nat) (off : Int) (a : State) (h : 0 ≤ ((a.time.domain d).units : Int) + off * 4294967296) :
    a.stepDomain d off = a.modDomain d (fun x => { x with units := (((a.time.domain d).units : Int) + off * 4294967296).toNat }) := by
  unfold State.stepDomain
  dsimp only
  rw [if_neg (by show ¬ (((a.time.domain d).units : Int) + off * (nsUnit : Nat) < 0); unfold nsUnit; omega)]
  rfl

/-- A domain reads back what has been set. -/
theorem domain_modDomain_same (d : Nat) (f : Domain → Domain) (a : State) : ((a.modDomain d f).time.domain d) = f (a.time.domain d) := by
  unfold State.modDomain Time.setDomain Time.domain
  by_cases h : d = 0 <;> simp [h]

/-- Setting a domain leaves the other as it was. -/
theorem domain_modDomain_other (d e : Nat) (f : Domain → Domain) (a : State) (hd : d ≤ 1) (he : e ≤ 1) (h : d ≠ e) : ((a.modDomain d f).time.domain e) = a.time.domain e := by
  unfold State.modDomain Time.setDomain Time.domain
  by_cases h0 : d = 0
  · have : e ≠ 0 := by omega
    simp [h0, this]
  · have : e = 0 := by omega
    simp [h0, this]

/-- Setting a domain leaves the residual and the active domain. -/
theorem modDomain_time_frame (d : Nat) (f : Domain → Domain) (a : State) : (a.modDomain d f).time.resid = a.time.resid ∧ (a.modDomain d f).time.active = a.time.active := by
  unfold State.modDomain Time.setDomain
  by_cases h : d = 0 <;> simp [h]

/-- The bound of the residual (R261). -/
theorem residBad_eq (r : Int) : residBad r = decide (1000000000 * 4294967296 < r.natAbs) := by
  unfold residBad residLimit nsUnit
  rw [decide_eq_decide]
  show ((1000000000:Int) * ((4294967296:Nat):Int) < (r.natAbs : Int)) ↔ _
  omega

/-- When TIME_ADJUST refuses a step of the active domain. -/
theorem adjustRefused_active (a : State) (d : Nat) (off : Int) (hda : d = a.time.active) (hne : off ≠ 0) (hag : a.reanchors d off = false) :
    a.adjustRefused d 0 0 off = if 1000000000 * 4294967296 < (a.time.resid + off * 4294967296).natAbs then some 16 else none := by
  unfold State.adjustRefused
  rw [if_neg (by simpa using hda), if_neg (by simp), hag]
  have : residBad (a.time.resid + off * (nsUnit : Nat)) = decide (1000000000 * 4294967296 < (a.time.resid + off * 4294967296).natAbs) := residBad_eq _
  rw [this]
  by_cases h : 1000000000 * 4294967296 < (a.time.resid + off * 4294967296).natAbs
  · rw [if_pos h, if_pos (by simp [hne, h])]
  · rw [if_neg h, if_neg (by simp [hne, h])]

/-- Every wall rate is a positive quotient, and a wall line is longer than a nanosecond. -/
theorem wallRateHz_pos (r : Nat) : 0 < (wallRateHz r).1 ∧ 0 < (wallRateHz r).2 ∧ (wallRateHz r).1 * 4096 < 1000000000 * (wallRateHz r).2 := by
  unfold wallRateHz; split <;> decide

/-- Two changes of a domain are one. -/
theorem modDomain_modDomain (d : Nat) (f g : Domain → Domain) (a : State) : (a.modDomain d f).modDomain d g = a.modDomain d (fun _ => g (f (a.time.domain d))) := by
  unfold State.modDomain Time.setDomain Time.domain
  by_cases h : d = 0 <;> simp [h]

/-- Changes that agree on the domain as it stands are the same. -/
theorem modDomain_congr (d : Nat) (f g : Domain → Domain) (a : State) (h : f (a.time.domain d) = g (a.time.domain d)) : a.modDomain d f = a.modDomain d g := by
  unfold State.modDomain; rw [h]

/-- What forming a sample does to its domain and counters (R258, R259). -/
theorem formSample_spec (d : Nat) (m : PtpMsg) (cor : Int) (u : State) (x : Domain) (hx : u.time.domain d = x) (e : Nat × Int × Int × Int) (he : x.exchange = some e) (hem : e.1 = m.master)
    (o delay : Int) (near : Bool) (hd : delay = (((m.receive - m.origin) * 65536 - cor) + ((e.2.2.1 - e.2.1) * 65536 - e.2.2.2)) / 2)
    (ho : o = (m.receive - m.origin) * 65536 - cor - delay) (hn : near = decide (o.natAbs ≤ (u.domainCfg d).lockNs * 65536)) :
    ∃ y g, u.formSample d m cor = State.count 0x0C d 7 g (State.count 0x0C d 6 1 (u.modDomain d (fun _ => y))) ∧
        y.sampleSeq = x.sampleSeq + 1 ∧
        y.samples = ({ seq := x.sampleSeq + 1, syncId := m.seqId, gm := m.master, t2 := m.receive, offset := o, delay := delay } :: x.samples).take 64 ∧
        y.state = (if x.state = .locked then (if near = false ∧ 3 ≤ x.bad then .holdover else .locked)
          else if near = true ∧ 15 ≤ x.good then .locked else x.state) ∧
        y.units = x.units ∧ y.incr = x.incr ∧ y.gm = x.gm ∧ y.masters = x.masters ∧ y.exchange = x.exchange ∧ y.delayReq = x.delayReq := by
  unfold State.formSample; dsimp only
  rw [hx, he]; dsimp only
  rw [if_neg (by simp [hem])]
  unfold ns16
  rw [← hd, ← ho]
  have hcong := fun f : Domain → Domain => modDomain_congr d f (fun _ => f x) u (by rw [hx])
  rw [hcong]
  refine ⟨_, _, rfl, ?_⟩
  have hj : ∀ (l : Nat) (z : Domain), (Domain.judge u.time.upTicks l o z).sampleSeq = z.sampleSeq ∧ (Domain.judge u.time.upTicks l o z).samples = z.samples ∧ (Domain.judge u.time.upTicks l o z).units = z.units ∧
      (Domain.judge u.time.upTicks l o z).incr = z.incr ∧ (Domain.judge u.time.upTicks l o z).gm = z.gm ∧ (Domain.judge u.time.upTicks l o z).masters = z.masters ∧ (Domain.judge u.time.upTicks l o z).exchange = z.exchange ∧
      (Domain.judge u.time.upTicks l o z).delayReq = z.delayReq ∧ (Domain.judge u.time.upTicks l o z).state = (if z.state = .locked then (if decide ((o.natAbs : Nat) ≤ l * 65536) = false ∧ 3 ≤ z.bad then .holdover else .locked)
          else if decide ((o.natAbs : Nat) ≤ l * 65536) = true ∧ 15 ≤ z.good then .locked else z.state) := by
    intro l z
    unfold Domain.judge
    extract_lets near2 good bad
    by_cases hl : z.state = .locked
    · rw [if_pos hl, if_pos hl]
      by_cases hnr : near2 = true
      · have hb : bad = 0 := if_pos hnr
        rw [if_neg (by omega)]
        refine ⟨rfl, rfl, rfl, rfl, rfl, rfl, rfl, rfl, ?_⟩
        rw [if_neg (by rw [show decide ((o.natAbs : Nat) ≤ l * 65536) = near2 from rfl, hnr]; simp)]; exact hl
      · have hb : bad = z.bad + 1 := if_neg hnr
        by_cases h3 : 3 ≤ z.bad
        · rw [if_pos (by omega)]
          refine ⟨rfl, rfl, rfl, rfl, rfl, rfl, rfl, rfl, ?_⟩
          rw [if_pos ⟨by rw [show decide ((o.natAbs : Nat) ≤ l * 65536) = near2 from rfl]; simpa using hnr, h3⟩]
        · rw [if_neg (by omega)]
          refine ⟨rfl, rfl, rfl, rfl, rfl, rfl, rfl, rfl, ?_⟩
          rw [if_neg (by rintro ⟨-, h⟩; exact h3 h)]; exact hl
    · rw [if_neg hl, if_neg hl]
      by_cases hnr : near2 = true
      · have hg : good = z.good + 1 := if_pos hnr
        by_cases h3 : 15 ≤ z.good
        · rw [if_pos (by omega)]
          refine ⟨rfl, rfl, rfl, rfl, rfl, rfl, rfl, rfl, ?_⟩
          rw [if_pos ⟨hnr, h3⟩]
        · rw [if_neg (by omega)]
          refine ⟨rfl, rfl, rfl, rfl, rfl, rfl, rfl, rfl, ?_⟩
          rw [if_neg (by rintro ⟨-, h⟩; exact h3 h)]
      · have hg : good = 0 := if_neg hnr
        rw [if_neg (by omega)]
        refine ⟨rfl, rfl, rfl, rfl, rfl, rfl, rfl, rfl, ?_⟩
        rw [if_neg (by rintro ⟨h, -⟩; exact hnr h)]
  obtain ⟨j1, j2, j3, j4, j5, j6, j7, j8, j9⟩ := hj (u.domainCfg d).lockNs _
  refine ⟨j1, j2, ?_, j3, j4, j5, j6, j7.trans he, j8⟩
  rw [j9, hn]

end Sys2Proof.Machine
end

