-- ==== Sys2Proof/Laws/Flows.lean ====
section
/-! SUPPORT. What the operations of ingest leave and write (R89 to R111). -/

namespace Sys2Proof.Machine

open Sys2Proof

/-- A flow reads back what has been set. -/
theorem flowRt_modFlow (f : Nat) (g : FlowRt → FlowRt) (s : State) (h : g (s.flowRt f) ≠ {}) : (s.modFlow f g).flowRt f = g (s.flowRt f) := by
  unfold State.flowRt State.modFlow Tab.modify
  exact tab_get_set_same _ _ _ _ h

/-- A source reads back what has been set. -/
theorem srcRt_modSrc (i : Nat) (g : SourceRt → SourceRt) (s : State) (h : g (s.srcRt i) ≠ {}) : (s.modSrc i g).srcRt i = g (s.srcRt i) := by
  unfold State.srcRt State.modSrc Tab.modify
  exact tab_get_set_same _ _ _ _ h

/-- An untouched source has no frame that waits for its seal. -/
theorem ready_of_default {s : State} {i : Nat} {g : SourceRt} (h : g = {}) (hs : s.srcRt i = g) : (s.srcRt i).ready = [] := by rw [hs, h]

/-- Changing a source touches the sources alone. -/
theorem modSrc_frame (i : Nat) (g : SourceRt → SourceRt) (s : State) : ∃ x, s.modSrc i g = { s with ing := { s.ing with sources := x } } := ⟨_, rfl⟩

/-- Closing a frame of an uncompressed flow touches the sources alone. -/
theorem closeType3_frame (k : Nat) (c : FlowCfg) (f : OpenFrame) (s : State) : ∃ x, s.closeType3 k c f = { s with ing := { s.ing with sources := x } } := by
  unfold State.closeType3
  cases f.buf with
  | none => exact ⟨s.ing.sources, rfl⟩
  | some b =>
    dsimp only
    unfold State.concealRuns State.modBuf State.makeReady
    dsimp only
    obtain ⟨x, hx⟩ := modSrc_frame c.target _ s
    rw [hx]
    obtain ⟨y, hy⟩ := modSrc_frame c.target _ { s with ing := { s.ing with sources := x } }
    rw [hy]
    exact ⟨y, rfl⟩

/-- Where no strand is to take the hold back, scheduling the Braid touches the Braid alone. -/
theorem schedule_frame (s : State) (h : s.braid.takeBack = false) : ∃ g, s.schedule = { s with braid := g } := by
  unfold State.schedule
  split
  · exact ⟨s.braid, rfl⟩
  · have ht : s.takeBackNow = { s with braid := { s.braid with takeBack := false } } := by
      unfold State.takeBackNow; dsimp only; rw [if_neg (by simp [h])]
    dsimp only
    rw [ht]
    split
    · exact ⟨_, rfl⟩
    · exact ⟨_, rfl⟩

/-- A seal reaches a row of tiles in the Braid alone. -/
theorem sealRow_frame (i : Nat) (c d k) (s : State) : ∃ g, s.sealRow i c d k = { s with braid := g } := by
  have : s.sealRow i c d k = s ∨ ∃ f, s.sealRow i c d k = s.modRow k f := by
    unfold State.sealRow
    dsimp only
    by_cases h : ((s.row k).takesSeals && s.composes (k / 128) && !(match d with | none => false | some d => !frameLe d.1 d.2 (s.row k).frame (s.row k).half) &&
      !(tilesShowing (s.layoutFor (s.row k).frame) (k / 128) (k % 128) i).isEmpty) = true
    · exact .inr ⟨_, if_pos h⟩
    · exact .inl (if_neg h)
  rcases this with h | ⟨f, h⟩
  · exact ⟨s.braid, h⟩
  · exact ⟨_, h⟩

/-- Where no strand is to take the hold back, a seal reaches the Braid alone. -/
theorem sealArrived_frame (i : Nat) (c d) (s : State) (h : s.braid.takeBack = false) : ∃ g, s.sealArrived i c d = { s with braid := g } := by
  have hr : ∀ k (u : State), ∃ g, u.sealRow i c d k = { u with braid := g } ∧ g.takeBack = u.braid.takeBack := by
    intro k u
    unfold State.sealRow
    dsimp only
    split
    · split
      · exact ⟨_, rfl, rfl⟩
      · exact ⟨u.braid, rfl, rfl⟩
    · split
      · exact ⟨_, rfl, rfl⟩
      · exact ⟨u.braid, rfl, rfl⟩
  have hf : ∀ (l : List (Nat × RowRt)) (u : State), ∃ g, l.foldl (fun u e => u.sealRow i c d e.1) u = { u with braid := g } ∧ g.takeBack = u.braid.takeBack := by
    intro l
    induction l with
    | nil => intro u; exact ⟨u.braid, rfl, rfl⟩
    | cons x l ih =>
      intro u
      obtain ⟨g, hg, hg'⟩ := hr x.1 u
      obtain ⟨g2, hg2, hg3⟩ := ih (u.sealRow i c d x.1)
      refine ⟨g2, by rw [List.foldl_cons, hg2, hg], ?_⟩
      rw [hg3, hg]; exact hg'
  obtain ⟨g, hg, hg'⟩ := hf s.braid.rows s
  obtain ⟨g2, hg2⟩ := schedule_frame (s.braid.rows.foldl (fun u e => u.sealRow i c d e.1) s) (by rw [hg]; exact hg'.trans h)
  exact ⟨g2, by unfold State.sealArrived; rw [hg2, hg]⟩

/-- What follows a seal touches counters, the Stopper and the points. -/
theorem sealTail_frame (i : Nat) (fl : Option Nat) (x : Seal) (d : Option (Nat × Nat × Nat)) (s : State) :
    ∃ c st pt, (((s.countSeal i fl x).noteOverlay i x.seq d).whipSeal x) = { s with counters := c, stop := st, pts := pt } := by
  have h1 : ∃ c, s.countSeal i fl x = { s with counters := c } := by
    have hc : ∀ (b i j n : Nat) (u : State), ∃ c, u.count b i j n = { u with counters := c } := fun _ _ _ _ _ => ⟨_, rfl⟩
    have hi : ∀ (p : Bool) (b i j n : Nat) (u : State), ∃ c, (if p then u.count b i j n else u) = { u with counters := c } := by
      intro p b i j n u; cases p
      · exact ⟨u.counters, rfl⟩
      · exact hc _ _ _ _ _
    obtain ⟨c1, e1⟩ := hc 0x16 i 0 1 s
    obtain ⟨c2, e2⟩ := hi x.repeated 0x16 i 2 1 { s with counters := c1 }
    obtain ⟨c3, e3⟩ := hi x.frozen 0x16 i 3 1 { s with counters := c2 }
    have : s.countSeal i fl x = (match fl with | none => { s with counters := c3 } | some f => ({ s with counters := c3 } : State).countFlow (s.lay.flows.get {} f) f 8 1) := by
      unfold State.countSeal; dsimp only; rw [e1, e2, e3]; try rfl
    rw [this]
    cases fl with
    | none => exact ⟨c3, rfl⟩
    | some f =>
      unfold State.countFlow; dsimp only
      split <;> exact ⟨_, rfl⟩
  obtain ⟨c, h1⟩ := h1
  rw [h1]
  cases d with
  | none => exact ⟨c, _, s.pts, rfl⟩
  | some d => exact ⟨c, _, _, rfl⟩

/-- Clock recovery touches the lanes alone. -/
theorem setCdr_frame : ∀ (lns : List Nat) b (u : State), { u.setCdr lns b with lanes := u.lanes } = u ∧ (u.setCdr lns b).ing = u.ing := by
  intro lns b
  unfold State.setCdr
  induction lns with
  | nil => intro u; exact ⟨rfl, rfl⟩
  | cons x t ih =>
    intro u
    obtain ⟨h1, h2⟩ := ih (u.modLane x (fun x => { x with cdrLocked := b }))
    refine ⟨?_, h2⟩
    have := congrArg (fun y : State => { y with lanes := u.lanes }) h1
    exact this

end Sys2Proof.Machine
end

