-- ==== Sys2Proof/Laws/Desks.lean ====
section
/-! SUPPORT. What the operations of touch leave and write (R268 to R289). -/

namespace Sys2Proof.Machine

open Sys2Proof

/-- A desk reads back what has been set. -/
theorem desk_modDesk_same (d : Nat) (g : DeskRt → DeskRt) (s : State) (h : g (s.desk d) ≠ {}) : (s.modDesk d g).desk d = g (s.desk d) := by
  unfold State.desk State.modDesk Tab.modify
  exact tab_get_set_same _ _ _ _ h

/-- Changing a desk leaves the others as they were. -/
theorem desk_modDesk_other (d e : Nat) (g : DeskRt → DeskRt) (s : State) (h : g (s.desk d) ≠ {}) (he : e ≠ d) : (s.modDesk d g).desk e = s.desk e := by
  unfold State.desk State.modDesk Tab.modify Tab.set
  rw [if_neg (by exact h)]
  exact tab_get_put_other _ _ _ _ _ he

/-- A desk that is not OFF has been touched. -/
theorem desk_ne_default {k : DeskRt} (h : k.state ≠ .off) : k ≠ {} := by
  intro he; exact h (congrArg DeskRt.state he)

/-- No desk has a save of a baseline under way. -/
def NoSave (s : State) : Prop := ∀ e ∈ s.desks, e.2.baseOp = none

/-- A desk of such a state has no save. -/
theorem noSave_get {s : State} (h : NoSave s) (d : Nat) : (s.desk d).baseOp = none := by
  have : ∀ (t : Tab DeskRt), (∀ e ∈ t, e.2.baseOp = none) → (Tab.get {} d t).baseOp = none := by
    intro t
    induction t with
    | nil => intro _; rfl
    | cons x t ih =>
      intro hx
      have h1 := ih (fun e he => hx e (List.mem_cons_of_mem _ he))
      have h2 := hx x (List.mem_cons_self ..)
      unfold Tab.get
      by_cases hk : x.1 = d
      · rw [if_pos hk]; exact h2
      · rw [if_neg hk]
        split
        · rfl
        · exact h1
  exact this _ h

/-- A change without a save keeps that. -/
theorem noSave_mod {s : State} (h : NoSave s) (d : Nat) (g : DeskRt → DeskRt) (hg : (g (s.desk d)).baseOp = none) : NoSave (s.modDesk d g) := by
  intro e he
  rcases Tab.mem_set (d := ({} : DeskRt)) he with rfl | h1
  · exact hg
  · exact h e h1

/-- What changes and what stays when a row works on desk `d`. -/
structure DeskStep (d : Nat) (s u : State) : Prop where
  oth : ∀ e, e ≠ d → u.desk e = s.desk e
  st : (u.desk d).state = (s.desk d).state
  inf : (u.desk d).inFrame = (s.desk d).inFrame
  run : (u.desk d).discardRun = (s.desk d).discardRun
  cfg : (u.desk d).cfg = (s.desk d).cfg
  base : (u.desk d).baseOp = (s.desk d).baseOp
  lck : (u.desk d).locked = (s.desk d).locked
  nodes : (u.desk d).nodes.map (fun n => (n.ms, n.y)) = (s.desk d).nodes.map (fun n => (n.ms, n.y))
  nos : NoSave s → NoSave u
  frame : { u with desks := s.desks, counters := s.counters, rings := s.rings, out := s.out } = s

/-- Nothing done is such a step. -/
theorem DeskStep.refl (d : Nat) (s : State) : DeskStep d s s := ⟨fun _ _ => rfl, rfl, rfl, rfl, rfl, rfl, rfl, rfl, id, rfl⟩

/-- Two such steps are one. -/
theorem DeskStep.trans {d : Nat} {s u v : State} (h : DeskStep d s u) (h2 : DeskStep d u v) : DeskStep d s v := by
  refine ⟨fun e he => (h2.oth e he).trans (h.oth e he), h2.st.trans h.st, h2.inf.trans h.inf, h2.run.trans h.run, h2.cfg.trans h.cfg, h2.base.trans h.base, h2.lck.trans h.lck,
    h2.nodes.trans h.nodes, fun x => h2.nos (h.nos x), ?_⟩
  have h3 := congrArg (fun y : State => { y with desks := s.desks, counters := s.counters, rings := s.rings, out := s.out }) h2.frame
  exact h3.trans h.frame

/-- A change of the desk that keeps what the step keeps. -/
theorem DeskStep.mod {d : Nat} {s u : State} (h : DeskStep d s u) (hs : (s.desk d).state ≠ .off) (g : DeskRt → DeskRt)
    (h1 : (g (u.desk d)).state = (u.desk d).state) (h2 : (g (u.desk d)).inFrame = (u.desk d).inFrame) (h3 : (g (u.desk d)).discardRun = (u.desk d).discardRun)
    (h4 : (g (u.desk d)).cfg = (u.desk d).cfg) (h5 : (g (u.desk d)).baseOp = (u.desk d).baseOp) (h6 : (g (u.desk d)).locked = (u.desk d).locked)
    (h7 : (g (u.desk d)).nodes.map (fun n => (n.ms, n.y)) = (u.desk d).nodes.map (fun n => (n.ms, n.y))) : DeskStep d s (u.modDesk d g) := by
  have hne : g (u.desk d) ≠ {} := desk_ne_default (by rw [h1, h.st]; exact hs)
  refine h.trans ⟨fun e he => desk_modDesk_other _ _ _ _ hne he, ?_, ?_, ?_, ?_, ?_, ?_, ?_, fun hn => noSave_mod hn _ _ (by rw [h5]; exact noSave_get hn d), rfl⟩ <;> rw [desk_modDesk_same _ _ _ hne] <;> assumption

/-- Counting is such a step. -/
theorem DeskStep.count {d : Nat} {s u : State} (h : DeskStep d s u) (b i x n : Nat) : DeskStep d s (u.count b i x n) :=
  h.trans ⟨fun _ _ => rfl, rfl, rfl, rfl, rfl, rfl, rfl, rfl, id, rfl⟩

/-- A report is such a step. -/
theorem DeskStep.report {d : Nat} {s u : State} (h : DeskStep d s u) (hs : (s.desk d).state ≠ .off) (r : TouchReport) (hr : r.desk = d) : DeskStep d s (u.report r) := by
  unfold State.report
  subst hr
  refine DeskStep.mod ?_ hs _ rfl rfl rfl rfl rfl rfl rfl
  unfold State.putReport
  extract_lets r1 src v q
  have hv : DeskStep r.desk s v := h.trans ⟨fun _ _ => rfl, rfl, rfl, rfl, rfl, rfl, rfl, rfl, id, rfl⟩
  have hd : r1.desk = r.desk := rfl
  clear_value v
  split
  · obtain ⟨g, m, w, hw⟩ := wroteSlots_frame 17 1 (touchBytes r1) ({ v with out := { v.out with touch := r1 :: v.out.touch } } : State)
    rw [hw]
    exact hv.trans ⟨fun _ _ => rfl, rfl, rfl, rfl, rfl, rfl, rfl, rfl, id, rfl⟩
  · split
    · rw [hd]; exact DeskStep.mod hv hs _ rfl rfl rfl rfl rfl rfl rfl
    · exact hv.count _ _ _ _

/-- Reports of contacts are such a step. -/
theorem DeskStep.reports {d : Nat} {s u : State} (h : DeskStep d s u) (hs : (s.desk d).state ≠ .off) (f : State → Contact → TouchReport) (hf : ∀ s c, (f s c).desk = d) :
    ∀ (l : List Contact), DeskStep d s (l.foldl (fun s c => s.report (f s c)) u) := by
  intro l
  induction l generalizing u with
  | nil => exact h
  | cons x l ih => exact ih (DeskStep.report h hs _ (hf _ x))

/-- A report moves the desk's report number on and nothing of what it follows. -/
theorem report_desk {d : Nat} (u : State) (hs : (u.desk d).state ≠ .off) (r : TouchReport) (hr : r.desk = d) :
    { (u.report r).desk d with held := (u.desk d).held, reportSeq := (u.desk d).reportSeq } = u.desk d ∧ ((u.report r).desk d).reportSeq = (u.desk d).reportSeq + 1 := by
  subst hr
  unfold State.report
  have hp : ((u.putReport { r with seq := (u.desk r.desk).reportSeq }).desk r.desk) = { u.desk r.desk with held := ((u.putReport { r with seq := (u.desk r.desk).reportSeq }).desk r.desk).held } := by
    unfold State.putReport
    extract_lets r1 src v q
    have hd : r1.desk = r.desk := rfl
    have hv : v.desk r.desk = u.desk r.desk := rfl
    clear_value v
    split
    · obtain ⟨g, m, w, hw⟩ := wroteSlots_frame 17 1 (touchBytes r1) ({ v with out := { v.out with touch := r1 :: v.out.touch } } : State)
      rw [hw]
      show v.desk r.desk = { u.desk r.desk with held := (v.desk r.desk).held }
      rw [hv]
    · split
      · rw [hd, desk_modDesk_same _ _ _ (desk_ne_default (by rw [hv]; exact hs)), hv]
      · show v.desk r.desk = { u.desk r.desk with held := (v.desk r.desk).held }
        rw [hv]
  have hne : (u.putReport { r with seq := (u.desk r.desk).reportSeq }).desk r.desk = (u.putReport { r with seq := (u.desk r.desk).reportSeq }).desk r.desk := rfl
  rw [desk_modDesk_same _ _ _ (desk_ne_default (by rw [hp]; exact hs))]
  rw [hp]
  exact ⟨rfl, rfl⟩

/-- What a change of a desk's state does (R287). -/
theorem deskState_spec {d : Nat} (s : State) (st : DeskState) (hs : (s.desk d).state ≠ .off) (hst : st ≠ .off) (hne : (s.desk d).state ≠ st) :
    (∀ e, e ≠ d → (s.deskState d st).desk e = s.desk e) ∧ ((s.deskState d st).desk d).state = st ∧ ((s.deskState d st).desk d).inFrame = false ∧
    ((s.deskState d st).desk d).discardRun = 0 ∧ ((s.deskState d st).desk d).cfg = (s.desk d).cfg ∧ ((s.deskState d st).desk d).baseOp = (s.desk d).baseOp ∧
    ((s.deskState d st).desk d).locked = (s.desk d).locked ∧ (NoSave s → NoSave (s.deskState d st)) ∧
    { s.deskState d st with desks := s.desks, counters := s.counters, rings := s.rings, out := s.out, free := s.free } = s ∧
    ((s.deskState d st).desk d).contacts = (if (s.desk d).state = .active then [] else (s.desk d).contacts) ∧
    ((s.desk d).state ≠ .active → st ≠ .active → { (s.deskState d st).desk d with held := (s.desk d).held } =
      { s.desk d with state := st, inFrame := false, discardRun := 0, reportSeq := (s.desk d).reportSeq + 1 }) := by
  let c : State := if (s.desk d).state = .active then (s.cancelContacts d).modDesk d (fun k => { k with nodes := [], masks := [] }) else s
  have hc : (∀ e, e ≠ d → c.desk e = s.desk e) ∧ (c.desk d).state = (s.desk d).state ∧ (c.desk d).cfg = (s.desk d).cfg ∧ (c.desk d).baseOp = (s.desk d).baseOp ∧
      (c.desk d).locked = (s.desk d).locked ∧ (NoSave s → NoSave c) ∧ { c with desks := s.desks, counters := s.counters, rings := s.rings, out := s.out } = s ∧
      (c.desk d).contacts = (if (s.desk d).state = .active then [] else (s.desk d).contacts) ∧ ((s.desk d).state ≠ .active → c.desk d = s.desk d) := by
    by_cases ha : (s.desk d).state = .active
    · have hcc : c = (s.cancelContacts d).modDesk d (fun k => { k with nodes := [], masks := [] }) := if_pos ha
      have h1 := DeskStep.reports (DeskStep.refl d s) hs (fun s c => s.mkTouch d 7 c false 0 0 0) (fun _ _ => rfl) (s.desk d).contacts
      have h2 : DeskStep d s (s.cancelContacts d) := DeskStep.mod h1 hs _ rfl rfl rfl rfl rfl rfl rfl
      have hcon : ((s.cancelContacts d).desk d).contacts = [] := by
        unfold State.cancelContacts
        rw [desk_modDesk_same _ _ _ (desk_ne_default (by rw [h1.st]; exact hs))]
      have hne2 : ((fun k : DeskRt => { k with nodes := [], masks := [] }) ((s.cancelContacts d).desk d)) ≠ {} := desk_ne_default (by rw [h2.st]; exact hs)
      rw [hcc]
      refine ⟨fun e he => (desk_modDesk_other _ _ _ _ hne2 he).trans (h2.oth e he), ?_, ?_, ?_, ?_, fun hn => noSave_mod (h2.nos hn) _ _ (by exact noSave_get (h2.nos hn) d), ?_, ?_, fun h => absurd ha h⟩
      · rw [desk_modDesk_same _ _ _ hne2]; exact h2.st
      · rw [desk_modDesk_same _ _ _ hne2]; exact h2.cfg
      · rw [desk_modDesk_same _ _ _ hne2]; exact h2.base
      · rw [desk_modDesk_same _ _ _ hne2]; exact h2.lck
      · exact h2.frame
      · rw [desk_modDesk_same _ _ _ hne2, if_pos ha]; exact hcon
    · have hcc : c = s := if_neg ha
      rw [hcc]
      exact ⟨fun _ _ => rfl, rfl, rfl, rfl, rfl, id, rfl, by rw [if_neg ha], fun _ => rfl⟩
  obtain ⟨c1, c2, c3, c4, c5, c6, c7, c8, c9⟩ := hc
  let m : State := (c.takeFree.2).modDesk d (fun k => { k with state := st, inFrame := false, discardRun := 0, frame := if st = .active then 0 else k.frame })
  have hg : ((fun k : DeskRt => { k with state := st, inFrame := false, discardRun := 0, frame := if st = DeskState.active then 0 else k.frame }) (c.desk d)) ≠ ({} : DeskRt) := desk_ne_default hst
  have hm : m.desk d = (fun k : DeskRt => { k with state := st, inFrame := false, discardRun := 0, frame := if st = .active then 0 else k.frame }) (c.desk d) := desk_modDesk_same _ _ _ hg
  have hmo : ∀ e, e ≠ d → m.desk e = s.desk e := fun e he => (desk_modDesk_other _ _ _ _ hg he).trans (c1 e he)
  have hmst : (m.desk d).state = st := by rw [hm]
  have e1 : ∃ r : TouchReport, r.desk = d ∧ s.deskState d st = m.report r := by
    refine ⟨{ type := 8, desk := d, frame := (m.desk d).frame, time := m.wallNs, head := (m.desk d).cfg.head,
               status := st.code + 256 * (c.takeFree.1 % 256), notLive := !(m.headRt (m.desk d).cfg.head).begunLive || decide (m.dev = .safe) }, rfl, ?_⟩
    unfold State.deskState; rw [if_neg hne]
  obtain ⟨r, hr, e1⟩ := e1
  have hstep := DeskStep.report (DeskStep.refl d m) (by rw [hmst]; exact hst) r hr
  have hcr := report_desk m (by rw [hmst]; exact hst) r hr
  have hmn : NoSave s → NoSave m := fun hn => noSave_mod (s := c.takeFree.2) (c6 hn) _ _ (by exact noSave_get (c6 hn) d)
  rw [e1]
  refine ⟨fun e he => (hstep.oth e he).trans (hmo e he), by rw [hstep.st, hmst], by rw [hstep.inf, hm], by rw [hstep.run, hm], by rw [hstep.cfg, hm]; exact c3,
    by rw [hstep.base, hm]; exact c4, by rw [hstep.lck, hm]; exact c5, fun hn => hstep.nos (hmn hn), ?_, ?_, ?_⟩
  · have h3 := congrArg (fun y : State => { y with desks := s.desks, counters := s.counters, rings := s.rings, out := s.out, free := s.free }) hstep.frame
    refine h3.trans ?_
    have h4 := congrArg (fun y : State => { y with free := s.free }) c7
    exact h4
  · have := congrArg DeskRt.contacts hcr.1
    refine Eq.trans this ?_
    rw [hm]; exact c8
  · intro ha hsa
    have h1 : { (m.report r).desk d with held := (s.desk d).held } = { m.desk d with held := (s.desk d).held, reportSeq := (m.desk d).reportSeq + 1 } := by
      have h5 := congrArg (fun y : DeskRt => { y with held := (s.desk d).held, reportSeq := (m.desk d).reportSeq + 1 }) hcr.1
      dsimp only at h5
      rw [← hcr.2] at h5
      rw [← hcr.2]
      exact h5
    rw [h1, hm, c9 ha]
    dsimp only
    rw [if_neg hsa]

/-- Without a save there is none to end. -/
theorem endSaves_of_noSave {s : State} (h : NoSave s) : s.endSaves = s := by
  unfold State.endSaves
  rw [List.filter_eq_nil_iff.mpr]
  · rfl
  · intro e he; rw [h e he]; simp

/-- Anti-touch is such a step. -/
theorem DeskStep.antiTouch {d : Nat} {s u : State} (h : DeskStep d s u) (hs : (s.desk d).state ≠ .off) : DeskStep d s (u.antiTouch d) := by
  unfold State.antiTouch; dsimp only
  refine ((DeskStep.mod h hs _ rfl rfl rfl rfl rfl rfl ?_).count _ _ _ _).count _ _ _ _
  dsimp only
  exact map_mapIdx_eq _ _ _ (fun i n => by split <;> rfl)

/-- Tracking is such a step, and reports of its desk. -/
theorem DeskStep.track {d : Nat} {s u : State} (h : DeskStep d s u) (hs : (s.desk d).state ≠ .off) (ds b) :
    DeskStep d s (u.track d ds b).1 ∧ ∀ r ∈ (u.track d ds b).2, r.desk = d := by
  unfold State.track; dsimp only
  refine ⟨(DeskStep.mod h hs _ rfl rfl rfl rfl rfl rfl rfl).count _ _ _ _, ?_⟩
  intro r hr
  simp only [List.mem_append, List.mem_map, List.mem_filterMap] at hr
  rcases hr with (⟨x, -, rfl⟩ | ⟨x, -, hx⟩) | ⟨x, -, rfl⟩
  · rfl
  · split at hx
    · cases hx; rfl
    · rw [Option.map_eq_some_iff] at hx
      obtain ⟨y, -, rfl⟩ := hx
      rfl
  · rfl

/-- Baseline tracking is such a step. -/
theorem DeskStep.settle {d : Nat} {s u : State} (h : DeskStep d s u) (hs : (s.desk d).state ≠ .off) (ds) : DeskStep d s (u.settleNodes d ds) := by
  unfold State.settleNodes; dsimp only
  refine ((DeskStep.mod h hs _ rfl rfl rfl rfl rfl rfl ?_).count _ _ _ _).count _ _ _ _
  dsimp only
  exact map_mapIdx_eq _ _ _ (fun i n => rfl)

/-- Held objects are such a step, and reports of its desk. -/
theorem DeskStep.hold {d : Nat} {s u : State} (h : DeskStep d s u) (hs : (s.desk d).state ≠ .off) (ds) :
    DeskStep d s (u.holdObjects d ds).1 ∧ ∀ r ∈ (u.holdObjects d ds).2, r.desk = d := by
  unfold State.holdObjects; dsimp only
  refine ⟨(DeskStep.mod h hs _ rfl rfl rfl rfl rfl rfl rfl).count _ _ _ _, ?_⟩
  intro r hr
  rw [List.mem_map] at hr
  obtain ⟨x, -, rfl⟩ := hr
  rfl

/-- Sorting in a report adds that report alone. -/
theorem mem_insertReport (r x : TouchReport) (l : List TouchReport) (h : x ∈ insertReport r l) : x = r ∨ x ∈ l := by
  induction l with
  | nil => unfold insertReport at h; simp at h; exact .inl h
  | cons q t ih =>
    unfold insertReport at h
    split at h
    · rcases List.mem_cons.mp h with h | h
      · exact .inl h
      · exact .inr h
    · rcases List.mem_cons.mp h with h | h
      · exact .inr (h ▸ List.mem_cons_self ..)
      · rcases ih h with h | h
        · exact .inl h
        · exact .inr (List.mem_cons_of_mem _ h)

/-- Delivering reports is such a step. -/
theorem DeskStep.reportAll {d : Nat} {s u : State} (h : DeskStep d s u) (hs : (s.desk d).state ≠ .off) (rs : List TouchReport) (hr : ∀ r ∈ rs, r.desk = d) :
    DeskStep d s (u.reportAll rs) := by
  unfold State.reportAll
  have h1 : ∀ (l acc : List TouchReport), (∀ r ∈ l, r.desk = d) → (∀ r ∈ acc, r.desk = d) → ∀ r ∈ l.foldl (fun a r => insertReport r a) acc, r.desk = d := by
    intro l
    induction l with
    | nil => intro acc _ h2; exact h2
    | cons x l ih =>
      intro acc h1 h2
      refine ih _ (fun r hr => h1 r (List.mem_cons_of_mem _ hr)) (fun r hr => ?_)
      rcases mem_insertReport _ _ _ hr with rfl | hr
      · exact h1 _ (List.mem_cons_self ..)
      · exact h2 _ hr
  have h2 := h1 rs [] hr (by simp)
  generalize rs.foldl (fun a r => insertReport r a) [] = l at h2
  induction l generalizing u with
  | nil => exact h
  | cons x l ih => exact ih (DeskStep.report h hs x (h2 x (List.mem_cons_self ..))) (fun r hr => h2 r (List.mem_cons_of_mem _ hr))

/-- A touch frame is such a step. -/
theorem DeskStep.runFrame {d : Nat} {s : State} (hs : (s.desk d).state ≠ .off) (b : Bool) : DeskStep d s (s.runFrame d b) := by
  unfold State.runFrame; dsimp only
  have h1 := DeskStep.antiTouch (DeskStep.refl d s) hs
  obtain ⟨h2, r2⟩ := DeskStep.track h1 hs (((s.antiTouch d).desk d).nodes.map Node.delta) b
  have h3 := DeskStep.settle h2 hs (((s.antiTouch d).desk d).nodes.map Node.delta)
  obtain ⟨h4, r4⟩ := DeskStep.hold h3 hs (((s.antiTouch d).desk d).nodes.map Node.delta)
  refine DeskStep.reportAll h4 hs _ (fun r hr => ?_)
  rcases List.mem_append.mp hr with hr | hr
  · exact r2 r hr
  · exact r4 r hr

end Sys2Proof.Machine
end

