-- ==== Sys2Proof/Laws/Codec.lean ====
section
/-! SUPPORT. What the operations of decoding and encoding leave and write (R117 to R141, R231 to R252). -/

namespace Sys2Proof.Machine

open Sys2Proof

/-- A decode context reads back what has been set. -/
theorem ctxRt_modCtx (c : Nat) (g : CtxRt → CtxRt) (s : State) (h : g (s.ctxRt c) ≠ {}) : (s.modCtx c g).ctxRt c = g (s.ctxRt c) := by
  unfold State.ctxRt State.modCtx Tab.modify
  exact tab_get_set_same _ _ _ _ h

/-- What stays when a picture of context `c` ends. -/
structure CtxStep (c : Nat) (s u : State) : Prop where
  cfg : (u.ctxRt c).cfg = (s.ctxRt c).cfg
  pic : (u.ctxRt c).picCount = (s.ctxRt c).picCount
  wr : (u.ctxRt c).writing = (s.ctxRt c).writing
  q : (u.ctxRt c).queue = (s.ctxRt c).queue
  st : (u.ctxRt c).state = (s.ctxRt c).state
  rs : (u.ctxRt c).resync = (s.ctxRt c).resync
  frame : { u with dec := { u.dec with ctxs := s.dec.ctxs }, ing := s.ing, counters := s.counters } = s

/-- Nothing done is such a step. -/
theorem CtxStep.refl (c : Nat) (s : State) : CtxStep c s s := ⟨rfl, rfl, rfl, rfl, rfl, rfl, rfl⟩

/-- Two such steps are one. -/
theorem CtxStep.trans {c : Nat} {s u v : State} (h : CtxStep c s u) (g : CtxStep c u v) : CtxStep c s v := by
  refine ⟨g.cfg.trans h.cfg, g.pic.trans h.pic, g.wr.trans h.wr, g.q.trans h.q, g.st.trans h.st, g.rs.trans h.rs, ?_⟩
  have h3 := congrArg (fun y : State => { y with dec := { y.dec with ctxs := s.dec.ctxs }, ing := s.ing, counters := s.counters }) g.frame
  exact h3.trans h.frame

/-- An enabled context has been touched. -/
theorem ctxRt_ne_default {k : CtxRt} (h : k.cfg.enable = true) : k ≠ {} := by intro he; rw [he] at h; cases h

/-- A change of the context that keeps what the step keeps. -/
theorem CtxStep.mod {c : Nat} {s u : State} (h : CtxStep c s u) (he : (s.ctxRt c).cfg.enable = true) (g : CtxRt → CtxRt)
    (hg : ∀ k, (g k).cfg = k.cfg ∧ (g k).picCount = k.picCount ∧ (g k).writing = k.writing ∧ (g k).queue = k.queue ∧ (g k).state = k.state ∧ (g k).resync = k.resync) : CtxStep c s (u.modCtx c g) := by
  have hn : g (u.ctxRt c) ≠ {} := ctxRt_ne_default (by rw [(hg _).1, h.cfg]; exact he)
  refine h.trans ⟨?_, ?_, ?_, ?_, ?_, ?_, rfl⟩ <;> rw [ctxRt_modCtx _ _ _ hn]
  · exact (hg _).1
  · exact (hg _).2.1
  · exact (hg _).2.2.1
  · exact (hg _).2.2.2.1
  · exact (hg _).2.2.2.2.1
  · exact (hg _).2.2.2.2.2

/-- Counting is such a step. -/
theorem CtxStep.count {c : Nat} {s u : State} (h : CtxStep c s u) (b i x n : Nat) : CtxStep c s (u.count b i x n) := h.trans ⟨rfl, rfl, rfl, rfl, rfl, rfl, rfl⟩

/-- Putting a picture out is such a step. -/
theorem CtxStep.outputPic {c : Nat} {s u : State} (h : CtxStep c s u) (he : (s.ctxRt c).cfg.enable = true) (p : PoolPic) : CtxStep c s (u.outputPic c p) := by
  unfold State.outputPic; dsimp only
  split
  · exact h
  · unfold State.makeReady
    have h3 : ∀ (x : State) (i : Nat) (f : SourceRt → SourceRt), CtxStep c s x → CtxStep c s (x.modSrc i f) := fun x i f h => h.trans ⟨rfl, rfl, rfl, rfl, rfl, rfl, rfl⟩
    refine h3 _ _ _ ?_
    refine CtxStep.mod ?_ he _ (fun k => ⟨rfl, rfl, rfl, rfl, rfl, rfl⟩)
    have h2 : ∀ (i b : Nat) (f : FrameBuf → FrameBuf), CtxStep c s (u.modBuf i b f) := fun i b f => h.trans ⟨rfl, rfl, rfl, rfl, rfl, rfl, rfl⟩
    split
    · exact (h2 _ _ _).count _ _ _ _
    · exact h2 _ _ _

/-- Putting pictures out is such a step. -/
theorem CtxStep.outputPics {c : Nat} {s : State} (he : (s.ctxRt c).cfg.enable = true) (d : Nat) : ∀ (n : Nat) (u : State), CtxStep c s u → CtxStep c s (u.outputPics c d n) := by
  intro n
  induction n with
  | zero => intro u h; exact h
  | succ n ih =>
    intro u h
    unfold State.outputPics; dsimp only
    split
    · exact h
    · split
      · exact h
      · exact ih _ (CtxStep.outputPic h he _)

/-- The choice of the alarm engine touches that alone. -/
theorem alarmUpdate_frame (s : State) : { alarmUpdate s with dec := { (alarmUpdate s).dec with alarm := s.dec.alarm, alarmSince := s.dec.alarmSince } } = s ∧
    (alarmUpdate s).dec.ctxs = s.dec.ctxs ∧ (alarmUpdate s).dec.engines = s.dec.engines := by
  unfold alarmUpdate
  split
  · exact ⟨rfl, rfl, rfl⟩
  · split
    · exact ⟨rfl, rfl, rfl⟩
    · split
      · exact ⟨rfl, rfl, rfl⟩
      · split
        · split
          · exact ⟨rfl, rfl, rfl⟩
          · exact ⟨rfl, rfl, rfl⟩
        · exact ⟨rfl, rfl, rfl⟩

/-- Noting a refresh keeps settings, counts and the queue. -/
theorem refresh_keeps (codec : Nat) (d : PicDesc) (m : List Nat) (h : Bool) (k : CtxRt) : (k.refresh codec d m h).cfg = k.cfg ∧ (k.refresh codec d m h).picCount = k.picCount ∧
    (k.refresh codec d m h).writing = k.writing ∧ (k.refresh codec d m h).queue = k.queue ∧ (k.refresh codec d m h).state = k.state ∧ (k.refresh codec d m h).resync = k.resync := by
  unfold CtxRt.refresh; dsimp only
  cases h <;> cases d.recovery <;> simp only [Bool.false_eq_true, if_false, if_true, Bool.false_or, Bool.true_or] <;> (repeat' split) <;> exact ⟨rfl, rfl, rfl, rfl, rfl, rfl⟩

/-- Noting an IRAP keeps settings, counts and the queue. -/
theorem irapRasl_keeps (d : PicDesc) (k : CtxRt) : (k.irapRasl d).cfg = k.cfg ∧ (k.irapRasl d).picCount = k.picCount ∧
    (k.irapRasl d).writing = k.writing ∧ (k.irapRasl d).queue = k.queue ∧ (k.irapRasl d).state = k.state ∧ (k.irapRasl d).resync = k.resync := by
  unfold CtxRt.irapRasl; split <;> exact ⟨rfl, rfl, rfl, rfl, rfl, rfl⟩

/-- A choice of two such steps is one. -/
theorem CtxStep.ite {c : Nat} {s u v : State} (p : Prop) [Decidable p] (h : CtxStep c s u) (g : CtxStep c s v) : CtxStep c s (if p then u else v) := by
  split <;> assumption

/-- What stays while queued pictures of context `c` are judged. -/
structure Admitted (c : Nat) (s u : State) : Prop where
  cfg : (u.ctxRt c).cfg = (s.ctxRt c).cfg
  dpb : (u.ctxRt c).dpb = (s.ctxRt c).dpb
  pic : (u.ctxRt c).picCount = (s.ctxRt c).picCount
  wr : (u.ctxRt c).writing = (s.ctxRt c).writing
  rs : (u.ctxRt c).resync = (s.ctxRt c).resync
  frame : { u with dec := { u.dec with ctxs := s.dec.ctxs }, counters := s.counters } = s

/-- Two such judgements are one. -/
theorem Admitted.trans {c : Nat} {s u v : State} (h : Admitted c s u) (g : Admitted c u v) : Admitted c s v := by
  refine ⟨g.cfg.trans h.cfg, g.dpb.trans h.dpb, g.pic.trans h.pic, g.wr.trans h.wr, g.rs.trans h.rs, ?_⟩
  have h3 := congrArg (fun y : State => { y with dec := { y.dec with ctxs := s.dec.ctxs }, counters := s.counters }) g.frame
  exact h3.trans h.frame

/-- Setting the parts that a judgement may set is such a judgement. -/
theorem Admitted.mod {c : Nat} {s : State} (he : (s.ctxRt c).cfg.enable = true) (g : CtxRt → CtxRt)
    (hg : ∀ k, (g k).cfg = k.cfg ∧ (g k).dpb = k.dpb ∧ (g k).picCount = k.picCount ∧ (g k).writing = k.writing ∧ (g k).resync = k.resync) :
    Admitted c s (s.modCtx c g) := by
  have hn : g (s.ctxRt c) ≠ {} := ctxRt_ne_default (by rw [(hg _).1]; exact he)
  refine ⟨?_, ?_, ?_, ?_, ?_, rfl⟩ <;> rw [ctxRt_modCtx _ _ _ hn]
  · exact (hg _).1
  · exact (hg _).2.1
  · exact (hg _).2.2.1
  · exact (hg _).2.2.2.1
  · exact (hg _).2.2.2.2

/-- A picture that, as received, cannot end WAIT_IRAP (R120). -/
def CodedPic.noEntry (codec : Nat) (p : CodedPic) : Prop := ∀ ps tb x, p.read codec ps tb = some x → entryPoint x = false

/-- What taking one picture into the queue leaves, and that a context in WAIT_IRAP stays so for a picture that cannot end it (R120). -/
theorem takePic_spec {c : Nat} (s : State) (he : (s.ctxRt c).cfg.enable = true) (p : CodedPic) :
    Admitted c s (s.takePic c p) ∧ ((s.lay.contexts.get {} c).codec ≠ 2 → entryPoint p = false → (s.ctxRt c).state = .waitIrap →
      ((s.takePic c p).ctxRt c).state = .waitIrap ∧ ((s.takePic c p).ctxRt c).queue = (s.ctxRt c).queue) := by
  have hx : ∀ u : State, Admitted c s u → ∀ b i x n, Admitted c s (u.count b i x n) := fun u h b i x n => h.trans ⟨rfl, rfl, rfl, rfl, rfl, rfl⟩
  unfold State.takePic
  extract_lets cfg rt irap q
  split
  · exact ⟨hx s ⟨rfl, rfl, rfl, rfl, rfl, rfl⟩ _ _ _ _, fun _ _ h => ⟨h, rfl⟩⟩
  · split
    · exact ⟨hx s ⟨rfl, rfl, rfl, rfl, rfl, rfl⟩ _ _ _ _, fun _ _ h => ⟨h, rfl⟩⟩
    · next hn =>
      refine ⟨Admitted.trans (hx s ⟨rfl, rfl, rfl, rfl, rfl, rfl⟩ _ _ _ _) (Admitted.mod (s := s.count 0x02 c 1 (rt.queue.length + 1 - q.length)) he _ (fun k => ?_)), fun hc hp hs => ?_⟩
      · dsimp only; split <;> exact ⟨rfl, rfl, rfl, rfl, rfl⟩
      · have h1 : p.desc.irap = false ∧ recoveryPoint p.desc = false := by
          unfold entryPoint at hp; exact Bool.or_eq_false_iff.mp hp
        refine absurd ?_ hn
        have h2 : irap = false := by
          show (decide (cfg.codec = 2) || (p.desc.irap && p.seq.isSome)) = false
          rw [h1.1, decide_eq_false hc]; rfl
        rw [h2, h1.2, show rt.state = CtxState.waitIrap from hs]; rfl

/-- What the judgement of one received picture leaves, and that a context in WAIT_IRAP stays so for a picture that cannot end it (R120). -/
theorem admitPic_spec {c : Nat} (s : State) (he : (s.ctxRt c).cfg.enable = true) (p : CodedPic) :
    Admitted c s (s.admitPic c p) ∧ ((s.lay.contexts.get {} c).codec ≠ 2 → p.noEntry (s.lay.contexts.get {} c).codec → (s.ctxRt c).state = .waitIrap →
      ((s.admitPic c p).ctxRt c).state = .waitIrap ∧ ((s.admitPic c p).ctxRt c).queue = (s.ctxRt c).queue) := by
  unfold State.admitPic
  extract_lets old v
  have h1 : v.ctxRt c = CtxRt.receive p (s.ctxRt c) := ctxRt_modCtx c (CtxRt.receive p) s (ctxRt_ne_default he)
  have h0 : Admitted c s v := Admitted.mod he (CtxRt.receive p) (fun k => ⟨rfl, rfl, rfl, rfl, rfl⟩)
  have hl : v.lay = s.lay := rfl
  clear_value v
  split
  · exact ⟨h0, fun _ _ h => by rw [h1]; exact ⟨h, rfl⟩⟩
  · next x hr =>
    obtain ⟨a1, a2⟩ := takePic_spec v (c := c) (by rw [h0.cfg]; exact he) x
    refine ⟨h0.trans a1, fun hc hp hs => ?_⟩
    rw [hl] at hr a2
    obtain ⟨b1, b2⟩ := a2 hc (hp _ _ _ hr) (by rw [h1]; exact hs)
    exact ⟨b1, b2.trans (by rw [h1]; rfl)⟩

/-- What the entry into WAIT_IRAP leaves (R120, R141): marks are clear, and without a queued picture that can end the state it waits. -/
theorem ctxWaitIrap_spec {c : Nat} (s : State) (he : (s.ctxRt c).cfg.enable = true) :
    ((s.ctxWaitIrap c).ctxRt c).cfg = (s.ctxRt c).cfg ∧ ((s.ctxWaitIrap c).ctxRt c).dpb = [] ∧ ((s.ctxWaitIrap c).ctxRt c).picCount = 0 ∧
    ((s.ctxWaitIrap c).ctxRt c).writing = (s.ctxRt c).writing ∧ ((s.ctxWaitIrap c).ctxRt c).resync = false ∧
    { s.ctxWaitIrap c with dec := { (s.ctxWaitIrap c).dec with ctxs := s.dec.ctxs }, counters := s.counters } = s ∧
    ((s.lay.contexts.get {} c).codec ≠ 2 → (∀ q ∈ (s.ctxRt c).queue, q.noEntry (s.lay.contexts.get {} c).codec) →
      ((s.ctxWaitIrap c).ctxRt c).state = .waitIrap ∧ ((s.ctxWaitIrap c).ctxRt c).queue = []) := by
  unfold State.ctxWaitIrap
  obtain ⟨g, hg⟩ : ∃ g : CtxRt → CtxRt, g = (fun rt : CtxRt => { rt with
    resync := false, state := .waitIrap, queue := [], dpb := [], waiting := false, recovery := none, discarded := [], picCount := 0 }) := ⟨_, rfl⟩
  rw [← hg]
  have hgc : (g (s.ctxRt c)).cfg.enable = true := by rw [hg]; exact he
  have h1 := ctxRt_modCtx c g s (ctxRt_ne_default hgc)
  obtain ⟨t, ht⟩ : ∃ t, t = s.modCtx c g := ⟨_, rfl⟩
  rw [← ht] at h1 ⊢
  have htf : { t with dec := { t.dec with ctxs := s.dec.ctxs }, counters := s.counters } = s := by rw [ht]; rfl
  have htl : t.lay = s.lay := by rw [ht]; rfl
  clear ht
  have key : ∀ (l : List CodedPic) (u : State), (u.ctxRt c).cfg.enable = true → Admitted c u (l.foldl (fun s p => s.admitPic c p) u) ∧
      ((u.lay.contexts.get {} c).codec ≠ 2 → (∀ q ∈ l, q.noEntry (u.lay.contexts.get {} c).codec) → (u.ctxRt c).state = .waitIrap →
        ((l.foldl (fun s p => s.admitPic c p) u).ctxRt c).state = .waitIrap ∧
        ((l.foldl (fun s p => s.admitPic c p) u).ctxRt c).queue = (u.ctxRt c).queue) := by
    intro l
    induction l with
    | nil => intro u _; exact ⟨⟨rfl, rfl, rfl, rfl, rfl, rfl⟩, fun _ _ h => ⟨h, rfl⟩⟩
    | cons p l ih =>
      intro u hu
      obtain ⟨a1, a2⟩ := admitPic_spec u hu p
      obtain ⟨b1, b2⟩ := ih (u.admitPic c p) (by rw [a1.cfg]; exact hu)
      have hl : (u.admitPic c p).lay = u.lay := by have h := congrArg State.lay a1.frame; exact h
      refine ⟨a1.trans b1, fun hc hq hs => ?_⟩
      obtain ⟨c1, c2⟩ := a2 hc (hq p (List.mem_cons_self ..)) hs
      obtain ⟨d1, d2⟩ := b2 (by rw [hl]; exact hc) (fun q h => by rw [hl]; exact hq q (List.mem_cons_of_mem _ h)) c1
      exact ⟨d1, d2.trans c2⟩
  obtain ⟨k1, k2⟩ := key (s.ctxRt c).queue t (by rw [h1]; exact hgc)
  refine ⟨k1.cfg.trans (by rw [h1, hg]), k1.dpb.trans (by rw [h1, hg]), k1.pic.trans (by rw [h1, hg]), k1.wr.trans (by rw [h1, hg]),
    k1.rs.trans (by rw [h1, hg]), ?_, fun hc hq => ?_⟩
  · have h3 := congrArg (fun y : State => { y with dec := { y.dec with ctxs := s.dec.ctxs }, counters := s.counters }) k1.frame
    exact h3.trans htf
  · obtain ⟨e1, e2⟩ := k2 (by rw [htl]; exact hc) (by rw [htl]; exact hq) (by rw [h1, hg])
    exact ⟨e1, e2.trans (by rw [h1, hg])⟩

/-- Saving a context's decode state sets its save record alone (R121). -/
theorem saveCtx_spec {c : Nat} (u : State) (he : (u.ctxRt c).cfg.enable = true) :
    ∃ x : SaveRecord, u.saveCtx c = u.modCtx c (fun rt => { rt with save := some { x with count := rt.pictures } }) ∧
      (u.saveCtx c).ctxRt c = { u.ctxRt c with save := some { x with count := (u.ctxRt c).pictures } } := by
  unfold State.saveCtx
  extract_lets here
  let x : SaveRecord := { addr := pageAddr here (Config.savePage c), dpb := (u.ctxRt c).dpb.map (fun p => p.buf), params := (u.ctxRt c).params,
                          poc := ((u.ctxRt c).dpb.getLast?.map (fun p => p.poc)).getD 0, count := 0 }
  refine ⟨x, ?_, ctxRt_modCtx c _ u (ctxRt_ne_default he)⟩
  unfold State.modCtx Tab.modify
  rfl

/-- What the end of a picture does to its engine and context (R122 to R133). -/
theorem pictureDone_spec {c : Nat} (s : State) (he : (s.ctxRt c).cfg.enable = true) (hc : (s.ctxRt c).cfg = s.lay.contexts.get {} c) (e b : Nat) (p : CodedPic) (whole : Bool) (r : DecodeResult) :
    ∃ x : State, s.pictureDone e c b p whole r = x.dispatch ∧ x.dec.engines.get {} e = { (s.dec.engines.get {} e) with pic := none, last := some c } ∧
        (∀ j, j ≠ e → x.dec.engines.get {} j = s.dec.engines.get {} j) ∧
        (x.ctxRt c).writing = none ∧ (x.ctxRt c).resync = false ∧
        ((s.ctxRt c).resync = false → (x.ctxRt c).picCount = (s.ctxRt c).picCount + 1 ∧
          (x.ctxRt c).queue = (s.ctxRt c).queue ∧ (x.ctxRt c).state = (s.ctxRt c).state) ∧
        ((s.ctxRt c).resync = true → (x.ctxRt c).picCount = 0 ∧ (x.ctxRt c).dpb = [] ∧
          ((s.lay.contexts.get {} c).codec ≠ 2 → (∀ q ∈ (s.ctxRt c).queue, q.noEntry (s.lay.contexts.get {} c).codec) →
            (x.ctxRt c).state = .waitIrap ∧ (x.ctxRt c).queue = [])) ∧
        { x with dec := { x.dec with ctxs := s.dec.ctxs, engines := s.dec.engines, alarm := s.dec.alarm, alarmSince := s.dec.alarmSince },
                 ing := s.ing, counters := s.counters } = s := by
  unfold State.pictureDone
  extract_lets codec late s1 s2 s3 s4 rt gone planes map s5 s6 s7 s8 s9 s10 s11
  have k1 : CtxStep c s s1 := ((CtxStep.refl c s).count _ _ _ _).count _ _ _ _
  have k2 : CtxStep c s s2 := CtxStep.ite _ (k1.count 0x02 c 5 1) k1
  have k3 : CtxStep c s s3 := CtxStep.mod k2 he (CtxRt.irapRasl p.desc) (irapRasl_keeps p.desc)
  clear_value s3
  have k4 : CtxStep c s s4 := CtxStep.ite (p.desc.newSeq = true) (CtxStep.outputPics he 0 (s3.ctxRt c).dpb.length s3 k3) k3
  clear_value s4 planes map gone
  have k5 : CtxStep c s s5 := CtxStep.mod k4 he (CtxRt.refresh codec p.desc map (!gone.isEmpty)) (refresh_keeps _ _ _ _)
  clear_value s5
  have k6 : CtxStep c s s6 := CtxStep.ite (codec = 1) (CtxStep.mod k5 he (CtxRt.keep p.desc) (fun k => ⟨rfl, rfl, rfl, rfl, rfl, rfl⟩)) k5
  clear_value s6
  have hg : ∀ g : CtxRt → CtxRt, (g (s6.ctxRt c)).cfg = (s6.ctxRt c).cfg → (s6.modCtx c g).ctxRt c = g (s6.ctxRt c) := fun g h =>
    ctxRt_modCtx _ _ _ (ctxRt_ne_default (by rw [h, k6.cfg]; exact he))
  have h7 : (s7.ctxRt c).cfg = (s.ctxRt c).cfg ∧ (s7.ctxRt c).picCount = (s.ctxRt c).picCount + 1 ∧ (s7.ctxRt c).writing = none ∧
      (s7.ctxRt c).queue = (s.ctxRt c).queue ∧ (s7.ctxRt c).state = (s.ctxRt c).state ∧ (s7.ctxRt c).resync = (s.ctxRt c).resync := by
    refine ⟨?_, ?_, ?_, ?_, ?_, ?_⟩
    · rw [show s7.ctxRt c = _ from hg _ rfl]; exact k6.cfg
    · rw [show s7.ctxRt c = _ from hg _ rfl]; show (s6.ctxRt c).picCount + 1 = _; rw [k6.pic]
    · rw [show s7.ctxRt c = _ from hg _ rfl]
    · rw [show s7.ctxRt c = _ from hg _ rfl]; exact k6.q
    · rw [show s7.ctxRt c = _ from hg _ rfl]; exact k6.st
    · rw [show s7.ctxRt c = _ from hg _ rfl]; exact k6.rs
  have f7 : { s7 with dec := { s7.dec with ctxs := s.dec.ctxs }, ing := s.ing, counters := s.counters } = s := k6.frame
  clear_value s7
  have he7 : (s7.ctxRt c).cfg.enable = true := by rw [h7.1]; exact he
  have k8 : CtxStep c s7 s8 := CtxStep.outputPics he7 (s7.ctxRt c).reorder (s7.ctxRt c).dpb.length s7 (CtxStep.refl c s7)
  clear_value s8
  have k9 : CtxStep c s7 s9 := CtxStep.mod k8 he7 (fun rt => { rt with dpb := rt.dpb.filter PoolPic.marked }) (fun k => ⟨rfl, rfl, rfl, rfl, rfl, rfl⟩)
  clear_value s9
  have f9 : { s9 with dec := { s9.dec with ctxs := s.dec.ctxs }, ing := s.ing, counters := s.counters } = s := by
    have h3 := congrArg (fun y : State => { y with dec := { y.dec with ctxs := s.dec.ctxs }, ing := s.ing, counters := s.counters }) k9.frame
    exact h3.trans f7
  have hen : s9.dec.engines = s.dec.engines := by
    have h3 := congrArg (fun y : State => y.dec.engines) f9
    exact h3
  have hla : s9.lay = s.lay := by
    have h3 := congrArg (fun y : State => y.lay) f9
    exact h3
  have c10 : (s10.ctxRt c) = s9.ctxRt c := rfl
  have hcf : (s10.ctxRt c).cfg = (s.ctxRt c).cfg := by rw [c10, k9.cfg, h7.1]
  have hw10 : (s10.ctxRt c).writing = none := by rw [c10, k9.wr, h7.2.2.1]
  have hr10 : (s10.ctxRt c).resync = (s.ctxRt c).resync := by rw [c10, k9.rs, h7.2.2.2.2.2]
  have hp10 : (s10.ctxRt c).picCount = (s.ctxRt c).picCount + 1 := by rw [c10, k9.pic, h7.2.1]
  have hq10 : (s10.ctxRt c).queue = (s.ctxRt c).queue := by rw [c10, k9.q, h7.2.2.2.1]
  have ht10 : (s10.ctxRt c).state = (s.ctxRt c).state := by rw [c10, k9.st, h7.2.2.2.2.1]
  have g10 : s10.dec.engines.get {} e = { (s.dec.engines.get {} e) with pic := none, last := some c } ∧
      ∀ j, j ≠ e → s10.dec.engines.get {} j = s.dec.engines.get {} j := by
    rw [show s10.dec.engines = Tab.modify {} e (fun en => { en with pic := none, last := some c }) s9.dec.engines from rfl]
    unfold Tab.modify
    refine ⟨?_, fun j hj => ?_⟩
    · rw [tab_get_set_same _ _ _ _ (by intro hh; have := congrArg EngineRt.last hh; cases this), hen]
    · unfold Tab.set
      rw [if_neg (by intro hh; have := congrArg EngineRt.last hh; cases this), tab_get_put_other _ _ _ _ _ hj, hen]
  have f10 : { s10 with dec := { s10.dec with ctxs := s.dec.ctxs, engines := s.dec.engines }, ing := s.ing, counters := s.counters } = s := by
    have h3 := congrArg (fun y : State => { y with dec := { y.dec with engines := s.dec.engines } }) f9
    exact h3
  have hla10 : s10.lay = s.lay := hla
  clear_value s10
  have h11 : s11.dec.engines = s10.dec.engines ∧ (s11.ctxRt c).cfg = (s.ctxRt c).cfg ∧ (s11.ctxRt c).writing = none ∧ (s11.ctxRt c).resync = false ∧
      ((s.ctxRt c).resync = false → (s11.ctxRt c).picCount = (s.ctxRt c).picCount + 1 ∧
        (s11.ctxRt c).queue = (s.ctxRt c).queue ∧ (s11.ctxRt c).state = (s.ctxRt c).state) ∧
      ((s.ctxRt c).resync = true → (s11.ctxRt c).picCount = 0 ∧ (s11.ctxRt c).dpb = [] ∧
        ((s.lay.contexts.get {} c).codec ≠ 2 → (∀ q ∈ (s.ctxRt c).queue, q.noEntry (s.lay.contexts.get {} c).codec) →
          (s11.ctxRt c).state = .waitIrap ∧ (s11.ctxRt c).queue = [])) ∧
      { s11 with dec := { s11.dec with ctxs := s.dec.ctxs, engines := s.dec.engines }, ing := s.ing, counters := s.counters } = s := by
    cases hrs : (s.ctxRt c).resync with
    | false =>
      have : s11 = s10 := if_neg (by rw [hr10, hrs]; decide)
      rw [this]
      exact ⟨rfl, hcf, hw10, hr10.trans hrs, fun _ => ⟨hp10, hq10, ht10⟩, fun h => (by cases h), f10⟩
    | true =>
      have : s11 = s10.ctxWaitIrap c := if_pos (by rw [hr10, hrs])
      obtain ⟨w1, w2, w3, w4, w5, w6, w7⟩ := ctxWaitIrap_spec s10 (c := c) (by rw [hcf]; exact he)
      rw [this]
      refine ⟨?_, w1.trans hcf, w4.trans hw10, w5, fun h => (by cases h), fun _ => ⟨w3, w2, fun hc2 hq => w7 (by rw [hla10]; exact hc2) (by rw [hq10, hla10]; exact hq)⟩, ?_⟩
      · have h3 := congrArg (fun y : State => y.dec.engines) w6; exact h3
      · have h3 := congrArg (fun y : State => { y with dec := { y.dec with ctxs := s.dec.ctxs, engines := s.dec.engines }, ing := s.ing, counters := s.counters }) w6
        exact h3.trans f10
  clear_value s11
  obtain ⟨m1, m2, m3, m4, m5, m6, m7⟩ := h11
  obtain ⟨rec, hsv, hsc⟩ := saveCtx_spec s11 (c := c) (by rw [m2]; exact he)
  have m1' : (s11.saveCtx c).dec.engines = s10.dec.engines := by rw [hsv]; exact m1
  have m2' : ((s11.saveCtx c).ctxRt c).cfg = (s.ctxRt c).cfg := by rw [hsc]; exact m2
  have m3' : ((s11.saveCtx c).ctxRt c).writing = none := by rw [hsc]; exact m3
  have m4' : ((s11.saveCtx c).ctxRt c).resync = false := by rw [hsc]; exact m4
  have m5' := m5
  have m6' := m6
  rw [show (s11.ctxRt c).picCount = ((s11.saveCtx c).ctxRt c).picCount by rw [hsc], show (s11.ctxRt c).queue = ((s11.saveCtx c).ctxRt c).queue by rw [hsc],
    show (s11.ctxRt c).state = ((s11.saveCtx c).ctxRt c).state by rw [hsc]] at m5'
  rw [show (s11.ctxRt c).picCount = ((s11.saveCtx c).ctxRt c).picCount by rw [hsc], show (s11.ctxRt c).queue = ((s11.saveCtx c).ctxRt c).queue by rw [hsc],
    show (s11.ctxRt c).state = ((s11.saveCtx c).ctxRt c).state by rw [hsc], show (s11.ctxRt c).dpb = ((s11.saveCtx c).ctxRt c).dpb by rw [hsc]] at m6'
  have m7' : { s11.saveCtx c with dec := { (s11.saveCtx c).dec with ctxs := s.dec.ctxs, engines := s.dec.engines }, ing := s.ing, counters := s.counters } = s := by
    rw [hsv]; exact m7
  clear m1 m2 m3 m4 m5 m6 m7 hsv hsc
  generalize s11.saveCtx c = s11 at m1' m2' m3' m4' m5' m6' m7' ⊢
  rename' m1' => m1, m2' => m2, m3' => m3, m4' => m4, m5' => m5, m6' => m6, m7' => m7
  have hla11 : s11.lay = s.lay := by have h3 := congrArg (fun y : State => y.lay) m7; exact h3
  have hset : s11.ctxSettle c = s11 := by
    unfold State.ctxSettle; dsimp only
    rw [m2, hla11, ← hc, if_neg (by simp [he]), if_neg (by unfold redefined; simp)]
  obtain ⟨al1, al2, al3⟩ := alarmUpdate_frame s11
  have alc : (alarmUpdate s11).ctxRt c = s11.ctxRt c := by unfold State.ctxRt; rw [al2]
  rw [hset]
  refine ⟨alarmUpdate s11, rfl, ?_, ?_, ?_, ?_, ?_, ?_, ?_⟩
  · rw [al3, m1]; exact g10.1
  · intro j hj; rw [al3, m1]; exact g10.2 j hj
  · rw [alc]; exact m3
  · rw [alc]; exact m4
  · rw [alc]; exact m5
  · rw [alc]; exact m6
  · obtain ⟨z, hz⟩ : ∃ z, z = alarmUpdate s11 := ⟨_, rfl⟩
    rw [← hz] at al1 ⊢
    have h3 := congrArg (fun y : State => { y with dec := { y.dec with ctxs := s.dec.ctxs, engines := s.dec.engines }, ing := s.ing, counters := s.counters }) al1
    have h4 := h3.trans m7
    have ha1 : s11.dec.alarm = s.dec.alarm := by have h5 := congrArg (fun y : State => y.dec.alarm) m7; exact h5
    have ha2 : s11.dec.alarmSince = s.dec.alarmSince := by have h5 := congrArg (fun y : State => y.dec.alarmSince) m7; exact h5
    rw [← ha1, ← ha2]
    exact h4

/-- An encode context reads back what has been set. -/
theorem encRt_modEnc_same (c : Nat) (g : EncRt → EncRt) (s : State) (h : g (s.encRt c) ≠ {}) : (s.modEnc c g).encRt c = g (s.encRt c) := by
  unfold State.encRt State.modEnc Tab.modify
  exact tab_get_set_same _ _ _ _ h

/-- Changing an encode context leaves the others as they were. -/
theorem encRt_modEnc_other (c k : Nat) (g : EncRt → EncRt) (s : State) (h : g (s.encRt c) ≠ {}) (hk : k ≠ c) : (s.modEnc c g).encRt k = s.encRt k := by
  unfold State.encRt State.modEnc Tab.modify
  exact tab_get_set_other _ _ _ _ _ h hk

/-- Changes that agree on the context as it stands are the same. -/
theorem modEnc_congr (c : Nat) (g f : EncRt → EncRt) (s : State) (e : g (s.encRt c) = f (s.encRt c)) : s.modEnc c g = s.modEnc c f := by
  unfold State.modEnc Tab.modify
  have e' : g (Tab.get {} c s.enc.ctxs) = f (Tab.get {} c s.enc.ctxs) := e
  rw [e']

/-- A context with a picture has been touched. -/
theorem encRt_ne_default {r : EncRt} {p : EncPic} (h : r.pic = some p) : r ≠ {} := by intro he; rw [he] at h; cases h

/-- Everything but the encoders and counters stays. -/
def EncFrame (s u : State) : Prop := { u with enc := s.enc, counters := s.counters } = s

/-- Nothing done keeps it. -/
theorem EncFrame.refl (s : State) : EncFrame s s := rfl

/-- Two such changes are one. -/
theorem EncFrame.trans {s u v : State} (h : EncFrame s u) (g : EncFrame u v) : EncFrame s v := by
  have h3 := congrArg (fun y : State => { y with enc := s.enc, counters := s.counters }) g
  exact h3.trans h

/-- Counting keeps it. -/
theorem EncFrame.count (u : State) (b i x n : Nat) : EncFrame u (u.count b i x n) := rfl

/-- Changing a context keeps it. -/
theorem EncFrame.mod (u : State) (c : Nat) (g) : EncFrame u (u.modEnc c g) := rfl

/-- Wall time stays. -/
theorem EncFrame.wallNs {s u : State} (h : EncFrame s u) : u.wallNs = s.wallNs := by
  have := congrArg State.wallNs h; exact this

/-- The time stamp of a picture stays. -/
theorem EncFrame.rtpStamp {s u : State} (h : EncFrame s u) (p : EncPic) : u.rtpStamp p = s.rtpStamp p := by
  have := congrArg (fun y : State => y.rtpStamp p) h; exact this

/-- What a launch queue holds once a packet is in. -/
theorem mem_insertLaunch (e x : LaunchEntry) : ∀ l : List LaunchEntry, x ∈ insertLaunch e l ↔ x = e ∨ x ∈ l := by
  intro l
  induction l with
  | nil => simp [insertLaunch]
  | cons f t ih =>
    unfold insertLaunch; split
    · simp
    · rw [List.mem_cons, ih, List.mem_cons]; constructor
      · rintro (h | h | h) <;> simp [h]
      · rintro (h | h | h) <;> simp [h]

/-- A launch queue grows by the packet. -/
theorem length_insertLaunch (e : LaunchEntry) : ∀ l : List LaunchEntry, (insertLaunch e l).length = l.length + 1 := by
  intro l
  induction l with
  | nil => rfl
  | cons f t ih => unfold insertLaunch; split <;> simp [ih]

/-- What queueing a packet does (R249). -/
theorem queuePacket_spec (m k : Nat) (e : LaunchEntry) (u : State) : EncFrame u (u.queuePacket m e) ∧ (u.queuePacket m e).enc.ctxs = u.enc.ctxs ∧
    ((u.queuePacket m e).enc.queues.get [] k).length ≤ (u.enc.queues.get [] k).length + 1 ∧
    (∀ x ∈ (u.enc.queues.get [] k : List LaunchEntry), x ∈ (u.queuePacket m e).enc.queues.get [] k) ∧
    ((u.enc.queues.get [] m).length < 4096 → e ∈ (u.queuePacket m e).enc.queues.get [] m) := by
  unfold State.queuePacket
  extract_lets q
  split
  · rename_i h
    exact ⟨rfl, rfl, Nat.le_succ _, fun x hx => hx, fun h2 => absurd h (by show ¬ 4096 ≤ (u.enc.queues.get [] m).length; omega)⟩
  · have hne : insertLaunch e q ≠ [] := by intro h; have := congrArg List.length h; rw [length_insertLaunch] at this; cases this
    refine ⟨rfl, rfl, ?_, ?_, ?_⟩
    · show ((Tab.set [] m (insertLaunch e q) u.enc.queues).get [] k).length ≤ _
      by_cases hk : k = m
      · subst hk; rw [tab_get_set_same _ _ _ _ hne, length_insertLaunch]
      · rw [tab_get_set_other _ _ _ _ _ hne hk]; exact Nat.le_succ _
    · intro x hx
      show x ∈ (Tab.set [] m (insertLaunch e q) u.enc.queues).get [] k
      by_cases hk : k = m
      · subst hk; rw [tab_get_set_same _ _ _ _ hne, mem_insertLaunch]; exact .inr hx
      · rw [tab_get_set_other _ _ _ _ _ hne hk]; exact hx
    · intro _
      show e ∈ (Tab.set [] m (insertLaunch e q) u.enc.queues).get [] m
      rw [tab_get_set_same _ _ _ _ hne, mem_insertLaunch]; exact .inl rfl

/-- What queueing a packet of a row does (R247, R248). -/
theorem queueOne_spec (c r0 : Nat) (p : EncPic) (ns : List (List Byte)) (last : Bool) (i : Nat) (u : State) (x : EncRt) (pp : EncPic) (hx : u.encRt c = x) (hp : x.pic = some pp) :
    EncFrame u (u.queueOne c r0 p ns last i) ∧ (u.queueOne c r0 p ns last i).encRt c = { x with rtpSeq := (x.rtpSeq + 1) % 65536 } ∧
    (∀ k, k ≠ c → (u.queueOne c r0 p ns last i).encRt k = u.encRt k) ∧
    ((u.queueOne c r0 p ns last i).enc.queues.get [] x.cfg.mac).length ≤ (u.enc.queues.get [] x.cfg.mac).length + 2 ∧
    (∀ y ∈ (u.enc.queues.get [] x.cfg.mac : List LaunchEntry), y ∈ (u.queueOne c r0 p ns last i).enc.queues.get [] x.cfg.mac) ∧
    ((u.enc.queues.get [] x.cfg.mac).length < 4096 → ∃ y ∈ ((u.queueOne c r0 p ns last i).enc.queues.get [] x.cfg.mac : List LaunchEntry),
      y.ctx = c ∧ y.second = false ∧ y.at_ = launchAt x.cfg p r0 i ns.length ∧ y.payload = ns.getD i [] ∧
              y.rtpTs = u.rtpStamp p ∧ y.marker = (last && decide (i + 1 = ns.length)) ∧ y.queuedAt = u.wallNs) := by
  unfold State.queueOne
  rw [hx]
  extract_lets x0 n e v w
  obtain ⟨a1, a2, a3, a4, a5⟩ := queuePacket_spec x.cfg.mac x.cfg.mac e u
  have a3' : (v.enc.queues.get [] x.cfg.mac).length ≤ (u.enc.queues.get [] x.cfg.mac).length + 1 := a3
  have hw : EncFrame u w ∧ w.enc.ctxs = u.enc.ctxs ∧ (w.enc.queues.get [] x.cfg.mac).length ≤ (u.enc.queues.get [] x.cfg.mac).length + 2 ∧
      (∀ y ∈ (v.enc.queues.get [] x.cfg.mac : List LaunchEntry), y ∈ (w.enc.queues.get [] x.cfg.mac : List LaunchEntry)) := by
    show EncFrame u (if x.cfg.mac2 < 8 then _ else v) ∧ _
    have hv : EncFrame u v := a1
    have hw0 : w = (if x.cfg.mac2 < 8 then v.queuePacket x.cfg.mac2 { e with second := true, len := wireBytes x.cfg true n.length, addr := packetTo x.cfg true } else v) := rfl
    rw [hw0]; clear hw0
    split
    · obtain ⟨b1, b2, b3, b4, -⟩ := queuePacket_spec x.cfg.mac2 x.cfg.mac { e with second := true, len := wireBytes x.cfg true n.length, addr := packetTo x.cfg true } v
      exact ⟨EncFrame.trans hv b1, b2.trans a2, by omega, b4⟩
    · exact ⟨hv, a2, by omega, fun y hy => hy⟩
  have hwc : w.encRt c = x := by unfold State.encRt at hx ⊢; rw [hw.2.1]; exact hx
  have hne : (fun x : EncRt => { x with rtpSeq := (x.rtpSeq + 1) % 65536 }) (w.encRt c) ≠ {} := by rw [hwc]; exact encRt_ne_default (p := pp) hp
  refine ⟨EncFrame.trans hw.1 (EncFrame.mod _ _ _), ?_, ?_, hw.2.2.1, fun y hy => hw.2.2.2 y (a4 y hy), ?_⟩
  · rw [encRt_modEnc_same _ _ _ hne, hwc]
  · intro k hk; rw [encRt_modEnc_other _ _ _ _ hne hk]; unfold State.encRt; rw [hw.2.1]
  · intro hl; exact ⟨e, hw.2.2.2 e (a5 hl), rfl, rfl, rfl, rfl, rfl, rfl, rfl⟩

/-- What queueing the packets of a row does (R247, R248). -/
theorem queueRow_spec (c r0 : Nat) (p : EncPic) (ns : List (List Byte)) (last : Bool) (u : State) (x : EncRt) (pp : EncPic) (hx : u.encRt c = x) (hp : x.pic = some pp) : ∀ N : Nat, ∀ w : State,
    w = (List.range N).foldl (fun s i => s.queueOne c r0 p ns last i) u →
    EncFrame u w ∧ w.encRt c = { x with rtpSeq := (w.encRt c).rtpSeq } ∧ (x.rtpSeq < 65536 → (w.encRt c).rtpSeq = (x.rtpSeq + N) % 65536) ∧
    (∀ k, k ≠ c → w.encRt k = u.encRt k) ∧ (w.enc.queues.get [] x.cfg.mac).length ≤ (u.enc.queues.get [] x.cfg.mac).length + 2 * N ∧
    (∀ i, i < N → (u.enc.queues.get [] x.cfg.mac).length + 2 * N ≤ 4096 → ∃ y ∈ (w.enc.queues.get [] x.cfg.mac : List LaunchEntry),
      y.ctx = c ∧ y.second = false ∧ y.at_ = launchAt x.cfg p r0 i ns.length ∧ y.payload = ns.getD i [] ∧
              y.rtpTs = u.rtpStamp p ∧ y.marker = (last && decide (i + 1 = ns.length)) ∧ y.queuedAt = u.wallNs) := by
  intro N
  induction N with
  | zero =>
    intro w hw
    replace hw : w = u := hw
    subst hw
    exact ⟨rfl, by rw [hx], fun h => by rw [hx, Nat.mod_eq_of_lt (by omega)]; rfl, fun _ _ => rfl, Nat.le_refl _, fun i hi => absurd hi (by omega)⟩
  | succ N ih =>
    intro w hw
    rw [List.range_succ, List.foldl_append] at hw
    obtain ⟨v, hv⟩ : ∃ v, v = (List.range N).foldl (fun s i => s.queueOne c r0 p ns last i) u := ⟨_, rfl⟩
    rw [← hv] at hw
    obtain ⟨i1, i2, i3, i4, i5, i6⟩ := ih v hv
    replace hw : w = v.queueOne c r0 p ns last N := hw
    subst hw
    obtain ⟨j1, j2, j3, j4, j5, j6⟩ := queueOne_spec c r0 p ns last N v _ pp i2 hp
    refine ⟨EncFrame.trans i1 j1, ?_, ?_, fun k hk => (j3 k hk).trans (i4 k hk), ?_, ?_⟩
    · rw [j2]
    · intro hl; rw [j2]; show ((v.encRt c).rtpSeq + 1) % 65536 = _; rw [i3 hl]; omega
    · have : ({ x with rtpSeq := (v.encRt c).rtpSeq } : EncRt).cfg = x.cfg := rfl
      rw [this] at j4; omega
    · intro i hi hl
      by_cases hiN : i = N
      · subst hiN
        obtain ⟨y, hy, hq⟩ := j6 (by show (v.enc.queues.get [] x.cfg.mac).length < 4096; omega)
        refine ⟨y, hy, hq.1, hq.2.1, hq.2.2.1, hq.2.2.2.1, hq.2.2.2.2.1.trans (EncFrame.rtpStamp i1 p), hq.2.2.2.2.2.1, hq.2.2.2.2.2.2.trans (EncFrame.wallNs i1)⟩
      · obtain ⟨y, hy, hq⟩ := i6 i (by omega) (by omega)
        exact ⟨y, j5 y hy, hq⟩

/-- What taking a tile row into a picture does (R236, R237). -/
theorem encTake_spec (c : Nat) (u : State) (x : EncRt) (p : EncPic) (hx : u.encRt c = x) (hp : x.pic = some p) (i row : Nat) (read : Bool) :
    ∃ q : EncPic, q.tilesRead = p.tilesRead ++ [(i, row)] ∧ { q with tilesRead := p.tilesRead, parts := p.parts, minCapture := p.minCapture } = p ∧ (read = false → q.minCapture = p.minCapture) ∧
      u.encTake c i row read = (fun w : State => if read then w else w.count 0x0B c 5 1) (u.modEnc c (fun _ => { x with pic := some q })) := by
  have h : ∃ ps mc, (read = false → mc = p.minCapture) ∧ u.encTake c i row read = (fun w : State => if read then w else w.count 0x0B c 5 1)
      (u.modEnc c (fun _ => { x with pic := some { p with tilesRead := p.tilesRead ++ [(i, row)], parts := ps, minCapture := mc } })) := by
    unfold State.encTake
    rw [hx]; dsimp only; rw [hp]; dsimp only
    apply Exists.intro; apply Exists.intro; apply And.intro
    rotate_left
    · refine congrArg (fun w : State => if read = true then w else w.count 0x0B c 5 1) (modEnc_congr c _ _ u ?_)
      rw [hx]
    · intro hr; subst hr; rfl
  obtain ⟨ps, mc, h1, h2⟩ := h
  exact ⟨{ p with tilesRead := p.tilesRead ++ [(i, row)], parts := ps, minCapture := mc }, rfl, rfl, h1, h2⟩

/-- The samples of a row touch the sample planes alone. -/
theorem takeRow_frame (c : EncoderCfg) (r : Nat) (p : EncPic) : { p.takeRow c r with luma := p.luma, cb := p.cb, cr := p.cr } = p := rfl

/-- What the seal of a picture does (R246). -/
theorem encSeal_spec (c : Nat) (u : State) (x : EncRt) (p : EncPic) (hx : u.encRt c = x) (hp : x.pic = some p) (he : (u.lay.encoders.get {} c).enable = true) :
    ∃ z : Seal, (u.encSeal c).encRt c = { x with
        state := .running, pic := none, k := ((u.encSeal c).encRt c).k, delay := ((u.encSeal c).encRt c).delay, carried := carryOf x.cfg x.k p,
        prevRows := p.sizes, picCount := x.picCount + 1, streamPics := x.streamPics + 1,
        bucket := bucketAfter p.rate x.cfg x.bucket p.spent, nextSeq := some ((z.seq + 1) % 4294967296), seals := (z :: x.seals).take 8 } ∧
      (((u.encSeal c).encRt c).k, ((u.encSeal c).encRt c).delay) =
        (if p.idr then (0, 0) else nextK x.cfg x.k x.delay (!(carryOf x.cfg x.k p).isEmpty)) ∧
      z.source = 1024 + c ∧ z.seq = x.nextSeq.getD (u.raster.frame % 4294967296) ∧ z.capture = p.minCapture.getD p.startNs ∧ z.arrival = p.startNs ∧
      z.sealTime = u.wallNs ∧ z.width = x.cfg.width ∧ z.height = x.cfg.height ∧ z.payloadCrc = foldCrc 0 z.seq (1024 + c) p.bytes ∧
      (∀ k, k ≠ c → (u.encSeal c).encRt k = u.encRt k) ∧ EncFrame u (u.encSeal c) := by
  unfold State.encSeal
  rw [hx]; dsimp only; rw [hp]; dsimp only
  obtain ⟨y, hy⟩ : ∃ y, y = u.encSealOf c p := ⟨_, rfl⟩
  rw [← hy]
  have hyf : y.source = 1024 + c ∧ y.seq = x.nextSeq.getD (u.raster.frame % 4294967296) ∧ y.capture = p.minCapture.getD p.startNs ∧ y.arrival = p.startNs ∧
      y.sealTime = u.wallNs ∧ y.width = x.cfg.width ∧ y.height = x.cfg.height ∧ y.payloadCrc = foldCrc 0 y.seq (1024 + c) p.bytes := by
    have hsq : y.seq = x.nextSeq.getD (u.raster.frame % 4294967296) := by
      rw [hy]; unfold State.encSealOf; rw [hx]
    refine ⟨by rw [hy]; rfl, hsq, ?_, ?_, ?_, ?_, ?_, ?_⟩
    · rw [hy]; unfold State.encSealOf; rw [hx]
    · rw [hy]; unfold State.encSealOf; rw [hx]
    · rw [hy]; unfold State.encSealOf; rw [hx]
    · rw [hy]; unfold State.encSealOf; rw [hx]
    · rw [hy]; unfold State.encSealOf; rw [hx]
    · rw [hsq, hy]; unfold State.encSealOf; rw [hx]
  clear hy
  obtain ⟨k, hk⟩ : ∃ k, k = (if p.idr = true then (0, 0) else nextK x.cfg x.k x.delay (!(carryOf x.cfg x.k p).isEmpty)) := ⟨_, rfl⟩
  rw [← hk]
  clear hk
  obtain ⟨g, hg⟩ : ∃ g : EncRt → EncRt, g = (fun r => { r with
      state := .running, pic := none, k := k.1, delay := k.2, carried := carryOf x.cfg x.k p, prevRows := p.sizes, picCount := r.picCount + 1
      streamPics := r.streamPics + 1, bucket := bucketAfter p.rate r.cfg r.bucket p.spent, nextSeq := some ((y.seq + 1) % 4294967296), seals := (y :: r.seals).take 8 }) := ⟨_, rfl⟩
  have hne : g (u.encRt c) ≠ {} := by rw [hg]; intro h; have := congrArg EncRt.state h; cases this
  have fin : ∀ w : State, (w = (u.modEnc c g).count 0x0B c 0 1 ∨ w = ((u.modEnc c g).count 0x0B c 0 1).count 0x0B c 4 1) →
      w.encSettle c = w ∧ EncFrame u w ∧ w.encRt c = g x ∧ (∀ j, j ≠ c → w.encRt j = u.encRt j) := by
    intro w hw
    have hwf : EncFrame u w ∧ w.encRt c = g x ∧ (∀ j, j ≠ c → w.encRt j = u.encRt j) := by
      have h0 : EncFrame u (u.modEnc c g) := EncFrame.mod _ _ _
      have h1 : (u.modEnc c g).encRt c = g x := by rw [encRt_modEnc_same _ _ _ hne, hx]
      rcases hw with hw | hw
      · subst hw; exact ⟨EncFrame.trans h0 (EncFrame.count _ _ _ _ _), h1, fun j hj => encRt_modEnc_other _ _ _ _ hne hj⟩
      · subst hw; exact ⟨EncFrame.trans (EncFrame.trans h0 (EncFrame.count _ _ _ _ _)) (EncFrame.count _ _ _ _ _), h1, fun j hj => encRt_modEnc_other _ _ _ _ hne hj⟩
    refine ⟨?_, hwf⟩
    unfold State.encSettle
    rw [if_pos]
    have : w.lay = u.lay := by have h := congrArg State.lay hwf.1; exact h
    rw [this, he]; rfl
  obtain ⟨w, hw, e⟩ : ∃ w : State, (w = (u.modEnc c g).count 0x0B c 0 1 ∨ w = ((u.modEnc c g).count 0x0B c 0 1).count 0x0B c 4 1) ∧
      State.encSettle c (if (carryOf x.cfg x.k p).isEmpty = true then (u.modEnc c g).count 0x0B c 0 1 else ((u.modEnc c g).count 0x0B c 0 1).count 0x0B c 4 1) = w.encSettle c := by
    by_cases hce : (carryOf x.cfg x.k p).isEmpty = true
    · rw [if_pos hce]; exact ⟨_, .inl rfl, rfl⟩
    · rw [if_neg hce]; exact ⟨_, .inr rfl, rfl⟩
  obtain ⟨k1, k2, k3, k4⟩ := fin w hw
  rw [hg] at e
  rw [e, k1, k3, hg]
  exact ⟨y, rfl, rfl, hyf.1, hyf.2.1, hyf.2.2.1, hyf.2.2.2.1, hyf.2.2.2.2.1, hyf.2.2.2.2.2.1, hyf.2.2.2.2.2.2.1, hyf.2.2.2.2.2.2.2, k4, k2⟩

/-- What the acceptance of a coded row does (R241 to R248). -/
theorem acceptRow_spec (c : Nat) (o : RowObs) (skip : Bool) (u : State) (r : EncRt) (p : EncPic) (hx : u.encRt c = r) (hp : r.pic = some p) (fill n : Nat) (ns : List (List Byte))
    (hf : fill = fillerSize r.cfg p (rowSize r p o skip))
    (hns : ns = headPackets r.cfg (rowNals r p o skip).1 ++
          ((rowNals r p o skip).2 ++ (if fill = 0 then [] else [fillerNal r.cfg fill])).flatMap (nalPackets r.cfg)) (hn : n = ns.length) :
    ∃ (w : State) (q : EncPic) (low : Bool), EncFrame u w ∧ u.acceptRow c o skip = (if decide (p.row + 1 = p.rows r.cfg) = true then w.encSeal c else w) ∧
      w.encRt c = { r with pic := some q, restart := r.restart || o.refError, signalled := sentParams r p, rtpSeq := (w.encRt c).rtpSeq } ∧ (r.rtpSeq < 65536 → (w.encRt c).rtpSeq = (r.rtpSeq + n) % 65536) ∧
          q = 
            { p.takeRow r.cfg p.row with
              row := p.row + 1
              spent := p.spent + rowSize r p o skip + fill
              floor := p.floor || low
              skipped := (if skip then p.skipped ++ [p.row] else p.skipped)
              sizes := p.sizes ++ [(rowSize r p o skip, rowQp r.cfg p o)]
              bytes := p.bytes ++ (((rowNals r p o skip).1 ++ (rowNals r p o skip).2 ++ (if fill = 0 then [] else [fillerNal r.cfg fill])).map startCoded).flatten
              modes := p.modes ++ [rowModes r p o skip] } ∧
          (p.row + 1 ≠ p.rows r.cfg → (low = true ↔ p.floor = false ∧ p.skipAll = false ∧ skip = false ∧
            p.budget < p.spent + rowSize r p o skip + fill + floorSum r.cfg r.prevRows (p.row + 1))) ∧
          (∀ k, k ≠ c → w.encRt k = u.encRt k) ∧
          (p.row + 1 ≠ p.rows r.cfg → ∀ y, y < n → (u.enc.queues.get [] r.cfg.mac).length + 2 * n ≤ 4096 →
            ∃ x ∈ (w.enc.queues.get [] r.cfg.mac : List LaunchEntry), x.ctx = c ∧ x.second = false ∧ x.at_ = launchAt r.cfg p p.row y n ∧ x.payload = ns.getD y [] ∧
              x.rtpTs = u.rtpStamp p ∧ x.marker = false ∧ x.queuedAt = u.wallNs) := by
  unfold State.acceptRow
  rw [hx]; dsimp only; rw [hp]; dsimp only
  rw [← hf, ← hns]
  obtain ⟨low, hlow⟩ : ∃ low : Bool, low = (!p.floor && !p.skipAll && !skip && !decide (p.row + 1 = p.rows r.cfg) &&
    decide (p.budget < p.spent + rowSize r p o skip + fill + floorSum r.cfg r.prevRows (p.row + 1))) := ⟨_, rfl⟩
  rw [← hlow]
  obtain ⟨q, hq⟩ : ∃ q : EncPic, q = 
            { p.takeRow r.cfg p.row with
              row := p.row + 1
              spent := p.spent + rowSize r p o skip + fill
              floor := p.floor || low
              skipped := (if skip then p.skipped ++ [p.row] else p.skipped)
              sizes := p.sizes ++ [(rowSize r p o skip, rowQp r.cfg p o)]
              bytes := p.bytes ++ (((rowNals r p o skip).1 ++ (rowNals r p o skip).2 ++ (if fill = 0 then [] else [fillerNal r.cfg fill])).map startCoded).flatten
              modes := p.modes ++ [rowModes r p o skip] } := ⟨_, rfl⟩
  rw [← hq]
  obtain ⟨b, hb⟩ : ∃ b : State, b = u.modEnc c (fun r => { r with pic := some q, restart := r.restart || o.refError, signalled := sentParams r p }) := ⟨_, rfl⟩
  rw [← hb]
  obtain ⟨d, hd⟩ : ∃ d : State, d = (if skip = true then State.count 0x0B c 2 1 b else b) := ⟨_, rfl⟩
  rw [← hd]
  obtain ⟨v, hv⟩ : ∃ v : State, v = (if low = true then State.count 0x0B c 1 1 d else d) := ⟨_, rfl⟩
  rw [← hv]
  have hne : (fun r : EncRt => { r with pic := some q, restart := r.restart || o.refError, signalled := sentParams r p }) (u.encRt c) ≠ {} := encRt_ne_default (p := q) rfl
  have hvf : EncFrame u v ∧ v.encRt c = { r with pic := some q, restart := r.restart || o.refError, signalled := sentParams r p } ∧ (∀ k, k ≠ c → v.encRt k = u.encRt k) ∧ v.enc.queues = u.enc.queues := by
    have hs : (u.modEnc c (fun r => { r with pic := some q, restart := r.restart || o.refError, signalled := sentParams r p })).encRt c = { r with pic := some q, restart := r.restart || o.refError, signalled := sentParams r p } := by
      rw [encRt_modEnc_same _ _ _ hne, hx]
    have ho := fun k (hk : k ≠ c) => encRt_modEnc_other c k (fun r : EncRt => { r with pic := some q, restart := r.restart || o.refError, signalled := sentParams r p }) u hne hk
    have hbf : EncFrame u b ∧ b.encRt c = { r with pic := some q, restart := r.restart || o.refError, signalled := sentParams r p } ∧ (∀ k, k ≠ c → b.encRt k = u.encRt k) ∧ b.enc.queues = u.enc.queues := by
      rw [hb]; exact ⟨rfl, hs, ho, rfl⟩
    clear hb hs ho
    have hdf : EncFrame u d ∧ d.encRt c = { r with pic := some q, restart := r.restart || o.refError, signalled := sentParams r p } ∧ (∀ k, k ≠ c → d.encRt k = u.encRt k) ∧ d.enc.queues = u.enc.queues := by
      split at hd
      · subst hd; exact ⟨EncFrame.trans hbf.1 (EncFrame.count _ _ _ _ _), hbf.2.1, hbf.2.2.1, hbf.2.2.2⟩
      · subst hd; exact hbf
    clear hbf hd
    split at hv
    · subst hv; exact ⟨EncFrame.trans hdf.1 (EncFrame.count _ _ _ _ _), hdf.2.1, hdf.2.2.1, hdf.2.2.2⟩
    · subst hv; exact hdf
  obtain ⟨w, hw⟩ : ∃ w : State, w = (List.range ns.length).foldl (fun s i => s.queueOne c p.row p ns (decide (p.row + 1 = p.rows r.cfg)) i) v := ⟨_, rfl⟩
  rw [← hw]
  obtain ⟨e1, e2, e3, e4, e5, e6⟩ := queueRow_spec c p.row p ns (decide (p.row + 1 = p.rows r.cfg)) v _ q hvf.2.1 rfl ns.length w hw
  refine ⟨w, q, low, EncFrame.trans hvf.1 e1, rfl, e2, ?_, hq, ?_, fun k hk => (e4 k hk).trans (hvf.2.2.1 k hk), ?_⟩
  · intro hl; rw [hn]; exact e3 hl
  · intro hlast; rw [hlow]; simp [hlast, and_assoc]
  · intro hlast y hy hl
    rw [hn] at hy hl
    obtain ⟨x, hx1, hx2⟩ := e6 y hy (by rw [hvf.2.2.2]; exact hl)
    refine ⟨x, hx1, hx2.1, hx2.2.1, ?_, hx2.2.2.2.1, hx2.2.2.2.2.1.trans (EncFrame.rtpStamp hvf.1 p), ?_, hx2.2.2.2.2.2.2.trans (EncFrame.wallNs hvf.1)⟩
    · rw [hn]; exact hx2.2.2.1
    · rw [hx2.2.2.2.2.2.1]; simp [hlast]

/-- What the seal unit has done with a picture touches the contexts alone. -/
theorem sentPic_frame (i : Nat) (f : ReadyFrame) (s : State) : ∃ x, s.sentPic i f = { s with dec := { s.dec with ctxs := x } } := by
  unfold State.sentPic
  split
  · exact ⟨s.dec.ctxs, rfl⟩
  · exact ⟨_, rfl⟩

/-- A state that is another but for which rows the engines code. -/
def CodingOnly (s u : State) : Prop := { u with enc := { u.enc with coding := s.enc.coding } } = s

/-- Nothing changed. -/
theorem CodingOnly.refl (s : State) : CodingOnly s s := rfl
/-- One engine takes another row. -/
theorem CodingOnly.set (s : State) (e v : Nat) : CodingOnly s { s with enc := { s.enc with coding := s.enc.coding.set 0 e v } } := rfl
/-- Two such changes make one. -/
theorem CodingOnly.trans {s u v : State} (h : CodingOnly s u) (g : CodingOnly u v) : CodingOnly s v := by
  have h1 := congrArg (fun y : State => { y with enc := { y.enc with coding := s.enc.coding } }) g
  exact h1.trans h
/-- The state that such a change leaves, written out. -/
theorem CodingOnly.eq {s u : State} (h : CodingOnly s u) : u = { s with enc := { s.enc with coding := u.enc.coding } } := by
  have := congrArg (fun y : State => { y with enc := { y.enc with coding := u.enc.coding } }) h
  exact this
/-- No encode context changes. -/
theorem CodingOnly.ctxs {s u : State} (h : CodingOnly s u) (k : Nat) : u.encRt k = s.encRt k := by rw [h.eq]; rfl

/-- An engine's turn changes which rows the engines code alone, and takes no engine from a row that it codes (R233). -/
theorem encTurn_spec (e : Nat) (s : State) : CodingOnly s (s.encTurn e) ∧ ∀ g c, s.codingOn g = some c → (s.encTurn e).codingOn g = some c := by
  unfold State.encTurn
  split
  · exact ⟨rfl, fun _ _ h => h⟩
  · next hn =>
    split
    · exact ⟨rfl, fun _ _ h => h⟩
    · refine ⟨rfl, fun g c h => ?_⟩
      by_cases hg : g = e
      · subst hg; rw [hn] at h; cases h
      · unfold State.codingOn at h ⊢
        rw [show Tab.get 0 g (Tab.set 0 e _ s.enc.coding) = Tab.get 0 g s.enc.coding from tab_get_set_other 0 e g _ _ (by omega) hg]
        exact h

/-- The turns of the four engines, in order (R233). -/
theorem encTurns_spec (s : State) : CodingOnly s s.encTurns ∧ ∀ g c, s.codingOn g = some c → s.encTurns.codingOn g = some c := by
  unfold State.encTurns
  generalize List.range 4 = l
  induction l generalizing s with
  | nil => exact ⟨rfl, fun _ _ h => h⟩
  | cons x l ih =>
    obtain ⟨a1, a2⟩ := encTurn_spec x s
    obtain ⟨b1, b2⟩ := ih (s.encTurn x)
    exact ⟨a1.trans b1, fun g c h => b2 g c (a2 g c h)⟩

/-- Freeing a context's engine changes which rows the engines code alone. -/
theorem encFree_spec (c : Nat) (s : State) : CodingOnly s (s.encFree c) := by
  unfold State.encFree
  generalize List.range 4 = l
  induction l generalizing s with
  | nil => rfl
  | cons x l ih =>
    refine CodingOnly.trans ?_ (ih _)
    dsimp only
    split
    · exact CodingOnly.set s x 0
    · rfl

/-- A picture that misses nothing in the row in hand stays as it is (R236). -/
theorem encMissed_none (c : Nat) (s : State) (r : EncRt) (p : EncPic) (hr : s.encRt c = r) (hp : r.pic = some p)
    (h : p.idr = true ∨ ∀ y ∈ p.unread r.cfg p.row, s.encWindow (r.cfg.regions.getD y.1 {}).head y.2 p.start ≠ .late) : s.encMissed c = s := by
  unfold State.encMissed; dsimp only
  rw [hr, hp]; dsimp only
  split
  · rfl
  · next hi =>
    rw [List.filter_eq_nil_iff.mpr]
    · rfl
    · intro y hy
      rcases h with h | h
      · exact absurd h hi
      · simpa using h y hy

end Sys2Proof.Machine
end

