-- ==== Sys2Proof/Laws/Display.lean ====
section
/-! SUPPORT. What the operations of the Braid, points, heads and the Stopper leave and write (R142 to R230). -/

namespace Sys2Proof.Machine

open Sys2Proof

/-- A tile row reads back what has been set. -/
theorem row_modRow (k : Nat) (g : RowRt → RowRt) (s : State) (h : g (s.row k) ≠ {}) : (s.modRow k g).row k = g (s.row k) := by
  unfold State.row State.modRow Tab.modify
  exact tab_get_set_same _ _ _ _ h

/-- When a record replaces the stored one (R221). -/
theorem replacesPoint_iff (old : PointEntry) (t q : Nat) : replacesPoint old t q = true ↔ (old.time < t ∨ (old.time = t ∧
    1 ≤ (q + 65536 - old.seq % 65536) % 65536 ∧ (q + 65536 - old.seq % 65536) % 65536 ≤ 32767)) := by
  unfold replacesPoint inRange; simp

/-- The counts of a drawn surface touch counters alone. -/
theorem overlayCounts_frame (b i m n : Nat) (w : State) : ∃ c, State.setCounter b i 4 n (State.setCounter b i 3 m (w.count b i 0 1)) = { w with counters := c } := by
  obtain ⟨c1, h1⟩ : ∃ c, w.count b i 0 1 = { w with counters := c } := ⟨_, rfl⟩
  rw [h1]
  obtain ⟨c2, h2⟩ : ∃ c, State.setCounter b i 3 m { w with counters := c1 } = { w with counters := c } := ⟨_, rfl⟩
  rw [h2]
  exact ⟨_, rfl⟩

/-- A head reads back what has been set. -/
theorem headRt_modHead (h : Nat) (g : HeadRt → HeadRt) (s : State) (hn : g (s.headRt h) ≠ {}) : (s.modHead h g).headRt h = g (s.headRt h) := by
  unfold State.headRt State.modHead Tab.modify
  exact tab_get_set_same _ _ _ _ hn

/-- An enabled head has been touched. -/
theorem headRt_ne_default {k : HeadRt} (h : k.cfg.enable = true) : k ≠ {} := by intro he; rw [he] at h; cases h

/-- Changes that agree on the head as it stands are the same. -/
theorem modHead_congr (h : Nat) (g f : HeadRt → HeadRt) (s : State) (e : g (s.headRt h) = f (s.headRt h)) : s.modHead h g = s.modHead h f := by
  unfold State.modHead Tab.modify
  rw [show g (Tab.get {} h s.heads) = f (Tab.get {} h s.heads) from e]

/-- Two changes of a head are one. -/
theorem modHead_modHead (h : Nat) (g f : HeadRt → HeadRt) (s : State) (hf : f (s.headRt h) ≠ {}) (hg : g (f (s.headRt h)) ≠ {}) :
    (s.modHead h f).modHead h g = s.modHead h (fun x => g (f x)) := by
  have h1 := headRt_modHead h f s hf
  show { s with heads := (s.modHead h f).heads.modify {} h g } = { s with heads := s.heads.modify {} h (fun x => g (f x)) }
  have : (s.modHead h f).heads.modify {} h g = s.heads.modify {} h (fun x => g (f x)) := by
    show Tab.set {} h (g ((s.modHead h f).headRt h)) (Tab.set {} h (f (s.headRt h)) s.heads) = Tab.set {} h (g (f (s.headRt h))) s.heads
    rw [h1, tab_set_set _ _ _ _ _ hg hf]
  rw [this]

/-- Resting lanes touches lanes and counters. -/
theorem restLanes_frame : ∀ (l : List Nat) (u : State), { u.restLanes l with lanes := u.lanes, counters := u.counters } = u ∧ (u.restLanes l).heads = u.heads := by
  intro l
  induction l with
  | nil => intro u; exact ⟨rfl, rfl⟩
  | cons x l ih =>
    intro u
    have h1 : { u.restLane x with lanes := u.lanes, counters := u.counters } = u ∧ (u.restLane x).heads = u.heads := by
      unfold State.restLane; split <;> exact ⟨rfl, rfl⟩
    obtain ⟨h2, h3⟩ := ih (u.restLane x)
    refine ⟨?_, h3.trans h1.2⟩
    have h4 := congrArg (fun y : State => { y with lanes := u.lanes, counters := u.counters }) h2
    exact h4.trans h1.1

/-- A state that is another but for some parts is that state with those parts. -/
theorem restLanes_eq (l : List Nat) (u : State) : ∃ n c, u.restLanes l = { u with lanes := n, counters := c } := by
  refine ⟨(u.restLanes l).lanes, (u.restLanes l).counters, ?_⟩
  have h := congrArg (fun y : State => { y with lanes := (u.restLanes l).lanes, counters := (u.restLanes l).counters }) (restLanes_frame l u).1
  exact h

/-- What a head is without the lines on the way. -/
def HeadRt.unlit (r : HeadRt) : HeadRt := { r with lit := [], litAbort := false }

/-- What a head is without its attempt's AUX transaction. -/
def HeadRt.untrained (r : HeadRt) : HeadRt := { r with aux := r.aux.filter (fun j => decide (j.1 ≠ .train)) }

/-- Cutting a head's lines touches that head and counters alone (R212, R214). -/
theorem cutLines_eq (h : Nat) (u : State) : ∃ c, u.cutLines h = { u with heads := u.heads.modify {} h HeadRt.unlit, counters := c } := by
  unfold State.cutLines
  dsimp only
  split
  · exact ⟨_, rfl⟩
  · exact ⟨u.counters, rfl⟩

/-- The end of an attempt touches that head and what leaves the device alone (R210). -/
theorem auxUntrain_eq (h : Nat) (u : State) : ∃ o, u.auxUntrain h = { u with heads := u.heads.modify {} h HeadRt.untrained, out := o } := by
  unfold State.auxUntrain
  extract_lets first v
  have hv : v = { u with heads := u.heads.modify {} h HeadRt.untrained } := rfl
  split
  · unfold State.auxSend
    split
    · exact ⟨u.out, hv⟩
    · rw [hv]; exact ⟨_, rfl⟩
  · exact ⟨u.out, hv⟩

/-- What taking a head DOWN does (R52, R212). -/
theorem headDown_spec (h : Nat) (u : State) (he : (u.headRt h).cfg.enable = true) :
    (u.headDown h).headRt h = { (u.headRt h).unlit.unlink.untrained with
      state := .down, attempting := false, attempts := 0, hpdWasLow := (u.headRt h).hpdWasLow || !(u.headRt h).hpd } ∧
    { u.headDown h with heads := u.heads, lanes := u.lanes, counters := u.counters, out := u.out } = u := by
  unfold State.headDown
  obtain ⟨c, hc⟩ := cutLines_eq h u
  rw [hc]
  let g : HeadRt → HeadRt := fun r => { r.unlink with state := .down, attempting := false, attempts := 0, hpdWasLow := r.hpdWasLow || !r.hpd }
  have h1 : (u.modHead h HeadRt.unlit).headRt h = (u.headRt h).unlit := headRt_modHead h _ u (headRt_ne_default he)
  have h2 : ((u.modHead h HeadRt.unlit).modHead h g).headRt h = g (u.headRt h).unlit := by
    rw [headRt_modHead h g _ (headRt_ne_default (by rw [h1]; exact he)), h1]
  have h3 : (((u.modHead h HeadRt.unlit).modHead h g).modHead h HeadRt.untrained).headRt h = (g (u.headRt h).unlit).untrained := by
    rw [headRt_modHead h _ _ (headRt_ne_default (by rw [h2]; exact he)), h2]
  generalize hw : State.modHead h (fun r => { r.unlink with state := .down, attempting := false, attempts := 0, hpdWasLow := r.hpdWasLow || !r.hpd })
    { u with heads := u.heads.modify {} h HeadRt.unlit, counters := c } = w
  have w1 : w.heads = ((u.modHead h HeadRt.unlit).modHead h g).heads := by rw [← hw]; rfl
  obtain ⟨o, ho⟩ := auxUntrain_eq h w
  rw [ho]
  obtain ⟨n, k, hn⟩ := restLanes_eq (headLanes (u.headRt h).cfg) { w with heads := w.heads.modify {} h HeadRt.untrained, out := o }
  rw [hn]
  refine ⟨?_, ?_⟩
  · show Tab.get {} h (w.heads.modify {} h HeadRt.untrained) = _
    rw [w1]; exact h3
  · rw [← hw]; rfl

/-- Counting touches counters alone. -/
theorem count_frame (b i x n : Nat) (s : State) : { s.count b i x n with counters := s.counters } = s := rfl

/-- Changing a head touches heads alone. -/
theorem modHead_frame (h : Nat) (g : HeadRt → HeadRt) (s : State) : { s.modHead h g with heads := s.heads } = s := rfl

/-- A set of markers added to none is that set. -/
theorem mem_unionMarks_nil (l : List Marker) (m : Marker) : m ∈ unionMarks [] l ↔ m ∈ l := by
  unfold unionMarks hasMark allMarkers
  simp only [List.any_nil, Bool.false_or, List.mem_filter, List.any_eq_true, decide_eq_true_eq]
  constructor
  · rintro ⟨-, x, hx, rfl⟩; exact hx
  · intro h; refine ⟨?_, m, h, rfl⟩; cases m <;> simp

/-- What a union of markers holds. -/
theorem mem_unionMarks (a b : List Marker) (m : Marker) : m ∈ unionMarks a b ↔ m ∈ a ∨ m ∈ b := by
  unfold unionMarks hasMark allMarkers
  simp only [List.mem_filter, Bool.or_eq_true, List.any_eq_true, decide_eq_true_eq]
  constructor
  · rintro ⟨-, ⟨x, hx, rfl⟩ | ⟨x, hx, rfl⟩⟩
    · exact .inl hx
    · exact .inr hx
  · intro h
    refine ⟨by cases m <;> simp, ?_⟩
    rcases h with h | h
    · exact .inl ⟨m, h, rfl⟩
    · exact .inr ⟨m, h, rfl⟩

/-- A marker stays in a growing union. -/
theorem mem_foldl_unionMarks (ms : List (List Marker)) : ∀ (u : List Nat) (acc : List Marker) (m : Marker), m ∈ acc → m ∈ u.foldl (fun a i => unionMarks a (ms.getD i [])) acc := by
  intro u
  induction u with
  | nil => intro acc m h; exact h
  | cons x u ih => intro acc m h; exact ih _ m ((mem_unionMarks _ _ _).mpr (.inl h))

/-- STALE shows as STALE, DEAD or UNVERIFIED (R181). -/
theorem shownMarks_of_stale (l : List Marker) (h : Marker.stale ∈ l) : ∃ m ∈ shownMarks l, m = .stale ∨ m = .dead ∨ m = .unverified := by
  unfold shownMarks
  split
  · exact ⟨_, List.mem_cons_self .., .inr (.inr rfl)⟩
  · split
    · exact ⟨_, List.mem_cons_self .., .inr (.inl rfl)⟩
    · exact ⟨_, h, .inl rfl⟩

/-- DEAD shows as DEAD or UNVERIFIED (R181). -/
theorem shownMarks_of_dead (l : List Marker) (h : Marker.dead ∈ l) : ∃ m ∈ shownMarks l, m = .dead ∨ m = .unverified := by
  unfold shownMarks
  split
  · exact ⟨_, List.mem_cons_self .., .inr rfl⟩
  · rw [if_pos (by unfold hasMark; simpa using h)]
    exact ⟨_, List.mem_cons_self .., .inl rfl⟩

/-- Everything but heads, the Stopper and counters stays. -/
def HScFrame (s u : State) : Prop := { u with heads := s.heads, stop := s.stop, counters := s.counters } = s

/-- Nothing done keeps it. -/
theorem HScFrame.refl (s : State) : HScFrame s s := rfl

/-- Two such changes are one. -/
theorem HScFrame.trans {s u v : State} (h : HScFrame s u) (g : HScFrame u v) : HScFrame s v := by
  have h1 := congrArg (fun y : State => { y with heads := s.heads, stop := s.stop, counters := s.counters }) g
  exact h1.trans h

/-- Counting keeps it. -/
theorem HScFrame.count {s u : State} (h : HScFrame s u) (b i x n : Nat) : HScFrame s (u.count b i x n) := HScFrame.trans h rfl

/-- Changing a head keeps it. -/
theorem HScFrame.modHead {s u : State} (h : HScFrame s u) (k : Nat) (g) : HScFrame s (u.modHead k g) := HScFrame.trans h rfl

/-- Changing a signature unit keeps it. -/
theorem HScFrame.modSig {s u : State} (h : HScFrame s u) (k : Nat) (g) : HScFrame s (u.modSig k g) := HScFrame.trans h rfl

/-- Counting markers keeps it. -/
theorem HScFrame.countMarks {s u : State} (h : HScFrame s u) (k : Nat) (l : List Marker) : HScFrame s (u.countMarks k l) ∧ (u.countMarks k l).heads = u.heads ∧ (u.countMarks k l).stop = u.stop := by
  unfold State.countMarks
  induction l generalizing u with
  | nil => exact ⟨h, rfl, rfl⟩
  | cons x l ih =>
    rw [List.foldl_cons]
    cases hm : markCounter x with
    | none => exact ih h
    | some i =>
      obtain ⟨h1, h2, h3⟩ := ih (u := u.count 0x06 k i 1) (HScFrame.count h _ _ _ _)
      exact ⟨h1, h2, h3⟩

/-- Recording a judged band keeps it. -/
theorem HScFrame.recordBand (s : State) (h b : Nat) (pol vs) : HScFrame s (s.recordBand h b pol vs) ∧ (s.recordBand h b pol vs).heads = s.heads := by
  unfold State.recordBand
  extract_lets k c live cols at_ tf cf here newTf oldCf newCf marks caps src s1 s2 s3 s4
  have h1 : HScFrame s s1 ∧ s1.heads = s.heads := ⟨rfl, rfl⟩
  clear_value s1
  have h2 : HScFrame s s2 ∧ s2.heads = s.heads := by
    show HScFrame s (if b % 8 = 0 then s1.count 0x06 h 0 tf.length else s1) ∧ (if b % 8 = 0 then s1.count 0x06 h 0 tf.length else s1).heads = s.heads
    split
    · exact ⟨HScFrame.count h1.1 _ _ _ _, h1.2⟩
    · exact h1
  clear_value s2
  have h3 : HScFrame s s3 ∧ s3.heads = s.heads := ⟨HScFrame.count h2.1 _ _ _ _, h2.2⟩
  clear_value s3
  have h4 : HScFrame s s4 ∧ s4.heads = s.heads := by
    show HScFrame s (if _ then _ else _) ∧ State.heads (if _ then _ else _) = s.heads
    split
    · exact ⟨HScFrame.count h3.1 _ _ _ _, h3.2⟩
    · exact h3
  clear_value s4
  have hfold : ∀ (l : List Nat) (u : State), HScFrame s u ∧ u.heads = s.heads →
      HScFrame s (l.foldl (fun s i => s.countMarks h (takenMarks c live i b (at_ i).view)) u) ∧ (l.foldl (fun s i => s.countMarks h (takenMarks c live i b (at_ i).view)) u).heads = s.heads := by
    intro l
    induction l with
    | nil => intro u hu; exact hu
    | cons y l ih =>
      intro u hu
      obtain ⟨g1, g2, -⟩ := HScFrame.countMarks hu.1 h (takenMarks c live y b (at_ y).view)
      exact ih _ ⟨g1, g2.trans hu.2⟩
  exact hfold cols s4 h4

/-- In a table in canonical form a head reads back what has been set. -/
theorem headRt_modHead_wf (h : Nat) (g : HeadRt → HeadRt) (s : State) (hw : s.heads.wf {} = true) : (s.modHead h g).headRt h = g (s.headRt h) := by
  unfold State.headRt State.modHead Tab.modify
  exact Tab.get_set_same _ _ _ _ (Tab.wf_iff.1 hw).1

/-- Changing a head leaves the others as they were. -/
theorem headRt_modHead_other (h k : Nat) (hk : k ≠ h) (g : HeadRt → HeadRt) (s : State) (hw : s.heads.wf {} = true) : (s.modHead h g).headRt k = s.headRt k := by
  unfold State.headRt State.modHead Tab.modify
  exact Tab.get_set_other _ hk _ _ (Tab.wf_iff.1 hw).1

/-- What a head emits depends on the heads, the device state and the fences alone. -/
theorem emission_of_frame (h : Nat) {a u : State} (hf : HScFrame a u) : u.emission h = ({ a with heads := u.heads } : State).emission h := by
  have e1 : u.dev = a.dev := by have := congrArg State.dev hf; exact this
  have e2 : u.flt = a.flt := by have := congrArg State.flt hf; exact this
  unfold State.emission State.isFenced State.headRt
  rw [e1, e2]

/-- What a head sends next once a band row has been judged. -/
theorem emitLines_shows (h b : Nat) (vs : List TileView) (u : State) (hw : u.heads.wf {} = true) :
    (u.emitLines h b vs).heads.wf {} = true ∧ (∀ k, k ≠ h → (u.emitLines h b vs).headRt k = u.headRt k) ∧
    ((u.emitLines h b vs).headRt h).glassBand = b ∧
    ((u.emitLines h b vs).headRt h).lit = (bandLines (u.headRt h).cfg b).map (fun y => (List.range (u.headRt h).cfg.hActive).map (fun z =>
      emittedPixel u.boot.palette h (u.headRt h) u.stop.captions vs (u.emission h) z y)) := by
  unfold State.emitLines
  extract_lets x e lines
  have e : ∀ g, (u.modHead h g).heads.wf {} = true := fun g => Tab.wf_modify h g hw
  refine ⟨e _, fun k hk => headRt_modHead_other h k hk _ u hw, ?_, ?_⟩
  · rw [headRt_modHead_wf h _ u hw]
  · rw [headRt_modHead_wf h _ u hw]
    rfl

/-- A band row that is due leaves from a state in which an underrun is noted, and what follows keeps what the heads show. -/
theorem sendBand_shape (h b : Nat) (o : BandObs) (s : State) (hw : s.heads.wf {} = true) (hd : s.bandDue h b = true) :
    ∃ u vs, HScFrame s u ∧ u.heads.wf {} = true ∧ (∀ k, k ≠ h → u.headRt k = s.headRt k) ∧
      (u.headRt h).cfg = (s.headRt h).cfg ∧ (u.headRt h).n = (s.headRt h).n ∧ (u.headRt h).idle = (s.headRt h).idle ∧
      (u.headRt h).state = (if (s.headRt h).state = .live ∧ bandKey (s.headRt h).frame (s.headRt h).half b ∉ (s.headRt h).fetched then .aborted else (s.headRt h).state) ∧
      (u.emission h).draws = true ∧ Keeps (u.emitLines h b vs) (s.sendBand h b o) := by
  have hdr : (s.emission h).draws = true := by
    unfold State.bandDue at hd; simp only [Bool.and_eq_true] at hd; exact hd.2
  unfold State.sendBand; dsimp only
  generalize hx : s.headRt h = x
  generalize hin : hasNat (bandKey x.frame x.half b) x.fetched = inT
  have hmem : inT = true ↔ bandKey x.frame x.half b ∈ x.fetched := by
    rw [← hin, hasNat_eq_decide, decide_eq_true_eq]
  generalize (inT && (decide (s.emission h = .live) || decide (s.emission h = .starting))) = jg
  obtain ⟨s4, h4⟩ : ∃ s4, s4 = (if (!inT && decide (x.state = .live)) = true then s.underrun h else s) := ⟨_, rfl⟩
  rw [← h4]
  have k4 : HScFrame s s4 ∧ s4.heads.wf {} = true ∧ (∀ k, k ≠ h → s4.headRt k = s.headRt k) ∧ (s4.headRt h).cfg = x.cfg ∧ (s4.headRt h).n = x.n ∧
      (s4.headRt h).idle = x.idle ∧ (s4.headRt h).state = (if x.state = .live ∧ bandKey x.frame x.half b ∉ x.fetched then .aborted else x.state) := by
    rw [h4]
    split
    · next hif =>
      simp only [Bool.and_eq_true, Bool.not_eq_true', decide_eq_true_eq] at hif
      have hn : bandKey x.frame x.half b ∉ x.fetched := by rw [← hmem, hif.1]; simp
      rw [if_pos ⟨hif.2, hn⟩]
      unfold State.underrun; dsimp only
      have e : ∀ g, ((s.modHead h g).countHead h 1).headRt h = g x ∧ HScFrame s ((s.modHead h g).countHead h 1) ∧
          ((s.modHead h g).countHead h 1).heads.wf {} = true ∧ ∀ k, k ≠ h → ((s.modHead h g).countHead h 1).headRt k = s.headRt k := fun g =>
        ⟨(headRt_modHead_wf h g s hw).trans (by rw [hx]), HScFrame.count (HScFrame.modHead (HScFrame.refl s) h g) 0x05 h 1 1,
          Tab.wf_modify h g hw, fun k hk => headRt_modHead_other h k hk g s hw⟩
      refine ⟨(e _).2.1, (e _).2.2.1, (e _).2.2.2, ?_, ?_, ?_, ?_⟩
      · rw [(e _).1]
      · rw [(e _).1]
      · rw [(e _).1]
      · rw [(e _).1]
    · next hif =>
      have : ¬(x.state = .live ∧ bandKey x.frame x.half b ∉ x.fetched) := by
        rintro ⟨h1, h2⟩
        rw [← hmem] at h2
        apply hif
        rw [h1]; simp only [Bool.and_eq_true, Bool.not_eq_true', decide_true, and_true]
        simpa using h2
      rw [if_neg this]
      exact ⟨HScFrame.refl s, hw, fun _ _ => rfl, by rw [hx], by rw [hx], by rw [hx], by rw [hx]⟩
  clear h4
  obtain ⟨f4, w4, o4, c4, n4, i4, t4⟩ := k4
  obtain ⟨s5, h5⟩ : ∃ s5, s5 = (if (!inT) = true then s4.modHead h (fun y => { y with allInTime := false }) else s4) := ⟨_, rfl⟩
  rw [← h5]
  have k5 : HScFrame s s5 ∧ s5.heads.wf {} = true ∧ (∀ k, k ≠ h → s5.headRt k = s.headRt k) ∧ (s5.headRt h).cfg = x.cfg ∧ (s5.headRt h).n = x.n ∧
      (s5.headRt h).idle = x.idle ∧ (s5.headRt h).state = (if x.state = .live ∧ bandKey x.frame x.half b ∉ x.fetched then .aborted else x.state) := by
    rw [h5]
    split
    · have e : ∀ g, (s4.modHead h g).headRt h = g (s4.headRt h) ∧ HScFrame s (s4.modHead h g) ∧
          (s4.modHead h g).heads.wf {} = true ∧ ∀ k, k ≠ h → (s4.modHead h g).headRt k = s.headRt k := fun g =>
        ⟨headRt_modHead_wf h g s4 w4, HScFrame.modHead f4 h g, Tab.wf_modify h g w4, fun k hk => (headRt_modHead_other h k hk g s4 w4).trans (o4 k hk)⟩
      refine ⟨(e _).2.1, (e _).2.2.1, (e _).2.2.2, ?_, ?_, ?_, ?_⟩ <;> rw [(e _).1] <;> assumption
    · exact ⟨f4, w4, o4, c4, n4, i4, t4⟩
  clear h5 f4 w4 o4 c4 n4 i4 t4
  generalize (if jg = true then s5.judgeBand h b o else []) = vs
  obtain ⟨s7, h7⟩ : ∃ s7, s7 = (if jg = true then s5.recordBand h b (s5.stop.policy.get [] h) vs else s5) := ⟨_, rfl⟩
  rw [← h7]
  obtain ⟨f5, w5, o5, c5, n5, i5, t5⟩ := k5
  have e7 : HScFrame s s7 ∧ s7.heads = s5.heads := by
    rw [h7]; split
    · exact ⟨HScFrame.trans f5 (HScFrame.recordBand s5 h b _ vs).1, (HScFrame.recordBand s5 h b _ vs).2⟩
    · exact ⟨f5, rfl⟩
  have r7 : ∀ k, s7.headRt k = s5.headRt k := fun k => by unfold State.headRt; rw [e7.2]
  refine ⟨s7, vs.map (fun v => v.view), e7.1, by rw [e7.2]; exact w5, fun k hk => (r7 k).trans (o5 k hk), by rw [r7]; exact c5, by rw [r7]; exact n5,
    by rw [r7]; exact i5, by rw [r7]; exact t5, ?_, ?_⟩
  · have hs : s.emission h = (match x.state with
        | .down => .off | .training => .training
        | .starting => if x.idle then .idle else if (decide (s.dev = .safe) || s.isFenced (46 + stopUnitOf h)) then .dead else .starting
        | .live => if (decide (s.dev = .safe) || s.isFenced (46 + stopUnitOf h)) then .dead else .live
        | .aborted => if (decide (s.dev = .safe) || s.isFenced (46 + stopUnitOf h)) then .dead else .abort) := by
      unfold State.emission; dsimp only; rw [hx]; try rfl
    rw [hs] at hdr
    rw [emission_of_frame h e7.1]
    unfold State.emission State.isFenced
    dsimp only
    have r8 : State.headRt { s with heads := s7.heads } h = s7.headRt h := rfl
    rw [r8, r7, t5, i5]
    unfold State.isFenced at hdr
    cases hst : x.state <;> rw [hst] at hdr <;> simp only [reduceCtorEq, false_and, if_false, true_and] at hdr ⊢
    · cases hdr
    · cases hdr
    · exact hdr
    · by_cases hm : bandKey x.frame x.half b ∈ x.fetched
      · rw [if_neg (fun hh => hh hm)]; exact hdr
      · rw [if_pos hm]; dsimp only; split <;> rfl
    · exact hdr
  · generalize hv : s7.emitLines h b (vs.map (fun v => v.view)) = v
    have k0 : Keeps v (v.modHead h (fun y => { y with emitted := b + 1, fetched := removeNat (bandKey x.frame x.half b) y.fetched, urgent := removeNat (bandKey x.frame x.half b) y.urgent })) :=
      State.keeps_modHead (keeps_refl v)
    generalize v.modHead h _ = s9 at k0 ⊢
    have k1 : Keeps v (if b + 1 = bandRows x.cfg then s9.frameEnd h else s9) := keeps_ite (State.keeps_frameEnd k0) k0
    generalize (if b + 1 = bandRows x.cfg then s9.frameEnd h else s9) = s10 at k1 ⊢
    have k2 : Keeps v (s10.noteDisagree h (vs.filter (fun v => v.disagree)).length) := State.keeps_noteDisagree k1
    generalize s10.noteDisagree h _ = s11 at k2 ⊢
    exact keeps_ite (State.keeps_lineBuffer k2) k2

/-- Scheduling the Braid leaves all but the Braid, counters, the log, the rings and what has left the device. -/
theorem schedule_keeps (s : State) : { s.schedule with braid := s.braid, counters := s.counters, log := s.log, rings := s.rings, out := s.out } = s := by
  have ht : { s.takeBackNow with braid := s.braid, counters := s.counters, log := s.log, rings := s.rings, out := s.out } = s := by
    unfold State.takeBackNow; dsimp only
    split
    · exact congrArg (fun y : State => { y with braid := s.braid, counters := s.counters, log := s.log, rings := s.rings, out := s.out })
        (event_frame 0x000A s.lay.dev.strandPref s.raster.frame _).1
    · rfl
  unfold State.schedule
  split
  · rfl
  · dsimp only
    generalize s.takeBackNow = t at ht
    split
    · exact ht
    · exact ht

/-- A seal that reaches the Braid leaves all but the Braid, counters, the log, the rings and what has left the device. -/
theorem sealArrived_keeps (i : Nat) (c d) (s : State) :
    { s.sealArrived i c d with braid := s.braid, counters := s.counters, log := s.log, rings := s.rings, out := s.out } = s := by
  have hf : ∀ (l : List (Nat × RowRt)) (u : State), ∃ g, l.foldl (fun u e => u.sealRow i c d e.1) u = { u with braid := g } := by
    intro l
    induction l with
    | nil => intro u; exact ⟨u.braid, rfl⟩
    | cons x l ih =>
      intro u
      obtain ⟨g, hg⟩ := sealRow_frame i c d x.1 u
      obtain ⟨g2, hg2⟩ := ih (u.sealRow i c d x.1)
      exact ⟨g2, by rw [List.foldl_cons, hg2, hg]⟩
  obtain ⟨g, hg⟩ := hf s.braid.rows s
  unfold State.sealArrived
  rw [hg]
  exact congrArg (fun y : State => { y with braid := s.braid }) (schedule_keeps { s with braid := g })

/-- An attempt's end with no AUX job sends nothing. -/
theorem auxUntrain_out (h : Nat) (u : State) (ha : (u.headRt h).aux = []) : (u.auxUntrain h).out = u.out := by
  unfold State.auxUntrain
  rw [ha]; rfl

/-- A head without AUX jobs that goes DOWN sends nothing. -/
theorem headDown_out (h : Nat) (u : State) (he : (u.headRt h).cfg.enable = true) (ha : (u.headRt h).aux = []) : (u.headDown h).out = u.out := by
  unfold State.headDown
  obtain ⟨c, hc⟩ := cutLines_eq h u
  rw [hc]
  let g : HeadRt → HeadRt := fun r => { r.unlink with state := .down, attempting := false, attempts := 0, hpdWasLow := r.hpdWasLow || !r.hpd }
  have h1 : (u.modHead h HeadRt.unlit).headRt h = (u.headRt h).unlit := headRt_modHead h _ u (headRt_ne_default he)
  have h2 : ((u.modHead h HeadRt.unlit).modHead h g).headRt h = g (u.headRt h).unlit := by
    rw [headRt_modHead h g _ (headRt_ne_default (by rw [h1]; exact he)), h1]
  generalize hw : State.modHead h (fun r => { r.unlink with state := .down, attempting := false, attempts := 0, hpdWasLow := r.hpdWasLow || !r.hpd })
    { u with heads := u.heads.modify {} h HeadRt.unlit, counters := c } = w
  have w1 : (w.headRt h).aux = [] := by
    have : w.headRt h = ((u.modHead h HeadRt.unlit).modHead h g).headRt h := by rw [← hw]; rfl
    rw [this, h2]; exact ha
  obtain ⟨n, k, hn⟩ := restLanes_eq (headLanes (u.headRt h).cfg) (w.auxUntrain h)
  rw [hn]
  show (w.auxUntrain h).out = _
  rw [auxUntrain_out h w w1, ← hw]; rfl

/-- Training writes go to the sink and nowhere else. -/
theorem trainWrites_eq (h : Nat) (v : State) : ∃ ws, v.trainWrites h = { v with out := { v.out with auxWrites := ws } } := ⟨_, rfl⟩

/-- A head that enters TRAINING takes its default link and writes to the sink (R52, R211). -/
theorem headTrain_spec (h : Nat) (u : State) (he : (u.headRt h).cfg.enable = true) :
    (u.headTrain h).headRt h = { (u.headRt h).unlit.unlink with state := .training, attempting := true, attempts := 0, hpdWasLow := false } ∧
    { u.headTrain h with heads := u.heads, counters := u.counters, out := { (u.headTrain h).out with auxWrites := u.out.auxWrites } } = u := by
  unfold State.headTrain
  obtain ⟨c, hc⟩ := cutLines_eq h u
  rw [hc]
  let g : HeadRt → HeadRt := fun r => { r.unlink with state := .training, attempting := true, attempts := 0, hpdWasLow := false }
  have h1 : (u.modHead h HeadRt.unlit).headRt h = (u.headRt h).unlit := headRt_modHead h _ u (headRt_ne_default he)
  have h2 : ((u.modHead h HeadRt.unlit).modHead h g).headRt h = g (u.headRt h).unlit := by
    rw [headRt_modHead h g _ (headRt_ne_default (by rw [h1]; exact he)), h1]
  obtain ⟨ws, hw⟩ := trainWrites_eq h (State.modHead h g { u with heads := u.heads.modify {} h HeadRt.unlit, counters := c })
  rw [show (fun r : HeadRt => { r.unlink with state := .training, attempting := true, attempts := 0, hpdWasLow := false }) = g from rfl, hw]
  exact ⟨h2, rfl⟩

end Sys2Proof.Machine
end

