-- ==== Sys2Proof/Laws/Links.lean ====
section
/-! SUPPORT. What the loss of a quad reaches (R318, R323 to R334). -/

namespace Sys2Proof.Machine

open Sys2Proof

/-- What the loss of a quad touches: ingest, heads, desks, lanes, counters, rings and what leaves the device, and no PLL. -/
def LinkFrame (s u : State) : Prop := { u with ing := s.ing, heads := s.heads, desks := s.desks, lanes := s.lanes, counters := s.counters, rings := s.rings, out := s.out, free := s.free } = s ∧
  u.lanes.pll = s.lanes.pll

/-- Nothing done keeps it. -/
theorem LinkFrame.refl (s : State) : LinkFrame s s := ⟨rfl, rfl⟩

/-- Two such changes are one. -/
theorem LinkFrame.trans {s u v : State} (h : LinkFrame s u) (g : LinkFrame u v) : LinkFrame s v := by
  refine ⟨?_, g.2.trans h.2⟩
  have h1 := congrArg (fun y : State => { y with ing := s.ing, heads := s.heads, desks := s.desks, lanes := s.lanes, counters := s.counters, rings := s.rings, out := s.out, free := s.free }) g.1
  exact h1.trans h.1

/-- Counting keeps it. -/
theorem LinkFrame.count (u : State) (b i x n : Nat) : LinkFrame u (u.count b i x n) := ⟨rfl, rfl⟩

/-- Changing a head keeps it. -/
theorem LinkFrame.modHead (u : State) (k : Nat) (g) : LinkFrame u (u.modHead k g) := ⟨rfl, rfl⟩

/-- Changing a desk keeps it. -/
theorem LinkFrame.modDesk (u : State) (k : Nat) (g) : LinkFrame u (u.modDesk k g) := ⟨rfl, rfl⟩

/-- Changing a lane keeps it. -/
theorem LinkFrame.modLane (u : State) (k : Nat) (g) : LinkFrame u (u.modLane k g) := ⟨rfl, rfl⟩

/-- Changing a source keeps it. -/
theorem LinkFrame.modSrc (u : State) (k : Nat) (g) : LinkFrame u (u.modSrc k g) := ⟨rfl, rfl⟩

/-- Resting lanes keeps it. -/
theorem LinkFrame.restLanes : ∀ (l : List Nat) (u : State), LinkFrame u (u.restLanes l) := by
  intro l
  induction l with
  | nil => intro u; exact LinkFrame.refl u
  | cons x l ih =>
    intro u
    refine LinkFrame.trans (u := u.restLane x) ?_ (ih _)
    unfold State.restLane; split
    · exact LinkFrame.trans (LinkFrame.modLane _ _ _) (LinkFrame.count _ _ _ _ _)
    · exact LinkFrame.refl u

/-- Cutting a head's lines keeps it. -/
theorem LinkFrame.cutLines (h : Nat) (u : State) : LinkFrame u (u.cutLines h) := by
  obtain ⟨c, hc⟩ := cutLines_eq h u
  rw [hc]; exact ⟨rfl, rfl⟩

/-- The end of an attempt's AUX transaction keeps it. -/
theorem LinkFrame.auxUntrain (h : Nat) (u : State) : LinkFrame u (u.auxUntrain h) := by
  obtain ⟨o, ho⟩ := auxUntrain_eq h u
  rw [ho]; exact ⟨rfl, rfl⟩

/-- Taking a head DOWN keeps it. -/
theorem LinkFrame.headDown (h : Nat) (u : State) : LinkFrame u (u.headDown h) :=
  LinkFrame.trans (LinkFrame.trans (LinkFrame.trans (LinkFrame.cutLines h u) (LinkFrame.modHead _ h _)) (LinkFrame.auxUntrain h _)) (LinkFrame.restLanes _ _)

/-- The writes of an attempt keep it. -/
theorem LinkFrame.trainWrites (h : Nat) (u : State) : LinkFrame u (u.trainWrites h) := by
  unfold State.trainWrites; exact ⟨rfl, rfl⟩

/-- The start of training keeps it. -/
theorem LinkFrame.headTrain (h : Nat) (u : State) : LinkFrame u (u.headTrain h) := by
  unfold State.headTrain
  exact LinkFrame.trans (LinkFrame.trans (LinkFrame.cutLines h u) (LinkFrame.modHead _ h _)) (LinkFrame.trainWrites h _)

/-- The loss of a head's link keeps it. -/
theorem LinkFrame.headLinkLoss (h : Nat) (u : State) : LinkFrame u (u.headLinkLoss h) := by
  unfold State.headLinkLoss
  split
  · extract_lets v
    have hv : LinkFrame u v := LinkFrame.trans (u := u.countHead h 7) (LinkFrame.count u _ _ _ _) (LinkFrame.headTrain h _)
    clear_value v
    split
    · exact hv
    · exact LinkFrame.trans hv (LinkFrame.headDown h v)
  · exact LinkFrame.refl u

/-- The loss of a port keeps it. -/
theorem LinkFrame.dprxDown (p : Nat) (u : State) : LinkFrame u (u.dprxDown p) := by
  unfold State.dprxDown
  extract_lets v
  have hv : LinkFrame u v := by
    show LinkFrame u (u.dprxDiscard p)
    unfold State.dprxDiscard
    extract_lets r v1 v2
    split
    · have h1 : LinkFrame u v1 := LinkFrame.count u _ _ _ _
      clear_value v1
      have h2 : LinkFrame u v2 := by
        show LinkFrame u (match sourceOfPort v1.lay p with | none => v1 | some i => (match r.frameBuf with | none => v1 | some b => v1.dropBuf i b).count 0x16 i 1 1)
        split
        · exact h1
        · split
          · exact LinkFrame.trans h1 (LinkFrame.count _ _ _ _ _)
          · exact LinkFrame.trans h1 (LinkFrame.trans (LinkFrame.modSrc _ _ _) (LinkFrame.count _ _ _ _ _))
      clear_value v2
      exact LinkFrame.trans h2 ⟨rfl, rfl⟩
    · exact LinkFrame.refl u
  clear_value v
  exact LinkFrame.trans hv ⟨rfl, rfl⟩

/-- A touch report keeps it. -/
theorem LinkFrame.report (r : TouchReport) (u : State) : LinkFrame u (u.report r) := by
  unfold State.report
  refine LinkFrame.trans ?_ (LinkFrame.modDesk _ _ _)
  unfold State.putReport
  extract_lets r1 o1 v q
  have hv : LinkFrame u v := ⟨rfl, rfl⟩
  clear_value r1 v q
  split
  · obtain ⟨g, m, w, hw⟩ := wroteSlots_frame 17 1 (touchBytes r1) ({ v with out := { v.out with touch := r1 :: v.out.touch } } : State)
    rw [hw]; exact LinkFrame.trans hv ⟨rfl, rfl⟩
  · split
    · exact LinkFrame.trans hv (LinkFrame.modDesk _ _ _)
    · exact LinkFrame.trans hv (LinkFrame.count _ _ _ _ _)

/-- A change of a desk's state keeps it. -/
theorem LinkFrame.deskState (d : Nat) (st : DeskState) (u : State) : LinkFrame u (u.deskState d st) := by
  unfold State.deskState
  split
  · exact LinkFrame.refl u
  · extract_lets v f w
    have hv : LinkFrame u v := by
      show LinkFrame u (if _ then _ else _)
      split
      · refine LinkFrame.trans ?_ (LinkFrame.modDesk _ _ _)
        unfold State.cancelContacts
        refine LinkFrame.trans ?_ (LinkFrame.modDesk _ _ _)
        generalize (u.desk d).contacts = l
        have : ∀ (l : List Contact) (w : State), LinkFrame w (l.foldl (fun s c => s.report (s.mkTouch d 7 c false 0 0 0)) w) := by
          intro l
          induction l with
          | nil => intro w; exact LinkFrame.refl w
          | cons x l ih => intro w; exact LinkFrame.trans (LinkFrame.report _ _) (ih _)
        exact this l u
      · exact LinkFrame.refl u
    have hw : LinkFrame u w := LinkFrame.trans hv (LinkFrame.trans (u := f.2) ⟨rfl, rfl⟩ (LinkFrame.modDesk _ _ _))
    clear_value w
    exact LinkFrame.trans hw (LinkFrame.report _ _)

/-- The loss of a desk keeps it. -/
theorem LinkFrame.deskLinkDown (d : Nat) (u : State) : LinkFrame u (u.deskLinkDown d) := by
  unfold State.deskLinkDown; split
  · exact LinkFrame.deskState _ _ _
  · exact LinkFrame.modDesk _ _ _

/-- A run of such changes keeps it. -/
theorem LinkFrame.foldl {α} (f : State → α → State) (hf : ∀ u x, LinkFrame u (f u x)) : ∀ (l : List α) (u : State), LinkFrame u (l.foldl f u) := by
  intro l
  induction l with
  | nil => intro u; exact LinkFrame.refl u
  | cons x l ih => intro u; exact LinkFrame.trans (hf u x) (ih _)

/-- The loss of a quad keeps it (R333). -/
theorem LinkFrame.quadStop (q : Nat) (u : State) : LinkFrame u (u.quadStop q) := by
  unfold State.quadStop
  dsimp only
  refine LinkFrame.trans (LinkFrame.trans (LinkFrame.trans (LinkFrame.foldl _ ?_ _ _) (LinkFrame.foldl _ ?_ _ _)) (LinkFrame.foldl _ ?_ _ _)) (LinkFrame.foldl _ ?_ _ _)
  · intro u x; split; exact LinkFrame.headLinkLoss _ _; exact LinkFrame.refl u
  · intro u x; split; exact LinkFrame.dprxDown _ _; exact LinkFrame.refl u
  · intro u x; split; exact ⟨rfl, rfl⟩; exact LinkFrame.refl u
  · intro u x; split; exact LinkFrame.deskLinkDown _ _; exact LinkFrame.refl u

end Sys2Proof.Machine
end

