-- ==== Sys2Proof/Laws/DeviceMemory.lean ====
section
/-! SUPPORT. The address map (R293, R294), refresh, and bytes of memory. -/

namespace Sys2Proof.Machine

open Sys2Proof

/-- A refresh takes every channel once. -/
theorem refreshAll_chans : ∀ (n : Nat) (u w : State), w = (List.range n).foldl (fun s c => s.modChan c (fun x => { x with refreshes := x.refreshes + 1 })) u →
    (∀ c, w.mem.chans.get {} c = if c < n then { (u.mem.chans.get {} c) with refreshes := (u.mem.chans.get {} c).refreshes + 1 } else u.mem.chans.get {} c) ∧
    { w with mem := { w.mem with chans := u.mem.chans } } = u := by
  intro n
  induction n with
  | zero => intro u w hw; subst hw; exact ⟨fun c => by rw [if_neg (by omega)]; try rfl, rfl⟩
  | succ n ih =>
    intro u w hw
    rw [List.range_succ, List.foldl_append] at hw
    obtain ⟨v, hv⟩ : ∃ v, v = (List.range n).foldl (fun (s : State) c => s.modChan c (fun x => { x with refreshes := x.refreshes + 1 })) u := ⟨_, rfl⟩
    rw [← hv] at hw
    obtain ⟨h1, h2⟩ := ih u v hv
    replace hw : w = v.modChan n (fun x => { x with refreshes := x.refreshes + 1 }) := hw
    subst hw
    refine ⟨?_, ?_⟩
    · intro c
      show Tab.get {} c (Tab.modify {} n (fun x : MemChannel => { x with refreshes := x.refreshes + 1 }) v.mem.chans) = _
      rw [tab_get_modify _ _ _ _ _ (by intro h; have := congrArg MemChannel.refreshes h; cases this)]
      by_cases hc : c = n
      · subst hc; rw [if_pos rfl, if_pos (by omega), h1 c, if_neg (by omega)]
      · rw [if_neg hc, h1 c]
        by_cases hl : c < n
        · rw [if_pos hl, if_pos (by omega)]
        · rw [if_neg hl, if_neg (by omega)]
    · have h := congrArg (fun y : State => { y with mem := { y.mem with chans := u.mem.chans } }) h2
      exact h

/-- The fold of R293 has five bits. -/
theorem fold_lt (m : Mem) (q : Nat) : m.fold q < 32 := by
  unfold Mem.fold
  split
  · have h : ∀ x, x % 32 < 2 ^ 5 := fun x => Nat.mod_lt _ (by decide)
    exact Nat.xor_lt_two_pow (Nat.xor_lt_two_pow (Nat.xor_lt_two_pow (Nat.xor_lt_two_pow (Nat.xor_lt_two_pow (h _) (h _)) (h _)) (h _)) (h _)) (h _)
  · decide

/-- The grain is not zero. -/
theorem grainBytes_pos (m : Mem) : 0 < m.grainBytes := Nat.mul_pos (by decide) (Nat.pow_pos (by decide))

/-- The general region lies on C0 to C29. -/
theorem general_lt (m : Mem) (a : Nat) : (m.general a).1 < 30 := by
  unfold Mem.general; dsimp only
  have hs : (a / m.grainBytes % 32) ^^^ m.fold (a / m.grainBytes / 32) < 2 ^ 5 := Nat.xor_lt_two_pow (Nat.mod_lt _ (by decide)) (fold_lt m _)
  split
  · assumption
  · show 2 * (a / m.grainBytes / 32 % 15) + _ < 30
    have := Nat.mod_lt (a / m.grainBytes / 32) (show 0 < 15 by decide)
    omega

/-- Two addresses of the general region do not share a place. -/
theorem general_inj (m : Mem) (a b : Nat) (h : m.general a = m.general b) : a = b := by
  unfold Mem.general at h; dsimp only at h
  have hg := grainBytes_pos m
  obtain ⟨g, hgd⟩ : ∃ g, g = m.grainBytes := ⟨_, rfl⟩
  rw [← hgd] at h hg
  obtain ⟨sa, hsa⟩ : ∃ x, x = (a / g % 32) ^^^ m.fold (a / g / 32) := ⟨_, rfl⟩
  obtain ⟨sb, hsb⟩ : ∃ x, x = (b / g % 32) ^^^ m.fold (b / g / 32) := ⟨_, rfl⟩
  rw [← hsa, ← hsb] at h
  have la : sa < 2 ^ 5 := by rw [hsa]; exact Nat.xor_lt_two_pow (Nat.mod_lt _ (by decide)) (fold_lt m _)
  have lb : sb < 2 ^ 5 := by rw [hsb]; exact Nat.xor_lt_two_pow (Nat.mod_lt _ (by decide)) (fold_lt m _)
  have hra := Nat.mod_lt a hg
  have hrb := Nat.mod_lt b hg
  have hq : sa = sb ∧ a / g / 32 = b / g / 32 ∧ a % g = b % g := by
    split at h <;> split at h <;> rw [Prod.mk.injEq] at h <;> obtain ⟨h1, h2⟩ := h <;> obtain ⟨h3, h4⟩ := mul_add_inj _ _ g hg _ _ h2 hra hrb <;>
      refine ⟨?_, ?_, h4⟩ <;> omega
  obtain ⟨h1, h2, h3⟩ := hq
  rw [hsa, hsb, h2] at h1
  have h4 := xor_left_inj _ _ _ h1
  have h5 : a / g = b / g := by omega
  rw [← Nat.div_add_mod a g, ← Nat.div_add_mod b g, h5, h3]

/-- Two addresses of the reserve window do not share a place. -/
theorem reserve_inj (m : Mem) (a b : Nat) (h : m.reserve a = m.reserve b) : a = b := by
  unfold Mem.reserve at h; dsimp only at h
  have hg := grainBytes_pos m
  obtain ⟨g, hgd⟩ : ∃ g, g = m.grainBytes := ⟨_, rfl⟩
  rw [← hgd] at h hg
  rw [Prod.mk.injEq] at h
  obtain ⟨h1, h2⟩ := h
  obtain ⟨h3, h4⟩ := mul_add_inj _ _ g hg _ _ h2 (Nat.mod_lt a hg) (Nat.mod_lt b hg)
  rw [h3] at h1
  have h5 := xor_left_inj _ _ _ (Nat.add_left_cancel h1)
  have h6 : a / g = b / g := by omega
  rw [← Nat.div_add_mod a g, ← Nat.div_add_mod b g, h6, h4]

/-- The reserve window lies on C30 and C31. -/
theorem reserve_lt (m : Mem) (a : Nat) : 30 ≤ (m.reserve a).1 ∧ (m.reserve a).1 < 32 := by
  unfold Mem.reserve; dsimp only
  have h : (a / m.grainBytes % 2) ^^^ (m.fold (a / m.grainBytes / 2) % 2) < 2 ^ 1 := Nat.xor_lt_two_pow (Nat.mod_lt _ (by decide)) (Nat.mod_lt _ (by decide))
  omega

/-- The three parts of device memory. -/
theorem place_cases (m : Mem) (a : Nat) (h : a < 0xF80000000) : (0x800000000 ≤ a ∧ a < 0x8F8000000 ∧ m.place a = some (m.reserve (a - 0x800000000))) ∨
    (a < 0x800000000 ∧ m.place a = some (m.general a)) ∨ (0x8F8000000 ≤ a ∧ m.place a = some (m.general (a - 0xF8000000))) := by
  unfold Mem.place inMemory inWindow
  rw [if_neg (by simp; omega)]
  by_cases h1 : 0x800000000 ≤ a
  · by_cases h2 : a < 0x8F8000000
    · left; refine ⟨h1, h2, ?_⟩; rw [if_pos (by simp; omega)]
    · right; right; refine ⟨by omega, ?_⟩; rw [if_neg (by simp; omega), if_neg (by omega)]
  · right; left; refine ⟨by omega, ?_⟩; rw [if_neg (by simp; omega), if_pos (by omega)]

/-- Whether an address holds plain memory: no control space, status entry, point record, seal ring, provenance record, buffer or slot. -/
def State.plainAt (x : State) (k : Nat) : Prop :=
  inControl k = false ∧ inStatus k = false ∧ ¬(x.pointBase ≤ k ∧ k < x.pointBase + pointTableBytes) ∧ x.sealAt k = none ∧ x.tprAt k = none ∧
    x.bufferAt k = none ∧ x.slotAt k = none

/-- A byte of plain memory that is written reads back, no other byte moves, and memory keeps its canonical form. -/
theorem pokeByte_spec (x : State) (k : Nat) (v : Byte) (hw : Tab.wf 0#8 x.mem.bytes = true) (hp : x.plainAt k) :
      (x.pokeByte k v).byteAt k = v ∧ (∀ j, j ≠ k → (x.pokeByte k v).byteAt j = x.byteAt j) ∧
      { x.pokeByte k v with mem := { x.mem with bytes := x.mem.bytes } } = x ∧ Tab.wf 0#8 (x.pokeByte k v).mem.bytes = true := by
  obtain ⟨hc, ht, hpt, he1, hr, hb, hs⟩ := hp
  have he : x.pokeByte k v = { x with mem := { x.mem with bytes := x.mem.bytes.set 0#8 k v } } := by
    unfold State.pokeByte; rw [if_neg (by simp [hc, he1]), if_neg hpt, hb]
  rw [he]
  have hread : ∀ (j : Nat), State.byteAt { x with mem := { x.mem with bytes := x.mem.bytes.set 0#8 k v } } j =
      if inControl j then x.controlByte j else if inStatus j then Config.controlByte j x.free
      else if x.pointBase ≤ j ∧ j < x.pointBase + pointTableBytes then x.pointByte (j - x.pointBase)
      else match x.sealAt j with
      | some i => (x.srcRt i).ringByte (j - x.sealBase i)
      | none => match x.tprAt j with
      | some y => (x.row y.1).tprByte y.2 (j - x.tprBase y.1 y.2)
      | none => match x.bufferAt j with
      | some y => (((x.srcRt y.1).bufs.get {} y.2).lines.getD ((j - ((x.srcRt y.1).bufs.get {} y.2).addr) / ((x.srcRt y.1).bufs.get {} y.2).pitch) []).getD ((j - ((x.srcRt y.1).bufs.get {} y.2).addr) % ((x.srcRt y.1).bufs.get {} y.2).pitch) 0#8
      | none => match x.slotAt j with
        | some y => (x.row y.1).slotByte y.2 (j - x.slotBase y.1 y.2)
        | none => (x.mem.bytes.set 0#8 k v).get 0#8 j := by
    intro j
    rfl
  refine ⟨?_, ?_, rfl, Tab.wf_set k v hw⟩
  · rw [hread, if_neg (by simp [hc]), if_neg (by simp [ht]), if_neg hpt, he1, hr, hb, hs]
    exact Tab.get_set_same _ _ _ _ (Tab.wf_iff.mp hw).1
  · intro j hj
    rw [hread, Tab.get_set_other _ hj _ _ (Tab.wf_iff.mp hw).1]; rfl

end Sys2Proof.Machine
end

