-- ==== Sys2Proof/Laws/FaultLaws.lean ====
section
/-! SUPPORT. What a firing records and what its reactions do (R404 to R415). -/

namespace Sys2Proof.Machine

open Sys2Proof

/-- Writing slots leaves faults and the device state. -/
theorem wroteSlots_flt (n k : Nat) (bs : List Byte) (s : State) : (s.wroteSlots n k bs).flt = s.flt ∧ (s.wroteSlots n k bs).dev = s.dev := by
  obtain ⟨g, m, w, h⟩ := wroteSlots_frame n k bs s
  rw [h]; exact ⟨rfl, rfl⟩

/-- Delivering an event leaves faults and the device state. -/
theorem deliverEvent_flt (e : Event) (s : State) : (s.deliverEvent e).flt = s.flt ∧ (s.deliverEvent e).dev = s.dev := by
  unfold State.deliverEvent
  dsimp only
  split
  · exact wroteSlots_flt _ _ _ _
  · split <;> exact ⟨rfl, rfl⟩

/-- An event leaves faults and the device state. -/
theorem event_flt (c x d : Nat) (s : State) : (s.event c x d).flt = s.flt ∧ (s.event c x d).dev = s.dev := by
  unfold State.event; dsimp only
  exact deliverEvent_flt _ _

/-- A message leaves faults and the device state. -/
theorem msix_flt (v : Nat) (s : State) : (s.msix v).flt = s.flt ∧ (s.msix v).dev = s.dev := by
  exact ⟨rfl, rfl⟩

/-- A change of the device state leaves faults, and makes that state. -/
theorem setDev_flt (n : DevState) (x : Nat) (s : State) : (s.setDev n x).flt = s.flt ∧ (s.setDev n x).dev = n := by
  unfold State.setDev
  split
  · rename_i h; exact ⟨rfl, h⟩
  · dsimp only
    split
    · exact ⟨rfl, rfl⟩
    · exact event_flt _ _ _ _

/-- The evaluation of R196 leaves faults and the device state. -/
theorem boundCheck_flt (s : State) : (boundCheck s).dev = s.dev ∧ (boundCheck s).flt = s.flt := by
  unfold boundCheck
  dsimp only
  have : ∀ (fs l : List Nat) (w : State), (l.foldl (fun s i => voidOne fs i s) w).dev = w.dev ∧ (l.foldl (fun s i => voidOne fs i s) w).flt = w.flt := by
    intro fs l
    induction l with
    | nil => intro w; exact ⟨rfl, rfl⟩
    | cons x l ih =>
      intro w
      have h : (voidOne fs x w).dev = w.dev ∧ (voidOne fs x w).flt = w.flt := by
        unfold voidOne; dsimp only; split
        · exact ⟨rfl, rfl⟩
        · exact ⟨(event_flt _ _ _ _).2, (event_flt _ _ _ _).1⟩
      exact ⟨(ih _).1.trans h.1, (ih _).2.trans h.2⟩
  obtain ⟨h1, h2⟩ := this _ _ _
  exact ⟨h1, h2⟩

/-- What the reactions of a firing do (R404). -/
theorem faultReact_spec (f : FaultInfo) (b a : State) (n m cls : Nat) (hn : n = f.source) (hc : cls = (srcInfo n).cls) (hdev : b.dev = a.dev) (hev : (b.faultSrc n).evtFrame = (a.faultSrc n).evtFrame)
    (hra : b.raster = a.raster) :
    (m.testBit 4 = true → b.faultReact f m = b.chipReset .reaction) ∧
        (m.testBit 4 = false → a.dev = .safe → b.faultReact f m = b) ∧
        (m.testBit 4 = false → a.dev ≠ .safe → ∀ c d e : State,
          c = (if m.testBit 5 then { b with flt := { b.flt with latchClasses := insertSorted cls b.flt.latchClasses } } else b) →
          d = (if m.testBit 0 = false then c
            else if a.raster.run = true ∧ (a.faultSrc n).evtFrame = some a.raster.frame then c.modFaultSrc n (fun x => { x with evtDue := true })
            else State.event 0x0006 n (cls + (b.faultSrc n).count * 4294967296) (c.modFaultSrc n (fun x =>
              { x with evtFrame := if a.raster.run then some a.raster.frame else none, evtDue := false }))) →
          e = (if m.testBit 6 = true ∨ (m.testBit 2 = true ∧ 50 ≤ unitNamed f ∧ unitNamed f ≤ 79) then d.enterSafe n
            else if m.testBit 2 = true ∧ unitNamed f < 128 then d.fenceUnit (unitNamed f) n
            else if m.testBit 3 then d.blockReset f else d) →
          b.faultReact f m = (if 180 ≤ n ∧ n ≤ 189 ∧ 3 ≤ recentCount (n - 180) e.wallNs 86400000000000 e.flt.wdogs then e.chipReset .bowline else boundCheck e)) := by
  unfold State.faultReact
  dsimp only
  rw [← hn]
  refine ⟨fun h => if_pos h, fun h hs => ?_, fun h hs c d e hc' hd he => ?_⟩
  · rw [if_neg (by rw [h]; exact Bool.false_ne_true), if_pos (hdev.trans hs)]
  · rw [if_neg (by rw [h]; exact Bool.false_ne_true), if_neg (by rw [hdev]; exact hs)]
    rw [← hc, ← hc']
    have hcs : c.faultSrc n = b.faultSrc n ∧ c.raster = b.raster := by
      rw [hc']; split <;> exact ⟨rfl, rfl⟩
    clear hc'
    have hd2 : (if m.testBit 0 = true then c.faultEvent n else c) = d := by
      rw [hd]
      unfold State.faultEvent State.writeFaultEvent
      rw [hcs.1, hcs.2, hra, hev, ← hc]
      cases m.testBit 0 with
      | false => rfl
      | true => rw [if_pos rfl, if_neg (show ¬ (true = false) from nofun)]; exact if_congr (by simp) rfl rfl
    rw [hd2]
    clear hd hd2 hcs
    have he2 : (if (m.testBit 6 || m.testBit 2 && inRange 50 79 (unitNamed f)) = true then d.enterSafe n
        else if (m.testBit 2 && decide (unitNamed f < 128)) = true then d.fenceUnit (unitNamed f) n else if m.testBit 3 = true then d.blockReset f else d) = e := by
      rw [he]
      have c1 : (m.testBit 6 || m.testBit 2 && inRange 50 79 (unitNamed f)) = true ↔ m.testBit 6 = true ∨ (m.testBit 2 = true ∧ 50 ≤ unitNamed f ∧ unitNamed f ≤ 79) := by
        simp [inRange]
      have c2 : (m.testBit 2 && decide (unitNamed f < 128)) = true ↔ m.testBit 2 = true ∧ unitNamed f < 128 := by simp
      rw [if_congr c1 rfl (if_congr c2 rfl rfl)]
    rw [he2]
    refine if_congr ?_ rfl rfl
    unfold dayNs
    simp [and_assoc]

/-- What a firing records (R407, R408). -/
theorem faultRecord_spec (f : FaultInfo) (a u : State) (n cls : Nat) (r : FirstErr) (hn : n = f.source) (hc : cls = (srcInfo n).cls) (hr : r = a.flt.first.get {} cls) (hu : { u with counters := a.counters } = a) :
    (u.faultRecord f).faultSrc n = { a.faultSrc n with count := min ((a.faultSrc n).count + 1) 4294967295 } ∧ (∀ k, k ≠ n → (u.faultRecord f).faultSrc k = a.faultSrc k) ∧
        (u.faultRecord f).flt.first.get {} cls = (if r.valid then { r with overflow := true } else
          { source := n, master := f.master, type := f.type, length := f.length, unit := unitNamed f, addr := f.addr, sec := a.wallNs / 1000000000,
            ns := a.wallNs % 1000000000, subject := f.subject, valid := true, overflow := false }) ∧
        (∀ k, k ≠ cls → (u.faultRecord f).flt.first.get {} k = a.flt.first.get {} k) ∧ (u.faultRecord f).flt.fenced = a.flt.fenced ∧
        { u.faultRecord f with flt := a.flt, mem := a.mem, counters := a.counters } = a ∧ (n ≠ 72 → (u.faultRecord f).mem = a.mem) ∧
        (u.faultRecord f).counters = u.counters := by
  have hflt : u.flt = a.flt := by have h := congrArg State.flt hu; exact h
  have hmem : u.mem = a.mem := by have h := congrArg State.mem hu; exact h
  have hw : u.wallNs = a.wallNs := by have h := congrArg State.wallNs hu; exact h
  unfold State.faultRecord; dsimp only
  rw [← hn]
  obtain ⟨v, hv⟩ : ∃ v, v = (u.faultCount n).faultCapture f := ⟨_, rfl⟩
  rw [← hv]
  obtain ⟨r', hr'⟩ : ∃ r' : FirstErr, r' = (if r.valid then { r with overflow := true } else
          { source := n, master := f.master, type := f.type, length := f.length, unit := unitNamed f, addr := f.addr, sec := a.wallNs / 1000000000,
            ns := a.wallNs % 1000000000, subject := f.subject, valid := true, overflow := false }) := ⟨_, rfl⟩
  have hv2 : v = { u with flt := { u.flt with
      srcs := u.flt.srcs.modify {} n (fun x => { x with count := satAdd x.count 1 })
      first := u.flt.first.set {} cls r' } } := by
    rw [hv]
    unfold State.faultCapture State.faultCount State.modFaultSrc State.firstErrOf
    dsimp only
    rw [← hn, ← hc, hflt, ← hr, show State.wallNs { u with flt := { a.flt with srcs := a.flt.srcs.modify {} n (fun x => { x with count := satAdd x.count 1 }) } } = a.wallNs from hw, hr']
  have hrv : r' ≠ {} := by
    rw [hr']; intro h
    have h := congrArg FirstErr.valid h
    split at h
    · rename_i hh; rw [show FirstErr.valid { r with overflow := true } = r.valid from rfl, hh] at h; cases h
    · cases h
  have hsne : (fun x : FaultSrc => { x with count := satAdd x.count 1 }) (Tab.get {} n u.flt.srcs) ≠ {} := by
    intro h; have := congrArg FaultSrc.count h
    have h2 : min ((Tab.get {} n u.flt.srcs).count + 1) 4294967295 = 0 := this
    omega
  rw [hv2]
  refine ⟨?_, ?_, ?_, ?_, ?_, ?_, ?_, ?_⟩
  · show Tab.get {} n (Tab.modify {} n (fun x : FaultSrc => { x with count := satAdd x.count 1 }) u.flt.srcs) = _
    rw [tab_get_modify _ _ _ _ _ hsne, if_pos rfl, hflt]; rfl
  · intro k hk
    show Tab.get {} k (Tab.modify {} n (fun x : FaultSrc => { x with count := satAdd x.count 1 }) u.flt.srcs) = _
    rw [tab_get_modify _ _ _ _ _ hsne, if_neg hk, hflt]; rfl
  · show Tab.get {} cls (Tab.set {} cls r' u.flt.first) = _
    rw [tab_get_set_same _ _ _ _ hrv, hr']
  · intro k hk
    show Tab.get {} k (Tab.set {} cls r' u.flt.first) = _
    rw [tab_get_set_other _ _ _ _ _ hrv hk, hflt]
  · show u.flt.fenced = _; rw [hflt]
  · have h := congrArg (fun y : State => { y with flt := a.flt, mem := a.mem, counters := a.counters }) hu
    exact h
  · intro h; show (if n = 72 then _ else u.mem) = _; rw [if_neg h, hmem]
  · rfl

/-- Freeing a buffer touches ingest alone. -/
theorem dropBuf_frame (i b : Nat) (u : State) : { u.dropBuf i b with ing := u.ing } = u ∧ (u.dropBuf i b).ing.copies = u.ing.copies := by
  unfold State.dropBuf State.modSrc; exact ⟨rfl, rfl⟩

end Sys2Proof.Machine
end

