-- ==== Sys2Proof/Laws/PerInstr.lean ====
section
/-! SUPPORT. Statements made for each row of the table, one lemma a row: the header of a well-formed command is well formed (R37). -/

namespace Sys2Proof.Laws

open Sys2Proof

/-- The header of a well-formed command is well formed. -/
def Header.Statement (i : Instr) : Prop := ∀ c, i.header = some c → i.wf = true → c.wf = true

/-- The first of a chain of conditions. -/
theorem head_of_and {a b : Bool} (h : (a && b) = true) : a = true := (Bool.and_eq_true_iff.1 h).1

theorem Header.identify (dt : Nat) (c : CmdHdr) : Header.Statement (.identify dt c) := by intro c h w; cases h; exact w
theorem Header.summary (dt : Nat) (c : CmdHdr) : Header.Statement (.summary dt c) := by intro c h w; cases h; exact w
theorem Header.readLog (dt : Nat) (c : CmdHdr) (logFrom max : Nat) : Header.Statement (.readLog dt c logFrom max) := by intro c h w; cases h; exact (head_of_and (head_of_and w))
theorem Header.reset (dt : Nat) (c : CmdHdr) : Header.Statement (.reset dt c) := by intro c h w; cases h; exact w
theorem Header.clearStartCount (dt : Nat) (c : CmdHdr) : Header.Statement (.clearStartCount dt c) := by intro c h w; cases h; exact w
theorem Header.fwBegin (dt : Nat) (c : CmdHdr) (size : Nat) : Header.Statement (.fwBegin dt c size) := by intro c h w; cases h; exact (head_of_and w)
theorem Header.fwData (dt : Nat) (c : CmdHdr) (offset : Nat) (data : List Byte) : Header.Statement (.fwData dt c offset data) := by intro c h w; cases h; exact (head_of_and w)
theorem Header.fwEnd (dt : Nat) (c : CmdHdr) (verifies : Bool) (imgSeq version : Nat) : Header.Statement (.fwEnd dt c verifies imgSeq version) := by intro c h w; cases h; exact (head_of_and (head_of_and w))
theorem Header.fwLoadTimeout (dt : Nat) : Header.Statement (.fwLoadTimeout dt) := by intro c h; cases h
theorem Header.memConfig (dt : Nat) (c : CmdHdr) (grain hash checkInit : Nat) : Header.Statement (.memConfig dt c grain hash checkInit) := by intro c h w; cases h; exact (head_of_and (head_of_and (head_of_and w)))
theorem Header.memConfigDone (dt : Nat) : Header.Statement (.memConfigDone dt) := by intro c h; cases h
theorem Header.paletteProgram (dt : Nat) (c : CmdHdr) (words : List Nat) : Header.Statement (.paletteProgram dt c words) := by intro c h w; cases h; exact (head_of_and (head_of_and w))
theorem Header.txnOpen (dt : Nat) (c : CmdHdr) : Header.Statement (.txnOpen dt c) := by intro c h w; cases h; exact w
theorem Header.txnCommit (dt : Nat) (c : CmdHdr) (frame : Nat) : Header.Statement (.txnCommit dt c frame) := by intro c h w; cases h; exact (head_of_and w)
theorem Header.commitValidated (dt : Nat) : Header.Statement (.commitValidated dt) := by intro c h; cases h
theorem Header.txnAbort (dt : Nat) (c : CmdHdr) : Header.Statement (.txnAbort dt c) := by intro c h w; cases h; exact w
theorem Header.objectRead (dt : Nat) (c : CmdHdr) (opcode view id count : Nat) : Header.Statement (.objectRead dt c opcode view id count) := by intro c h w; cases h; exact (head_of_and (head_of_and (head_of_and (head_of_and w))))
theorem Header.stageDevice (dt : Nat) (c : CmdHdr) (id : Nat) (o : DeviceCfg) : Header.Statement (.stageDevice dt c id o) := by intro c h w; cases h; exact (head_of_and w)
theorem Header.stageSource (dt : Nat) (c : CmdHdr) (id : Nat) (o : SourceCfg) : Header.Statement (.stageSource dt c id o) := by intro c h w; cases h; exact (head_of_and w)
theorem Header.stageFlow (dt : Nat) (c : CmdHdr) (id : Nat) (o : FlowCfg) : Header.Statement (.stageFlow dt c id o) := by intro c h w; cases h; exact (head_of_and w)
theorem Header.stageMac (dt : Nat) (c : CmdHdr) (id : Nat) (o : MacCfg) : Header.Statement (.stageMac dt c id o) := by intro c h w; cases h; exact (head_of_and w)
theorem Header.stageDprx (dt : Nat) (c : CmdHdr) (id : Nat) (o : DprxCfg) : Header.Statement (.stageDprx dt c id o) := by intro c h w; cases h; exact (head_of_and w)
theorem Header.stageContext (dt : Nat) (c : CmdHdr) (id : Nat) (o : ContextCfg) : Header.Statement (.stageContext dt c id o) := by intro c h w; cases h; exact (head_of_and w)
theorem Header.stageHead (dt : Nat) (c : CmdHdr) (id : Nat) (o : HeadCfg) : Header.Statement (.stageHead dt c id o) := by intro c h w; cases h; exact (head_of_and w)
theorem Header.stageWindow (dt : Nat) (c : CmdHdr) (id : Nat) (o : WindowCfg) : Header.Statement (.stageWindow dt c id o) := by intro c h w; cases h; exact (head_of_and w)
theorem Header.stageEncoder (dt : Nat) (c : CmdHdr) (id : Nat) (o : EncoderCfg) : Header.Statement (.stageEncoder dt c id o) := by intro c h w; cases h; exact (head_of_and w)
theorem Header.stageGlyphs (dt : Nat) (c : CmdHdr) (first : Nat) (os : List GlyphCfg) : Header.Statement (.stageGlyphs dt c first os) := by intro c h w; cases h; exact (head_of_and (head_of_and w))
theorem Header.stageGlyphSet (dt : Nat) (c : CmdHdr) (id : Nat) (o : GlyphSetCfg) : Header.Statement (.stageGlyphSet dt c id o) := by intro c h w; cases h; exact (head_of_and w)
theorem Header.stageAtlas (dt : Nat) (c : CmdHdr) (first : Nat) (masks : List (List Byte)) : Header.Statement (.stageAtlas dt c first masks) := by intro c h w; cases h; exact (head_of_and (head_of_and w))
theorem Header.stageColours (dt : Nat) (c : CmdHdr) (id : Nat) (colours : List Nat) : Header.Statement (.stageColours dt c id colours) := by intro c h w; cases h; exact (head_of_and (head_of_and w))
theorem Header.stageScaler (dt : Nat) (c : CmdHdr) (id : Nat) (o : ScalerCfg) : Header.Statement (.stageScaler dt c id o) := by intro c h w; cases h; exact (head_of_and w)
theorem Header.stageDesk (dt : Nat) (c : CmdHdr) (id : Nat) (o : DeskCfg) : Header.Statement (.stageDesk dt c id o) := by intro c h w; cases h; exact (head_of_and w)
theorem Header.stageQuad (dt : Nat) (c : CmdHdr) (id : Nat) (o : QuadCfg) : Header.Statement (.stageQuad dt c id o) := by intro c h w; cases h; exact (head_of_and w)
theorem Header.stageDomain (dt : Nat) (c : CmdHdr) (id : Nat) (o : DomainCfg) : Header.Statement (.stageDomain dt c id o) := by intro c h w; cases h; exact (head_of_and w)
theorem Header.stagePulse (dt : Nat) (c : CmdHdr) (id : Nat) (o : PulseCfg) : Header.Statement (.stagePulse dt c id o) := by intro c h w; cases h; exact (head_of_and w)
theorem Header.stageRegulator (dt : Nat) (c : CmdHdr) (id : Nat) (o : RegulatorCfg) : Header.Statement (.stageRegulator dt c id o) := by intro c h w; cases h; exact (head_of_and w)
theorem Header.stageAccess (dt : Nat) (c : CmdHdr) (id : Nat) (o : AccessCfg) : Header.Statement (.stageAccess dt c id o) := by intro c h w; cases h; exact (head_of_and w)
theorem Header.surfacePublish (dt : Nat) (c : CmdHdr) (source flags pitch hostAddr capture : Nat) : Header.Statement (.surfacePublish dt c source flags pitch hostAddr capture) := by intro c h w; cases h; exact (head_of_and (head_of_and (head_of_and (head_of_and (head_of_and w)))))
theorem Header.surfaceCopyDone (dt : Nat) (source : Nat) (lines : List (List Byte)) (readOk : Bool) : Header.Statement (.surfaceCopyDone dt source lines readOk) := by intro c h; cases h
theorem Header.sourceQuery (dt : Nat) (c : CmdHdr) (source count : Nat) : Header.Statement (.sourceQuery dt c source count) := by intro c h w; cases h; exact (head_of_and (head_of_and w))
theorem Header.encQuery (dt : Nat) (c : CmdHdr) (ctx count : Nat) : Header.Statement (.encQuery dt c ctx count) := by intro c h w; cases h; exact (head_of_and (head_of_and w))
theorem Header.pointQuery (dt : Nat) (c : CmdHdr) (first count : Nat) : Header.Statement (.pointQuery dt c first count) := by intro c h w; cases h; exact (head_of_and (head_of_and w))
theorem Header.headQuery (dt : Nat) (c : CmdHdr) (head sect offset length : Nat) : Header.Statement (.headQuery dt c head sect offset length) := by intro c h w; cases h; exact (head_of_and (head_of_and (head_of_and (head_of_and w))))
theorem Header.counterRead (dt : Nat) (c : CmdHdr) (block flags inst : Nat) : Header.Statement (.counterRead dt c block flags inst) := by intro c h w; cases h; exact (head_of_and (head_of_and (head_of_and w)))
theorem Header.timeAdjust (dt : Nat) (c : CmdHdr) (domain flags incr : Nat) (offset : Int) : Header.Statement (.timeAdjust dt c domain flags incr offset) := by intro c h w; cases h; exact (head_of_and (head_of_and (head_of_and (head_of_and w))))
theorem Header.timeSwitch (dt : Nat) (c : CmdHdr) (domain : Nat) : Header.Statement (.timeSwitch dt c domain) := by intro c h w; cases h; exact (head_of_and w)
theorem Header.timeStatus (dt : Nat) (c : CmdHdr) (sect sel start : Nat) : Header.Statement (.timeStatus dt c sect sel start) := by intro c h w; cases h; exact (head_of_and (head_of_and (head_of_and w)))
theorem Header.whipSet (dt : Nat) (c : CmdHdr) (p : WhipParams) : Header.Statement (.whipSet dt c p) := by intro c h w; cases h; exact (head_of_and (head_of_and (head_of_and (head_of_and w))))
theorem Header.probeSet (dt : Nat) (c : CmdHdr) (p : ProbeParams) : Header.Statement (.probeSet dt c p) := by intro c h w; cases h; exact (head_of_and (head_of_and (head_of_and (head_of_and w))))
theorem Header.laneTest (dt : Nat) (c : CmdHdr) (lane flags ctrl : Nat) : Header.Statement (.laneTest dt c lane flags ctrl) := by intro c h w; cases h; exact (head_of_and (head_of_and (head_of_and w)))
theorem Header.touchBaseline (dt : Nat) (c : CmdHdr) (desk op : Nat) : Header.Statement (.touchBaseline dt c desk op) := by intro c h w; cases h; exact (head_of_and (head_of_and w))
theorem Header.baselineFlashWriteDone (dt : Nat) (desk : Nat) : Header.Statement (.baselineFlashWriteDone dt desk) := by intro c h; cases h
theorem Header.faultQuery (dt : Nat) (c : CmdHdr) (first count : Nat) : Header.Statement (.faultQuery dt c first count) := by intro c h w; cases h; exact (head_of_and (head_of_and w))
theorem Header.faultReact (dt : Nat) (c : CmdHdr) (source mask : Nat) : Header.Statement (.faultReact dt c source mask) := by intro c h w; cases h; exact (head_of_and (head_of_and w))
theorem Header.faultRearm (dt : Nat) (c : CmdHdr) (classes : Nat) : Header.Statement (.faultRearm dt c classes) := by intro c h w; cases h; exact (head_of_and w)
theorem Header.unitRestore (dt : Nat) (c : CmdHdr) (unit : Nat) : Header.Statement (.unitRestore dt c unit) := by intro c h w; cases h; exact (head_of_and w)
theorem Header.unitTestDone (dt : Nat) (unit : Nat) (pass : Bool) : Header.Statement (.unitTestDone dt unit pass) := by intro c h; cases h
theorem Header.debugChallenge (dt : Nat) (c : CmdHdr) : Header.Statement (.debugChallenge dt c) := by intro c h w; cases h; exact w
theorem Header.debugUnlock (dt : Nat) (c : CmdHdr) (verifies : Bool) : Header.Statement (.debugUnlock dt c verifies) := by intro c h w; cases h; exact w
theorem Header.debugChallengeExpiry (dt : Nat) : Header.Statement (.debugChallengeExpiry dt) := by intro c h; cases h
theorem Header.debugLockoutExpiry (dt : Nat) : Header.Statement (.debugLockoutExpiry dt) := by intro c h; cases h
theorem Header.dbProducer (dt : Nat) (ring index : Nat) (packets : List (List Byte)) : Header.Statement (.dbProducer dt ring index packets) := by intro c h; cases h
theorem Header.dbConsumer (dt : Nat) (ring index : Nat) : Header.Statement (.dbConsumer dt ring index) := by intro c h; cases h
theorem Header.ringEnable (dt : Nat) (ring size cplSize msixVec modUs : Nat) : Header.Statement (.ringEnable dt ring size cplSize msixVec modUs) := by intro c h; cases h
theorem Header.ringDisable (dt : Nat) (ring : Nat) : Header.Statement (.ringDisable dt ring) := by intro c h; cases h
theorem Header.ringErrClear (dt : Nat) (ring : Nat) : Header.Statement (.ringErrClear dt ring) := by intro c h; cases h
theorem Header.registerWrite (dt : Nat) (ring reg value : Nat) : Header.Statement (.registerWrite dt ring reg value) := by intro c h; cases h
theorem Header.bar0StrayWrite (dt : Nat) (addr : Nat) : Header.Statement (.bar0StrayWrite dt addr) := by intro c h; cases h
theorem Header.msixModerationExpiry (dt : Nat) (ring : Nat) : Header.Statement (.msixModerationExpiry dt ring) := by intro c h; cases h
theorem Header.uartFrameRx (dt : Nat) (raw : List Byte) : Header.Statement (.uartFrameRx dt raw) := by intro c h; cases h
theorem Header.uartGapTimeout (dt : Nat) : Header.Statement (.uartGapTimeout dt) := by intro c h; cases h
theorem Header.txnExpired (dt : Nat) (id : Nat) : Header.Statement (.txnExpired dt id) := by intro c h; cases h
theorem Header.wallLineStart (dt : Nat) (obs : LineObs) : Header.Statement (.wallLineStart dt obs) := by intro c h; cases h
theorem Header.rasterStart (dt : Nat) (obs : LineObs) : Header.Statement (.rasterStart dt obs) := by intro c h; cases h
theorem Header.ethFrameRx (dt : Nat) (mac : Nat) (kind : EthKind) (vlan length : Nat) (fcsOk : Bool) : Header.Statement (.ethFrameRx dt mac kind vlan length fcsOk) := by intro c h; cases h
theorem Header.rtpPacketRx (dt : Nat) (p : RtpPacket) : Header.Statement (.rtpPacketRx dt p) := by intro c h; cases h
theorem Header.holeClose (dt : Nat) (flow seq : Nat) : Header.Statement (.holeClose dt flow seq) := by intro c h; cases h
theorem Header.frameCloseTimeout (dt : Nat) (flow : Nat) : Header.Statement (.frameCloseTimeout dt flow) := by intro c h; cases h
theorem Header.pathDown (dt : Nat) (flow path : Nat) : Header.Statement (.pathDown dt flow path) := by intro c h; cases h
theorem Header.frameSeal (dt : Nat) (source : Nat) (lines : List (List Byte)) : Header.Statement (.frameSeal dt source lines) := by intro c h; cases h
theorem Header.dprxFrameStart (dt : Nat) (port width height format : Nat) : Header.Statement (.dprxFrameStart dt port width height format) := by intro c h; cases h
theorem Header.dprxLinkLoss (dt : Nat) (port : Nat) : Header.Statement (.dprxLinkLoss dt port) := by intro c h; cases h
theorem Header.dprxHpdRelease (dt : Nat) (port : Nat) : Header.Statement (.dprxHpdRelease dt port) := by intro c h; cases h
theorem Header.pointDatagramRx (dt : Nat) (d : PointDatagram) : Header.Statement (.pointDatagramRx dt d) := by intro c h; cases h
theorem Header.hostPointSlot (dt : Nat) (count : Nat) (rsv recs : List Byte) : Header.Statement (.hostPointSlot dt count rsv recs) := by intro c h; cases h
theorem Header.decodePictureComplete (dt : Nat) (engine : Nat) (res : DecodeResult) : Header.Statement (.decodePictureComplete dt engine res) := by intro c h; cases h
theorem Header.decodeOverrun (dt : Nat) (engine : Nat) (res : DecodeResult) : Header.Statement (.decodeOverrun dt engine res) := by intro c h; cases h
theorem Header.poolBufferFreed (dt : Nat) (ctx : Nat) : Header.Statement (.poolBufferFreed dt ctx) := by intro c h; cases h
theorem Header.encodeRowComplete (dt : Nat) (ctx : Nat) (row : RowObs) : Header.Statement (.encodeRowComplete dt ctx row) := by intro c h; cases h
theorem Header.rowLate (dt : Nat) (ctx : Nat) (row : RowObs) : Header.Statement (.rowLate dt ctx row) := by intro c h; cases h
theorem Header.encTileRowRead (dt : Nat) (ctx region row : Nat) (readOk : Bool) : Header.Statement (.encTileRowRead dt ctx region row readOk) := by intro c h; cases h
theorem Header.packetLaunch (dt : Nat) (mac : Nat) : Header.Statement (.packetLaunch dt mac) := by intro c h; cases h
theorem Header.launchSlip (dt : Nat) (mac : Nat) : Header.Statement (.launchSlip dt mac) := by intro c h; cases h
theorem Header.tileComputed (dt : Nat) (head row : Nat) (mismatch : Bool) (strandA strandB : StrandObs) (readErrors : List Nat) : Header.Statement (.tileComputed dt head row mismatch strandA strandB readErrors) := by intro c h; cases h
theorem Header.strandSwitch (dt : Nat) : Header.Statement (.strandSwitch dt) := by intro c h; cases h
theorem Header.passComplete (dt : Nat) (head row : Nat) : Header.Statement (.passComplete dt head row) := by intro c h; cases h
theorem Header.strandSelftestDone (dt : Nat) (strand : Nat) (pass : Bool) : Header.Statement (.strandSelftestDone dt strand pass) := by intro c h; cases h
theorem Header.overlaySurfaceDone (dt : Nat) (head : Nat) (readErrors : List Nat) : Header.Statement (.overlaySurfaceDone dt head readErrors) := by intro c h; cases h
theorem Header.overlayWindowEnd (dt : Nat) (head : Nat) : Header.Statement (.overlayWindowEnd dt head) := by intro c h; cases h
theorem Header.bandRowFetchDone (dt : Nat) (head band : Nat) : Header.Statement (.bandRowFetchDone dt head band) := by intro c h; cases h
theorem Header.fetchUrgent (dt : Nat) (head band : Nat) : Header.Statement (.fetchUrgent dt head band) := by intro c h; cases h
theorem Header.bandRowEmit (dt : Nat) (head band : Nat) (obs : BandObs) : Header.Statement (.bandRowEmit dt head band obs) := by intro c h; cases h
theorem Header.hpdIrq (dt : Nat) (head : Nat) : Header.Statement (.hpdIrq dt head) := by intro c h; cases h
theorem Header.hpdUnplug (dt : Nat) (head : Nat) : Header.Statement (.hpdUnplug dt head) := by intro c h; cases h
theorem Header.hpdAsserted (dt : Nat) (head : Nat) : Header.Statement (.hpdAsserted dt head) := by intro c h; cases h
theorem Header.auxReply (dt : Nat) (head : Nat) (data : AuxData) : Header.Statement (.auxReply dt head data) := by intro c h; cases h
theorem Header.auxTimeout (dt : Nat) (head : Nat) : Header.Statement (.auxTimeout dt head) := by intro c h; cases h
theorem Header.trainingSuccess (dt : Nat) (r : TrainedHead) : Header.Statement (.trainingSuccess dt r) := by intro c h; cases h
theorem Header.trainingAttemptFail (dt : Nat) (head : Nat) : Header.Statement (.trainingAttemptFail dt head) := by intro c h; cases h
theorem Header.trainingAttemptTimeout (dt : Nat) (head : Nat) : Header.Statement (.trainingAttemptTimeout dt head) := by intro c h; cases h
theorem Header.trainingRetry (dt : Nat) (head : Nat) : Header.Statement (.trainingRetry dt head) := by intro c h; cases h
theorem Header.restExitRequest (dt : Nat) (lane : Nat) : Header.Statement (.restExitRequest dt lane) := by intro c h; cases h
theorem Header.laneIdleExit (dt : Nat) (lane : Nat) : Header.Statement (.laneIdleExit dt lane) := by intro c h; cases h
theorem Header.quadPllLock (dt : Nat) (quad : Nat) : Header.Statement (.quadPllLock dt quad) := by intro c h; cases h
theorem Header.quadPllLockTimeout (dt : Nat) (quad : Nat) : Header.Statement (.quadPllLockTimeout dt quad) := by intro c h; cases h
theorem Header.quadPllUnlock (dt : Nat) (quad : Nat) : Header.Statement (.quadPllUnlock dt quad) := by intro c h; cases h
theorem Header.cdrLoss (dt : Nat) (lane : Nat) : Header.Statement (.cdrLoss dt lane) := by intro c h; cases h
theorem Header.ptpSyncRx (dt : Nat) (m : PtpMsg) : Header.Statement (.ptpSyncRx dt m) := by intro c h; cases h
theorem Header.followUpRx (dt : Nat) (m : PtpMsg) : Header.Statement (.followUpRx dt m) := by intro c h; cases h
theorem Header.announceRx (dt : Nat) (m : PtpMsg) : Header.Statement (.announceRx dt m) := by intro c h; cases h
theorem Header.delayRespRx (dt : Nat) (m : PtpMsg) : Header.Statement (.delayRespRx dt m) := by intro c h; cases h
theorem Header.delayReqTx (dt : Nat) (domain : Nat) : Header.Statement (.delayReqTx dt domain) := by intro c h; cases h
theorem Header.mgmtDiscard (dt : Nat) (domain : Nat) : Header.Statement (.mgmtDiscard dt domain) := by intro c h; cases h
theorem Header.syncTimeout (dt : Nat) (domain : Nat) : Header.Statement (.syncTimeout dt domain) := by intro c h; cases h
theorem Header.announceTimeout (dt : Nat) (domain master : Nat) : Header.Statement (.announceTimeout dt domain master) := by intro c h; cases h
theorem Header.holdoverExpiry (dt : Nat) (domain : Nat) : Header.Statement (.holdoverExpiry dt domain) := by intro c h; cases h
theorem Header.tpiEdge (dt : Nat) (input : Nat) (falling : Bool) : Header.Statement (.tpiEdge dt input falling) := by intro c h; cases h
theorem Header.tpoPulse (dt : Nat) (output : Nat) : Header.Statement (.tpoPulse dt output) := by intro c h; cases h
theorem Header.sampleInstantRx (dt : Nat) (desk count : Nat) (b : SampleBlock) : Header.Statement (.sampleInstantRx dt desk count b) := by intro c h; cases h
theorem Header.thimbleMessageRx (dt : Nat) (desk blockType payload : Nat) : Header.Statement (.thimbleMessageRx dt desk blockType payload) := by intro c h; cases h
theorem Header.touchFrameMeasured (dt : Nat) (desk : Nat) (values : List Int) (noise nextNoise : Nat) : Header.Statement (.touchFrameMeasured dt desk values noise nextNoise) := by intro c h; cases h
theorem Header.deskBlockLock (dt : Nat) (desk : Nat) : Header.Statement (.deskBlockLock dt desk) := by intro c h; cases h
theorem Header.deskInfoReadDone (dt : Nat) (desk : Nat) (info : HeadInfo) : Header.Statement (.deskInfoReadDone dt desk info) := by intro c h; cases h
theorem Header.deskStartTimeout (dt : Nat) (desk : Nat) : Header.Statement (.deskStartTimeout dt desk) := by intro c h; cases h
theorem Header.deskLinkLoss (dt : Nat) (desk : Nat) : Header.Statement (.deskLinkLoss dt desk) := by intro c h; cases h
theorem Header.refresh (dt : Nat) : Header.Statement (.refresh dt) := by intro c h; cases h
theorem Header.mr4Poll (dt : Nat) (rates : List Nat) : Header.Statement (.mr4Poll dt rates) := by intro c h; cases h
theorem Header.regulatorRelease (dt : Nat) (port : Nat) (item : ReqItem) (size : Nat) : Header.Statement (.regulatorRelease dt port item size) := by intro c h; cases h
theorem Header.class2Promotion (dt : Nat) (channel : Nat) : Header.Statement (.class2Promotion dt channel) := by intro c h; cases h
theorem Header.whipCheckDone (dt : Nat) (unit : Nat) (readOk : Bool) : Header.Statement (.whipCheckDone dt unit readOk) := by intro c h; cases h
theorem Header.faultSourceFire (dt : Nat) (f : FaultInfo) : Header.Statement (.faultSourceFire dt f) := by intro c h; cases h
theorem Header.processorWdogExpiry (dt : Nat) (proc : Nat) : Header.Statement (.processorWdogExpiry dt proc) := by intro c h; cases h
theorem Header.watchdogKick (dt : Nat) (proc : Nat) : Header.Statement (.watchdogKick dt proc) := by intro c h; cases h
theorem Header.bowlineWdog (dt : Nat) : Header.Statement (.bowlineWdog dt) := by intro c h; cases h
theorem Header.bowlineLockstep (dt : Nat) : Header.Statement (.bowlineLockstep dt) := by intro c h; cases h
theorem Header.collector (dt : Nat) : Header.Statement (.collector dt) := by intro c h; cases h
theorem Header.por (dt : Nat) : Header.Statement (.por dt) := by intro c h; cases h
theorem Header.railExcursion (dt : Nat) (rail : Nat) : Header.Statement (.railExcursion dt rail) := by intro c h; cases h
theorem Header.resetNAssert (dt : Nat) : Header.Statement (.resetNAssert dt) := by intro c h; cases h
theorem Header.resetNRelease (dt : Nat) : Header.Statement (.resetNRelease dt) := by intro c h; cases h
theorem Header.perstN (dt : Nat) : Header.Statement (.perstN dt) := by intro c h; cases h
theorem Header.fuseLoadDone (dt : Nat) (badBlocks strapReadings : List Nat) : Header.Statement (.fuseLoadDone dt badBlocks strapReadings) := by intro c h; cases h
theorem Header.clockStable (dt : Nat) (c : ClockCounts) : Header.Statement (.clockStable dt c) := by intro c h; cases h
theorem Header.clockJudgeTimeout (dt : Nat) (clock : Nat) (count : Option Nat) : Header.Statement (.clockJudgeTimeout dt clock count) := by intro c h; cases h
theorem Header.clockMonitorFail (dt : Nat) (c : ClockCounts) : Header.Statement (.clockMonitorFail dt c) := by intro c h; cases h
theorem Header.fioRetry (dt : Nat) : Header.Statement (.fioRetry dt) := by intro c h; cases h
theorem Header.imageLoaded (dt : Nat) (bad : List Nat) : Header.Statement (.imageLoaded dt bad) := by intro c h; cases h
theorem Header.memTrainingDone (dt : Nat) (failed : List Nat) : Header.Statement (.memTrainingDone dt failed) := by intro c h; cases h
theorem Header.bootComplete (dt : Nat) : Header.Statement (.bootComplete dt) := by intro c h; cases h
theorem Header.startTimeout (dt : Nat) : Header.Statement (.startTimeout dt) := by intro c h; cases h
theorem Header.failedStartReset (dt : Nat) : Header.Statement (.failedStartReset dt) := by intro c h; cases h
theorem Header.pwrFailAssert (dt : Nat) : Header.Statement (.pwrFailAssert dt) := by intro c h; cases h
theorem Header.pwrFailRelease (dt : Nat) : Header.Statement (.pwrFailRelease dt) := by intro c h; cases h
theorem Header.lastGaspWriteDone (dt : Nat) : Header.Statement (.lastGaspWriteDone dt) := by intro c h; cases h
theorem Header.extest (dt : Nat) : Header.Statement (.extest dt) := by intro c h; cases h
theorem Header.samplePreload (dt : Nat) (scan : List Bool) : Header.Statement (.samplePreload dt scan) := by intro c h; cases h
theorem Header.idcode (dt : Nat) : Header.Statement (.idcode dt) := by intro c h; cases h
theorem Header.clamp (dt : Nat) : Header.Statement (.clamp dt) := by intro c h; cases h
theorem Header.highz (dt : Nat) : Header.Statement (.highz dt) := by intro c h; cases h
theorem Header.dbgAccess (dt : Nat) (a : Access) : Header.Statement (.dbgAccess dt a) := by intro c h; cases h
theorem Header.dbgTrace (dt : Nat) (base size : Nat) : Header.Statement (.dbgTrace dt base size) := by intro c h; cases h
theorem Header.dbgHalt (dt : Nat) (op : HaltOp) (proc : Nat) : Header.Statement (.dbgHalt dt op proc) := by intro c h; cases h
theorem Header.bypass (dt : Nat) : Header.Statement (.bypass dt) := by intro c h; cases h
theorem Header.trstN (dt : Nat) : Header.Statement (.trstN dt) := by intro c h; cases h
theorem Header.ethLinkDown (dt : Nat) (mac : Nat) : Header.Statement (.ethLinkDown dt mac) := by intro c h; cases h
theorem Header.ethBlockLock (dt : Nat) (mac : Nat) : Header.Statement (.ethBlockLock dt mac) := by intro c h; cases h
theorem Header.dprxSymbolLock (dt : Nat) (port : Nat) : Header.Statement (.dprxSymbolLock dt port) := by intro c h; cases h
theorem Header.dprxAuxRequest (dt : Nat) (port offset length : Nat) : Header.Statement (.dprxAuxRequest dt port offset length) := by intro c h; cases h
theorem Header.scrub (dt : Nat) (channel : Nat) (read : ScrubRead) : Header.Statement (.scrub dt channel read) := by intro c h; cases h
theorem Header.supplyResetRelease (dt : Nat) : Header.Statement (.supplyResetRelease dt) := by intro c h; cases h
theorem Header.paletteProgramDone (dt : Nat) (readBackOk : Bool) : Header.Statement (.paletteProgramDone dt readBackOk) := by intro c h; cases h
theorem Header.fwDataDone (dt : Nat) : Header.Statement (.fwDataDone dt) := by intro c h; cases h
theorem Header.processorRestartDone (dt : Nat) (proc : Nat) : Header.Statement (.processorRestartDone dt proc) := by intro c h; cases h

end Sys2Proof.Laws
end

