-- ==== Sys2Proof/Laws/Start.lean ====
section
/-! SUPPORT. What resets and the start leave and write (R417 to R446), and the debug port. -/

namespace Sys2Proof.Machine

open Sys2Proof

/-- The rails that power-on reset watches are 2 and 9. -/
theorem filter_porRails (l : List Nat) : l.filter (fun r => !hasNat r porRails) = l.filter (fun r => decide (r ≠ 2 ∧ r ≠ 9)) := by
  congr 1; funext r; unfold hasNat porRails; simp [eq_comm]

/-- What the loss of VDD_FUSE does to a palette that is being programmed. -/
theorem tearPalette_eq (a : State) : a.tearPalette = { a with fuses := if a.bg.palette.isSome then { a.fuses with paletteProgrammed := true, paletteBad := true } else a.fuses } := by
  unfold State.tearPalette; split <;> rfl

/-- What an excursion of a monitored rail does (R423, R449). -/
theorem railTrip_monitored (rail : Nat) (a x : State) (h : rail < 11) (hx : x = { a.tearPalette with pins := { a.pins with railsBad := insertSorted rail a.pins.railsBad } }) :
    a.railTrip rail = if hasNat rail porRails = true then x.powerOff else if x.dev = .off then x else x.resetTo .supply 0 := by
  subst hx; unfold State.railTrip; rw [if_neg (by omega), if_neg (by omega)]

/-- What switching VDD_FUSE does. -/
theorem railTrip_fuse (a : State) : a.railTrip 11 = (fun u : State => { u with pins := { u.pins with vddFuse := !u.pins.vddFuse } }) (if a.pins.vddFuse = true then a.tearPalette else a) := by
  unfold State.railTrip; rw [if_neg (by omega), if_pos rfl]

/-- A change of the device state touches the mirror, the log, rings and what leaves the device. -/
theorem setDev_frame (n : DevState) (x : Nat) (s : State) : { s.setDev n x with dev := s.dev, mirror := s.mirror, log := s.log, rings := s.rings, out := s.out } = s ∧
    (s.dev ≠ n → (s.setDev n x).mirror.devState = n.code) := by
  unfold State.setDev
  split
  · rename_i h; exact ⟨rfl, fun g => absurd h g⟩
  · dsimp only
    split
    · exact ⟨rfl, fun _ => rfl⟩
    · have h1 := (event_frame 0x0001 0 (s.dev.code + n.code * 256 + x * 65536) { s with dev := n, mirror := { s.mirror with devState := n.code } }).1
      refine ⟨?_, fun _ => ?_⟩
      · have h := congrArg (fun y : State => { y with dev := s.dev, mirror := s.mirror }) h1
        exact h
      · have h := congrArg (fun y : State => y.mirror.devState) h1
        exact h

/-- What entering RECOVERY does (R428). -/
theorem enterRecovery_spec (form : RecoveryForm) (x : State) : ∃ t, t = x.enterRecovery form ∧ t.dev = .recovery ∧
      t.boot = { x.boot with recovery := form, step := min x.boot.step 7, cleatUp := false, failed := false } ∧
      t.clk.enabled = x.clk.enabled.filter (fun k => if form = .sio then decide (k = .sio) else decide (k = .sio ∨ k = .fio ∨ k = .xa ∨ k = .pllCore)) ∧
      { t with dev := x.dev, mirror := x.mirror, log := x.log, rings := x.rings, out := x.out, boot := x.boot, clk := x.clk } = x := by
  refine ⟨_, rfl, ?_⟩
  unfold State.enterRecovery
  dsimp only
  obtain ⟨y, hy⟩ : ∃ y : State, y = { x with
    boot := { x.boot with recovery := form, step := min x.boot.step 7, cleatUp := false, failed := false }
    clk := { x.clk with
      enabled := x.clk.enabled.filter (fun k => if form = .sio then decide (k = .sio) else hasClock k [.sio, .fio, .xa, .pllCore])
      stable := x.clk.stable.filter (fun k => if form = .sio then decide (k = .sio) else hasClock k [.sio, .fio, .xa, .pllCore])
      fioWait := false } } := ⟨_, rfl⟩
  rw [← hy]
  obtain ⟨h1, -⟩ := setDev_frame .recovery 0xFFFF y
  obtain ⟨-, h2⟩ := setDev_flt .recovery 0xFFFF y
  obtain ⟨w, hw⟩ : ∃ w, w = y.setDev .recovery 0xFFFF := ⟨_, rfl⟩
  rw [← hw] at h1 h2 ⊢
  clear hw
  refine ⟨h2, ?_, ?_, ?_⟩
  · have h := congrArg State.boot h1; rw [hy] at h; exact h
  · have h := congrArg (fun z : State => z.clk.enabled) h1; rw [hy] at h
    refine Eq.trans h ?_
    show x.clk.enabled.filter _ = _
    congr 1; funext k; split
    · rfl
    · rw [hasClock_eq_decide]; simp
  · have h := congrArg (fun z : State => { z with dev := x.dev, mirror := x.mirror, log := x.log, rings := x.rings, out := x.out, boot := x.boot, clk := x.clk }) h1
    rw [hy] at h; exact h

/-- What the end of the fuse load does (R430 to R434). -/
theorem fuseLoad_spec (bad strap l : List Nat) (a b : State) (hd : a.dev = .starting) (h2 : a.boot.step = 2) (hf : a.boot.failed = false) (hl : l = badFuses a.fuses bad)
      (hb : b = { a with bk := { a.bk with fuseBad := l.foldl (fun x k => insertSorted k x) a.bk.fuseBad, fioTries := 0 } }) :
      (0 ∈ l ∨ 1 ∈ l → a.fuseLoad bad strap = b.enterRecovery .sio) ∧
      (0 ∉ l → 1 ∉ l → 2 ∈ l ∨ 3 ∈ l ∨ 5 ∈ l ∨ 7 ∈ l → a.fuseLoad bad strap = { b with boot := { b.boot with failed := true } }) ∧
      (0 ∉ l → 1 ∉ l → 2 ∉ l → 3 ∉ l → 5 ∉ l → 7 ∉ l → ∃ c : State, a.fuseLoad bad strap =
          (if c.bk.strapAmbig = true ∨ c.bk.strapChoice = 0 ∨ (12 ≤ c.bk.strapChoice ∧ c.bk.strapChoice ≤ 14) then c.enterRecovery .full else c) ∧
        c.boot.step = 4 ∧ c.fuses = { a.fuses with committed := true } ∧ Clock.xa ∈ c.clk.enabled ∧ Clock.fio ∈ c.clk.enabled ∧
        c.boot.palette = (if a.fuses.paletteProgrammed = true ∧ 6 ∉ l then a.fuses.paletteCustomer else a.fuses.paletteFactory) ∧
        (c.boot.xbUsed = true ↔ a.fuses.custProgrammed = true ∧ 4 ∉ l ∧ a.fuses.xbFreqKhz ≠ 0) ∧
        (a.boot.afterPor = true → strapDecode strap = none → c.bk = { b.bk with strapChoice := 0, strapAmbig := true }) ∧
        (∀ n, a.boot.afterPor = true → strapDecode strap = some n → c.bk = { b.bk with strapChoice := n, strapAmbig := false }) ∧
        (a.boot.afterPor = false → c.bk = b.bk) ∧
        { c with bk := a.bk, boot := a.boot, fuses := a.fuses, clk := a.clk } = a) := by
  have hE : a.fuseLoad bad strap = if (hasNat 0 l || hasNat 1 l) = true then b.enterRecovery .sio else if [2, 3, 5, 7].any (fun b => hasNat b l) = true then b.failStart else
      (fun c : State => if (c.bk.strapAmbig || strapForces c.bk.strapChoice) = true then c.enterRecovery .full else c)
        ((fun v : State => if v.boot.afterPor = true then v.strapMeasure strap else v)
          ((State.enableClock .xa { b with
        fuses := { a.fuses with committed := true }
        boot := { b.boot with
          step := 4, pinMap := pinMapOf a.fuses (a.fuses.custProgrammed && !hasNat 4 l), xbUsed := a.fuses.custProgrammed && !hasNat 4 l && decide (a.fuses.xbFreqKhz ≠ 0)
          palette := if (a.fuses.paletteProgrammed && !hasNat 6 l) = true then a.fuses.paletteCustomer else a.fuses.paletteFactory } }).enableClock .fio)) := by
    subst hl hb
    unfold State.fuseLoad
    rw [if_neg (by simp [hd, h2, hf])]
  rw [hE]; clear hE
  refine ⟨?_, ?_, ?_⟩
  · intro h; rw [if_pos (by rw [hasNat_eq_decide, hasNat_eq_decide]; simpa using h)]
  · intro h0 h1 h
    rw [if_neg (by rw [hasNat_eq_decide, hasNat_eq_decide]; simp [h0, h1]), if_pos (by simp only [hasNat_eq_decide]; simpa using h)]
    rfl
  · intro h0 h1 h2' h3 h5 h7
    rw [if_neg (by rw [hasNat_eq_decide, hasNat_eq_decide]; simp [h0, h1]), if_neg (by simp only [hasNat_eq_decide]; simp [h2', h3, h5, h7])]
    obtain ⟨u, hu⟩ : ∃ u : State, u = { b with
        fuses := { a.fuses with committed := true }
        boot := { b.boot with
          step := 4, pinMap := pinMapOf a.fuses (a.fuses.custProgrammed && !hasNat 4 l), xbUsed := a.fuses.custProgrammed && !hasNat 4 l && decide (a.fuses.xbFreqKhz ≠ 0)
          palette := if (a.fuses.paletteProgrammed && !hasNat 6 l) = true then a.fuses.paletteCustomer else a.fuses.paletteFactory } } := ⟨_, rfl⟩
    rw [← hu]; dsimp only
    obtain ⟨v, hv⟩ : ∃ v : State, v = (u.enableClock .xa).enableClock .fio := ⟨_, rfl⟩
    rw [← hv]
    have hen : ∀ (k : Clock) (x : State), { x.enableClock k with clk := x.clk } = x ∧ k ∈ (x.enableClock k).clk.enabled ∧ ∀ j ∈ x.clk.enabled, j ∈ (x.enableClock k).clk.enabled := by
      intro k x; unfold State.enableClock
      split
      · rename_i h; rw [hasClock_eq_decide] at h; exact ⟨rfl, by simpa using h, fun j hj => hj⟩
      · exact ⟨rfl, List.mem_cons_self, fun j hj => List.mem_cons_of_mem _ hj⟩
    have hvf : { v with clk := u.clk } = u ∧ Clock.xa ∈ v.clk.enabled ∧ Clock.fio ∈ v.clk.enabled := by
      rw [hv]
      obtain ⟨e1, e2, -⟩ := hen .xa u
      obtain ⟨f1, f2, f3⟩ := hen .fio (u.enableClock .xa)
      refine ⟨?_, f3 _ e2, f2⟩
      have h := congrArg (fun y : State => { y with clk := u.clk }) f1
      exact h.trans e1
    clear hv
    obtain ⟨c, hc⟩ : ∃ c : State, c = (if v.boot.afterPor = true then v.strapMeasure strap else v) := ⟨_, rfl⟩
    rw [← hc]
    have hbk : v.bk = b.bk := by have h := congrArg State.bk hvf.1; rw [hu] at h; exact h
    have hpor : v.boot.afterPor = a.boot.afterPor := by have h := congrArg (fun y : State => y.boot.afterPor) hvf.1; rw [hu, hb] at h; exact h
    have hcf : { c with bk := v.bk } = v ∧ (a.boot.afterPor = true → strapDecode strap = none → c.bk = { b.bk with strapChoice := 0, strapAmbig := true }) ∧
        (∀ n, a.boot.afterPor = true → strapDecode strap = some n → c.bk = { b.bk with strapChoice := n, strapAmbig := false }) ∧
        (a.boot.afterPor = false → c.bk = b.bk) := by
      rw [hpor] at hc
      by_cases hp : a.boot.afterPor = true
      · rw [if_pos hp] at hc; unfold State.strapMeasure at hc
        cases hs : strapDecode strap with
        | none => rw [hs] at hc; subst hc; exact ⟨rfl, (fun _ _ => by rw [← hbk]), (fun n _ h => by cases h), fun h => absurd hp (by rw [h]; simp)⟩
        | some n => rw [hs] at hc; subst hc; exact ⟨rfl, (fun _ h => by cases h), (fun m _ h => by cases h; rw [← hbk]), fun h => absurd hp (by rw [h]; simp)⟩
      · rw [if_neg hp] at hc; subst hc; exact ⟨rfl, fun h => absurd h hp, fun n h => absurd h hp, fun _ => hbk⟩
    clear hc
    have hcu : { c with bk := u.bk, clk := u.clk } = u := by
      have hub : v.bk = u.bk := by have h := congrArg State.bk hvf.1; exact h
      have h := congrArg (fun y : State => { y with clk := u.clk, bk := u.bk }) hcf.1
      refine h.trans ?_
      have h := congrArg (fun y : State => { y with bk := u.bk }) hvf.1
      exact h
    have hck : c.clk = v.clk := by have h := congrArg State.clk hcf.1; exact h
    refine ⟨c, ?_, ?_, ?_, ?_, ?_, ?_, ?_, hcf.2.1, hcf.2.2.1, hcf.2.2.2, ?_⟩
    · refine if_congr ?_ rfl rfl
      unfold strapForces inRange; simp
    · have h := congrArg (fun y : State => y.boot.step) hcu; rw [hu] at h; exact h
    · have h := congrArg (fun y : State => y.fuses) hcu; rw [hu] at h; exact h
    · rw [hck]; exact hvf.2.1
    · rw [hck]; exact hvf.2.2
    · have h := congrArg (fun y : State => y.boot.palette) hcu; rw [hu] at h
      refine Eq.trans h (if_congr ?_ rfl rfl)
      rw [hasNat_eq_decide]; simp
    · have h := congrArg (fun y : State => y.boot.xbUsed) hcu; rw [hu] at h
      rw [show c.boot.xbUsed = _ from h, hasNat_eq_decide]; simp [and_assoc]
    · have h := congrArg (fun y : State => { y with bk := a.bk, boot := a.boot, fuses := a.fuses, clk := a.clk }) hcu
      rw [hu, hb] at h; exact h

/-- Step 7 enables the six PLLs in order (R426). -/
theorem enablePlls_eq (b : State) : (devicePlls.foldl (fun s k => s.enableClock k) b).setStep 7 = (fun u : State => { u with boot := { u.boot with step := 7 } })
          ((((((b.enableClock .pllCore).enableClock .pllCodec).enableClock .pllComp).enableClock .pllPix).enableClock .pllMem).enableClock .pllTime) := by
  unfold devicePlls
  simp only [List.foldl_cons, List.foldl_nil]
  generalize ((((((b.enableClock .pllCore).enableClock .pllCodec).enableClock .pllComp).enableClock .pllPix).enableClock .pllMem).enableClock .pllTime) = w
  rfl

/-- Which image a start takes (R429, R435). -/
theorem chooseImage_eq (bad : List Nat) (b : State) : b.chooseImage bad = if b.bootFrom = .xspi then
      (match (if b.flash.fitted then b.flash.bootSlots.find? (fun e => decide (e.1 ∉ bad)) else none) with
        | some e => b.releaseProcs e.1 e.2
        | none => b.failStart)
    else if b.bk.stageValid = false then b.enterRecovery .full else if 2 ∉ bad then b.releaseProcs 2 b.flash.staged else b.failStart := by
  unfold State.chooseImage
  split
  · rename_i h; rw [if_pos h]
    simp only [hasNat_eq_decide, decide_not] <;> rfl
  · rename_i h; rw [if_neg h]
    refine if_congr (by simp) rfl (if_congr ?_ rfl rfl)
    rw [hasNat_eq_decide]; simp

/-- The debug port of a device with power. -/
theorem tap_eq (f : Debug → Debug) (x : State) (h : x.dev ≠ .off) : x.tap f = { x with dbg := f x.dbg } := by
  unfold State.tap; rw [if_neg h]

end Sys2Proof.Machine
end

