-- ==== Sys2Proof/Laws/State.lean ====
section
/-! SUPPORT. What each field of the state reads after an update of another: one lemma a field and update, each true by definition. -/

namespace Sys2Proof.Machine

open Sys2Proof

/-! ### `advance` -/

@[simp] theorem State.advance_pending (n : Nat) (s : State) : (s.advance n).pending = s.pending := rfl
@[simp] theorem State.advance_dev (n : Nat) (s : State) : (s.advance n).dev = s.dev := rfl
@[simp] theorem State.advance_bk (n : Nat) (s : State) : (s.advance n).bk = s.bk := rfl
@[simp] theorem State.advance_ret (n : Nat) (s : State) : (s.advance n).ret = s.ret := rfl
@[simp] theorem State.advance_flash (n : Nat) (s : State) : (s.advance n).flash = s.flash := rfl
@[simp] theorem State.advance_fuses (n : Nat) (s : State) : (s.advance n).fuses = s.fuses := rfl
@[simp] theorem State.advance_boot (n : Nat) (s : State) : (s.advance n).boot = s.boot := rfl
@[simp] theorem State.advance_clk (n : Nat) (s : State) : (s.advance n).clk = s.clk := rfl
@[simp] theorem State.advance_pins (n : Nat) (s : State) : (s.advance n).pins = s.pins := rfl
@[simp] theorem State.advance_temp (n : Nat) (s : State) : (s.advance n).temp = s.temp := rfl
@[simp] theorem State.advance_rings (n : Nat) (s : State) : (s.advance n).rings = s.rings := rfl
@[simp] theorem State.advance_uart (n : Nat) (s : State) : (s.advance n).uart = s.uart := rfl
@[simp] theorem State.advance_mirror (n : Nat) (s : State) : (s.advance n).mirror = s.mirror := rfl
@[simp] theorem State.advance_log (n : Nat) (s : State) : (s.advance n).log = s.log := rfl
@[simp] theorem State.advance_generation (n : Nat) (s : State) : (s.advance n).generation = s.generation := rfl
@[simp] theorem State.advance_snap (n : Nat) (s : State) : (s.advance n).snap = s.snap := rfl
@[simp] theorem State.advance_auth (n : Nat) (s : State) : (s.advance n).auth = s.auth := rfl
@[simp] theorem State.advance_fw (n : Nat) (s : State) : (s.advance n).fw = s.fw := rfl
@[simp] theorem State.advance_bg (n : Nat) (s : State) : (s.advance n).bg = s.bg := rfl
@[simp] theorem State.advance_txns (n : Nat) (s : State) : (s.advance n).txns = s.txns := rfl
@[simp] theorem State.advance_splice (n : Nat) (s : State) : (s.advance n).splice = s.splice := rfl
@[simp] theorem State.advance_lay (n : Nat) (s : State) : (s.advance n).lay = s.lay := rfl
@[simp] theorem State.advance_raster (n : Nat) (s : State) : (s.advance n).raster = s.raster := rfl
@[simp] theorem State.advance_ing (n : Nat) (s : State) : (s.advance n).ing = s.ing := rfl
@[simp] theorem State.advance_dec (n : Nat) (s : State) : (s.advance n).dec = s.dec := rfl
@[simp] theorem State.advance_braid (n : Nat) (s : State) : (s.advance n).braid = s.braid := rfl
@[simp] theorem State.advance_stop (n : Nat) (s : State) : (s.advance n).stop = s.stop := rfl
@[simp] theorem State.advance_heads (n : Nat) (s : State) : (s.advance n).heads = s.heads := rfl
@[simp] theorem State.advance_pts (n : Nat) (s : State) : (s.advance n).pts = s.pts := rfl
@[simp] theorem State.advance_enc (n : Nat) (s : State) : (s.advance n).enc = s.enc := rfl
@[simp] theorem State.advance_desks (n : Nat) (s : State) : (s.advance n).desks = s.desks := rfl
@[simp] theorem State.advance_mem (n : Nat) (s : State) : (s.advance n).mem = s.mem := rfl
@[simp] theorem State.advance_lanes (n : Nat) (s : State) : (s.advance n).lanes = s.lanes := rfl
@[simp] theorem State.advance_dbg (n : Nat) (s : State) : (s.advance n).dbg = s.dbg := rfl
@[simp] theorem State.advance_flt (n : Nat) (s : State) : (s.advance n).flt = s.flt := rfl
@[simp] theorem State.advance_counters (n : Nat) (s : State) : (s.advance n).counters = s.counters := rfl
@[simp] theorem State.advance_out (n : Nat) (s : State) : (s.advance n).out = s.out := rfl
@[simp] theorem State.advance_free (n : Nat) (s : State) : (s.advance n).free = s.free := rfl

/-! ### `count` -/

@[simp] theorem State.count_pending (b i x n : Nat) (s : State) : (s.count b i x n).pending = s.pending := rfl
@[simp] theorem State.count_dev (b i x n : Nat) (s : State) : (s.count b i x n).dev = s.dev := rfl
@[simp] theorem State.count_bk (b i x n : Nat) (s : State) : (s.count b i x n).bk = s.bk := rfl
@[simp] theorem State.count_ret (b i x n : Nat) (s : State) : (s.count b i x n).ret = s.ret := rfl
@[simp] theorem State.count_flash (b i x n : Nat) (s : State) : (s.count b i x n).flash = s.flash := rfl
@[simp] theorem State.count_fuses (b i x n : Nat) (s : State) : (s.count b i x n).fuses = s.fuses := rfl
@[simp] theorem State.count_boot (b i x n : Nat) (s : State) : (s.count b i x n).boot = s.boot := rfl
@[simp] theorem State.count_clk (b i x n : Nat) (s : State) : (s.count b i x n).clk = s.clk := rfl
@[simp] theorem State.count_pins (b i x n : Nat) (s : State) : (s.count b i x n).pins = s.pins := rfl
@[simp] theorem State.count_temp (b i x n : Nat) (s : State) : (s.count b i x n).temp = s.temp := rfl
@[simp] theorem State.count_rings (b i x n : Nat) (s : State) : (s.count b i x n).rings = s.rings := rfl
@[simp] theorem State.count_uart (b i x n : Nat) (s : State) : (s.count b i x n).uart = s.uart := rfl
@[simp] theorem State.count_mirror (b i x n : Nat) (s : State) : (s.count b i x n).mirror = s.mirror := rfl
@[simp] theorem State.count_log (b i x n : Nat) (s : State) : (s.count b i x n).log = s.log := rfl
@[simp] theorem State.count_generation (b i x n : Nat) (s : State) : (s.count b i x n).generation = s.generation := rfl
@[simp] theorem State.count_snap (b i x n : Nat) (s : State) : (s.count b i x n).snap = s.snap := rfl
@[simp] theorem State.count_auth (b i x n : Nat) (s : State) : (s.count b i x n).auth = s.auth := rfl
@[simp] theorem State.count_fw (b i x n : Nat) (s : State) : (s.count b i x n).fw = s.fw := rfl
@[simp] theorem State.count_bg (b i x n : Nat) (s : State) : (s.count b i x n).bg = s.bg := rfl
@[simp] theorem State.count_txns (b i x n : Nat) (s : State) : (s.count b i x n).txns = s.txns := rfl
@[simp] theorem State.count_splice (b i x n : Nat) (s : State) : (s.count b i x n).splice = s.splice := rfl
@[simp] theorem State.count_lay (b i x n : Nat) (s : State) : (s.count b i x n).lay = s.lay := rfl
@[simp] theorem State.count_time (b i x n : Nat) (s : State) : (s.count b i x n).time = s.time := rfl
@[simp] theorem State.count_raster (b i x n : Nat) (s : State) : (s.count b i x n).raster = s.raster := rfl
@[simp] theorem State.count_ing (b i x n : Nat) (s : State) : (s.count b i x n).ing = s.ing := rfl
@[simp] theorem State.count_dec (b i x n : Nat) (s : State) : (s.count b i x n).dec = s.dec := rfl
@[simp] theorem State.count_braid (b i x n : Nat) (s : State) : (s.count b i x n).braid = s.braid := rfl
@[simp] theorem State.count_stop (b i x n : Nat) (s : State) : (s.count b i x n).stop = s.stop := rfl
@[simp] theorem State.count_heads (b i x n : Nat) (s : State) : (s.count b i x n).heads = s.heads := rfl
@[simp] theorem State.count_pts (b i x n : Nat) (s : State) : (s.count b i x n).pts = s.pts := rfl
@[simp] theorem State.count_enc (b i x n : Nat) (s : State) : (s.count b i x n).enc = s.enc := rfl
@[simp] theorem State.count_desks (b i x n : Nat) (s : State) : (s.count b i x n).desks = s.desks := rfl
@[simp] theorem State.count_mem (b i x n : Nat) (s : State) : (s.count b i x n).mem = s.mem := rfl
@[simp] theorem State.count_lanes (b i x n : Nat) (s : State) : (s.count b i x n).lanes = s.lanes := rfl
@[simp] theorem State.count_dbg (b i x n : Nat) (s : State) : (s.count b i x n).dbg = s.dbg := rfl
@[simp] theorem State.count_flt (b i x n : Nat) (s : State) : (s.count b i x n).flt = s.flt := rfl
@[simp] theorem State.count_out (b i x n : Nat) (s : State) : (s.count b i x n).out = s.out := rfl
@[simp] theorem State.count_free (b i x n : Nat) (s : State) : (s.count b i x n).free = s.free := rfl

/-! ### `setCounter` -/

@[simp] theorem State.setCounter_pending (b i x n : Nat) (s : State) : (s.setCounter b i x n).pending = s.pending := rfl
@[simp] theorem State.setCounter_dev (b i x n : Nat) (s : State) : (s.setCounter b i x n).dev = s.dev := rfl
@[simp] theorem State.setCounter_bk (b i x n : Nat) (s : State) : (s.setCounter b i x n).bk = s.bk := rfl
@[simp] theorem State.setCounter_ret (b i x n : Nat) (s : State) : (s.setCounter b i x n).ret = s.ret := rfl
@[simp] theorem State.setCounter_flash (b i x n : Nat) (s : State) : (s.setCounter b i x n).flash = s.flash := rfl
@[simp] theorem State.setCounter_fuses (b i x n : Nat) (s : State) : (s.setCounter b i x n).fuses = s.fuses := rfl
@[simp] theorem State.setCounter_boot (b i x n : Nat) (s : State) : (s.setCounter b i x n).boot = s.boot := rfl
@[simp] theorem State.setCounter_clk (b i x n : Nat) (s : State) : (s.setCounter b i x n).clk = s.clk := rfl
@[simp] theorem State.setCounter_pins (b i x n : Nat) (s : State) : (s.setCounter b i x n).pins = s.pins := rfl
@[simp] theorem State.setCounter_temp (b i x n : Nat) (s : State) : (s.setCounter b i x n).temp = s.temp := rfl
@[simp] theorem State.setCounter_rings (b i x n : Nat) (s : State) : (s.setCounter b i x n).rings = s.rings := rfl
@[simp] theorem State.setCounter_uart (b i x n : Nat) (s : State) : (s.setCounter b i x n).uart = s.uart := rfl
@[simp] theorem State.setCounter_mirror (b i x n : Nat) (s : State) : (s.setCounter b i x n).mirror = s.mirror := rfl
@[simp] theorem State.setCounter_log (b i x n : Nat) (s : State) : (s.setCounter b i x n).log = s.log := rfl
@[simp] theorem State.setCounter_generation (b i x n : Nat) (s : State) : (s.setCounter b i x n).generation = s.generation := rfl
@[simp] theorem State.setCounter_snap (b i x n : Nat) (s : State) : (s.setCounter b i x n).snap = s.snap := rfl
@[simp] theorem State.setCounter_auth (b i x n : Nat) (s : State) : (s.setCounter b i x n).auth = s.auth := rfl
@[simp] theorem State.setCounter_fw (b i x n : Nat) (s : State) : (s.setCounter b i x n).fw = s.fw := rfl
@[simp] theorem State.setCounter_bg (b i x n : Nat) (s : State) : (s.setCounter b i x n).bg = s.bg := rfl
@[simp] theorem State.setCounter_txns (b i x n : Nat) (s : State) : (s.setCounter b i x n).txns = s.txns := rfl
@[simp] theorem State.setCounter_splice (b i x n : Nat) (s : State) : (s.setCounter b i x n).splice = s.splice := rfl
@[simp] theorem State.setCounter_lay (b i x n : Nat) (s : State) : (s.setCounter b i x n).lay = s.lay := rfl
@[simp] theorem State.setCounter_time (b i x n : Nat) (s : State) : (s.setCounter b i x n).time = s.time := rfl
@[simp] theorem State.setCounter_raster (b i x n : Nat) (s : State) : (s.setCounter b i x n).raster = s.raster := rfl
@[simp] theorem State.setCounter_ing (b i x n : Nat) (s : State) : (s.setCounter b i x n).ing = s.ing := rfl
@[simp] theorem State.setCounter_dec (b i x n : Nat) (s : State) : (s.setCounter b i x n).dec = s.dec := rfl
@[simp] theorem State.setCounter_braid (b i x n : Nat) (s : State) : (s.setCounter b i x n).braid = s.braid := rfl
@[simp] theorem State.setCounter_stop (b i x n : Nat) (s : State) : (s.setCounter b i x n).stop = s.stop := rfl
@[simp] theorem State.setCounter_heads (b i x n : Nat) (s : State) : (s.setCounter b i x n).heads = s.heads := rfl
@[simp] theorem State.setCounter_pts (b i x n : Nat) (s : State) : (s.setCounter b i x n).pts = s.pts := rfl
@[simp] theorem State.setCounter_enc (b i x n : Nat) (s : State) : (s.setCounter b i x n).enc = s.enc := rfl
@[simp] theorem State.setCounter_desks (b i x n : Nat) (s : State) : (s.setCounter b i x n).desks = s.desks := rfl
@[simp] theorem State.setCounter_mem (b i x n : Nat) (s : State) : (s.setCounter b i x n).mem = s.mem := rfl
@[simp] theorem State.setCounter_lanes (b i x n : Nat) (s : State) : (s.setCounter b i x n).lanes = s.lanes := rfl
@[simp] theorem State.setCounter_dbg (b i x n : Nat) (s : State) : (s.setCounter b i x n).dbg = s.dbg := rfl
@[simp] theorem State.setCounter_flt (b i x n : Nat) (s : State) : (s.setCounter b i x n).flt = s.flt := rfl
@[simp] theorem State.setCounter_out (b i x n : Nat) (s : State) : (s.setCounter b i x n).out = s.out := rfl
@[simp] theorem State.setCounter_free (b i x n : Nat) (s : State) : (s.setCounter b i x n).free = s.free := rfl

/-! ### `setRing` -/

@[simp] theorem State.setRing_pending (n : Nat) (r : Ring) (s : State) : (s.setRing n r).pending = s.pending := rfl
@[simp] theorem State.setRing_dev (n : Nat) (r : Ring) (s : State) : (s.setRing n r).dev = s.dev := rfl
@[simp] theorem State.setRing_bk (n : Nat) (r : Ring) (s : State) : (s.setRing n r).bk = s.bk := rfl
@[simp] theorem State.setRing_ret (n : Nat) (r : Ring) (s : State) : (s.setRing n r).ret = s.ret := rfl
@[simp] theorem State.setRing_flash (n : Nat) (r : Ring) (s : State) : (s.setRing n r).flash = s.flash := rfl
@[simp] theorem State.setRing_fuses (n : Nat) (r : Ring) (s : State) : (s.setRing n r).fuses = s.fuses := rfl
@[simp] theorem State.setRing_boot (n : Nat) (r : Ring) (s : State) : (s.setRing n r).boot = s.boot := rfl
@[simp] theorem State.setRing_clk (n : Nat) (r : Ring) (s : State) : (s.setRing n r).clk = s.clk := rfl
@[simp] theorem State.setRing_pins (n : Nat) (r : Ring) (s : State) : (s.setRing n r).pins = s.pins := rfl
@[simp] theorem State.setRing_temp (n : Nat) (r : Ring) (s : State) : (s.setRing n r).temp = s.temp := rfl
@[simp] theorem State.setRing_uart (n : Nat) (r : Ring) (s : State) : (s.setRing n r).uart = s.uart := rfl
@[simp] theorem State.setRing_mirror (n : Nat) (r : Ring) (s : State) : (s.setRing n r).mirror = s.mirror := rfl
@[simp] theorem State.setRing_log (n : Nat) (r : Ring) (s : State) : (s.setRing n r).log = s.log := rfl
@[simp] theorem State.setRing_generation (n : Nat) (r : Ring) (s : State) : (s.setRing n r).generation = s.generation := rfl
@[simp] theorem State.setRing_snap (n : Nat) (r : Ring) (s : State) : (s.setRing n r).snap = s.snap := rfl
@[simp] theorem State.setRing_auth (n : Nat) (r : Ring) (s : State) : (s.setRing n r).auth = s.auth := rfl
@[simp] theorem State.setRing_fw (n : Nat) (r : Ring) (s : State) : (s.setRing n r).fw = s.fw := rfl
@[simp] theorem State.setRing_bg (n : Nat) (r : Ring) (s : State) : (s.setRing n r).bg = s.bg := rfl
@[simp] theorem State.setRing_txns (n : Nat) (r : Ring) (s : State) : (s.setRing n r).txns = s.txns := rfl
@[simp] theorem State.setRing_splice (n : Nat) (r : Ring) (s : State) : (s.setRing n r).splice = s.splice := rfl
@[simp] theorem State.setRing_lay (n : Nat) (r : Ring) (s : State) : (s.setRing n r).lay = s.lay := rfl
@[simp] theorem State.setRing_time (n : Nat) (r : Ring) (s : State) : (s.setRing n r).time = s.time := rfl
@[simp] theorem State.setRing_raster (n : Nat) (r : Ring) (s : State) : (s.setRing n r).raster = s.raster := rfl
@[simp] theorem State.setRing_ing (n : Nat) (r : Ring) (s : State) : (s.setRing n r).ing = s.ing := rfl
@[simp] theorem State.setRing_dec (n : Nat) (r : Ring) (s : State) : (s.setRing n r).dec = s.dec := rfl
@[simp] theorem State.setRing_braid (n : Nat) (r : Ring) (s : State) : (s.setRing n r).braid = s.braid := rfl
@[simp] theorem State.setRing_stop (n : Nat) (r : Ring) (s : State) : (s.setRing n r).stop = s.stop := rfl
@[simp] theorem State.setRing_heads (n : Nat) (r : Ring) (s : State) : (s.setRing n r).heads = s.heads := rfl
@[simp] theorem State.setRing_pts (n : Nat) (r : Ring) (s : State) : (s.setRing n r).pts = s.pts := rfl
@[simp] theorem State.setRing_enc (n : Nat) (r : Ring) (s : State) : (s.setRing n r).enc = s.enc := rfl
@[simp] theorem State.setRing_desks (n : Nat) (r : Ring) (s : State) : (s.setRing n r).desks = s.desks := rfl
@[simp] theorem State.setRing_mem (n : Nat) (r : Ring) (s : State) : (s.setRing n r).mem = s.mem := rfl
@[simp] theorem State.setRing_lanes (n : Nat) (r : Ring) (s : State) : (s.setRing n r).lanes = s.lanes := rfl
@[simp] theorem State.setRing_dbg (n : Nat) (r : Ring) (s : State) : (s.setRing n r).dbg = s.dbg := rfl
@[simp] theorem State.setRing_flt (n : Nat) (r : Ring) (s : State) : (s.setRing n r).flt = s.flt := rfl
@[simp] theorem State.setRing_counters (n : Nat) (r : Ring) (s : State) : (s.setRing n r).counters = s.counters := rfl
@[simp] theorem State.setRing_out (n : Nat) (r : Ring) (s : State) : (s.setRing n r).out = s.out := rfl
@[simp] theorem State.setRing_free (n : Nat) (r : Ring) (s : State) : (s.setRing n r).free = s.free := rfl
@[simp] theorem State.setRing_rings (n : Nat) (r : Ring) (s : State) : (s.setRing n r).rings = s.rings.set {} n r := rfl

/-! ### `msix` -/

@[simp] theorem State.msix_pending (v : Nat) (s : State) : (s.msix v).pending = s.pending := rfl
@[simp] theorem State.msix_dev (v : Nat) (s : State) : (s.msix v).dev = s.dev := rfl
@[simp] theorem State.msix_bk (v : Nat) (s : State) : (s.msix v).bk = s.bk := rfl
@[simp] theorem State.msix_ret (v : Nat) (s : State) : (s.msix v).ret = s.ret := rfl
@[simp] theorem State.msix_flash (v : Nat) (s : State) : (s.msix v).flash = s.flash := rfl
@[simp] theorem State.msix_fuses (v : Nat) (s : State) : (s.msix v).fuses = s.fuses := rfl
@[simp] theorem State.msix_boot (v : Nat) (s : State) : (s.msix v).boot = s.boot := rfl
@[simp] theorem State.msix_clk (v : Nat) (s : State) : (s.msix v).clk = s.clk := rfl
@[simp] theorem State.msix_pins (v : Nat) (s : State) : (s.msix v).pins = s.pins := rfl
@[simp] theorem State.msix_temp (v : Nat) (s : State) : (s.msix v).temp = s.temp := rfl
@[simp] theorem State.msix_rings (v : Nat) (s : State) : (s.msix v).rings = s.rings := rfl
@[simp] theorem State.msix_uart (v : Nat) (s : State) : (s.msix v).uart = s.uart := rfl
@[simp] theorem State.msix_mirror (v : Nat) (s : State) : (s.msix v).mirror = s.mirror := rfl
@[simp] theorem State.msix_log (v : Nat) (s : State) : (s.msix v).log = s.log := rfl
@[simp] theorem State.msix_generation (v : Nat) (s : State) : (s.msix v).generation = s.generation := rfl
@[simp] theorem State.msix_snap (v : Nat) (s : State) : (s.msix v).snap = s.snap := rfl
@[simp] theorem State.msix_auth (v : Nat) (s : State) : (s.msix v).auth = s.auth := rfl
@[simp] theorem State.msix_fw (v : Nat) (s : State) : (s.msix v).fw = s.fw := rfl
@[simp] theorem State.msix_bg (v : Nat) (s : State) : (s.msix v).bg = s.bg := rfl
@[simp] theorem State.msix_txns (v : Nat) (s : State) : (s.msix v).txns = s.txns := rfl
@[simp] theorem State.msix_splice (v : Nat) (s : State) : (s.msix v).splice = s.splice := rfl
@[simp] theorem State.msix_lay (v : Nat) (s : State) : (s.msix v).lay = s.lay := rfl
@[simp] theorem State.msix_time (v : Nat) (s : State) : (s.msix v).time = s.time := rfl
@[simp] theorem State.msix_raster (v : Nat) (s : State) : (s.msix v).raster = s.raster := rfl
@[simp] theorem State.msix_ing (v : Nat) (s : State) : (s.msix v).ing = s.ing := rfl
@[simp] theorem State.msix_dec (v : Nat) (s : State) : (s.msix v).dec = s.dec := rfl
@[simp] theorem State.msix_braid (v : Nat) (s : State) : (s.msix v).braid = s.braid := rfl
@[simp] theorem State.msix_stop (v : Nat) (s : State) : (s.msix v).stop = s.stop := rfl
@[simp] theorem State.msix_heads (v : Nat) (s : State) : (s.msix v).heads = s.heads := rfl
@[simp] theorem State.msix_pts (v : Nat) (s : State) : (s.msix v).pts = s.pts := rfl
@[simp] theorem State.msix_enc (v : Nat) (s : State) : (s.msix v).enc = s.enc := rfl
@[simp] theorem State.msix_desks (v : Nat) (s : State) : (s.msix v).desks = s.desks := rfl
@[simp] theorem State.msix_mem (v : Nat) (s : State) : (s.msix v).mem = s.mem := rfl
@[simp] theorem State.msix_lanes (v : Nat) (s : State) : (s.msix v).lanes = s.lanes := rfl
@[simp] theorem State.msix_dbg (v : Nat) (s : State) : (s.msix v).dbg = s.dbg := rfl
@[simp] theorem State.msix_flt (v : Nat) (s : State) : (s.msix v).flt = s.flt := rfl
@[simp] theorem State.msix_counters (v : Nat) (s : State) : (s.msix v).counters = s.counters := rfl
@[simp] theorem State.msix_free (v : Nat) (s : State) : (s.msix v).free = s.free := rfl

/-! ### `send` -/

@[simp] theorem State.send_pending (m k : Nat) (l : List Nat) (s : State) : (s.send m k l).pending = s.pending := rfl
@[simp] theorem State.send_dev (m k : Nat) (l : List Nat) (s : State) : (s.send m k l).dev = s.dev := rfl
@[simp] theorem State.send_bk (m k : Nat) (l : List Nat) (s : State) : (s.send m k l).bk = s.bk := rfl
@[simp] theorem State.send_ret (m k : Nat) (l : List Nat) (s : State) : (s.send m k l).ret = s.ret := rfl
@[simp] theorem State.send_flash (m k : Nat) (l : List Nat) (s : State) : (s.send m k l).flash = s.flash := rfl
@[simp] theorem State.send_fuses (m k : Nat) (l : List Nat) (s : State) : (s.send m k l).fuses = s.fuses := rfl
@[simp] theorem State.send_boot (m k : Nat) (l : List Nat) (s : State) : (s.send m k l).boot = s.boot := rfl
@[simp] theorem State.send_clk (m k : Nat) (l : List Nat) (s : State) : (s.send m k l).clk = s.clk := rfl
@[simp] theorem State.send_pins (m k : Nat) (l : List Nat) (s : State) : (s.send m k l).pins = s.pins := rfl
@[simp] theorem State.send_temp (m k : Nat) (l : List Nat) (s : State) : (s.send m k l).temp = s.temp := rfl
@[simp] theorem State.send_rings (m k : Nat) (l : List Nat) (s : State) : (s.send m k l).rings = s.rings := rfl
@[simp] theorem State.send_uart (m k : Nat) (l : List Nat) (s : State) : (s.send m k l).uart = s.uart := rfl
@[simp] theorem State.send_mirror (m k : Nat) (l : List Nat) (s : State) : (s.send m k l).mirror = s.mirror := rfl
@[simp] theorem State.send_log (m k : Nat) (l : List Nat) (s : State) : (s.send m k l).log = s.log := rfl
@[simp] theorem State.send_generation (m k : Nat) (l : List Nat) (s : State) : (s.send m k l).generation = s.generation := rfl
@[simp] theorem State.send_snap (m k : Nat) (l : List Nat) (s : State) : (s.send m k l).snap = s.snap := rfl
@[simp] theorem State.send_auth (m k : Nat) (l : List Nat) (s : State) : (s.send m k l).auth = s.auth := rfl
@[simp] theorem State.send_fw (m k : Nat) (l : List Nat) (s : State) : (s.send m k l).fw = s.fw := rfl
@[simp] theorem State.send_bg (m k : Nat) (l : List Nat) (s : State) : (s.send m k l).bg = s.bg := rfl
@[simp] theorem State.send_txns (m k : Nat) (l : List Nat) (s : State) : (s.send m k l).txns = s.txns := rfl
@[simp] theorem State.send_splice (m k : Nat) (l : List Nat) (s : State) : (s.send m k l).splice = s.splice := rfl
@[simp] theorem State.send_lay (m k : Nat) (l : List Nat) (s : State) : (s.send m k l).lay = s.lay := rfl
@[simp] theorem State.send_time (m k : Nat) (l : List Nat) (s : State) : (s.send m k l).time = s.time := rfl
@[simp] theorem State.send_raster (m k : Nat) (l : List Nat) (s : State) : (s.send m k l).raster = s.raster := rfl
@[simp] theorem State.send_ing (m k : Nat) (l : List Nat) (s : State) : (s.send m k l).ing = s.ing := rfl
@[simp] theorem State.send_dec (m k : Nat) (l : List Nat) (s : State) : (s.send m k l).dec = s.dec := rfl
@[simp] theorem State.send_braid (m k : Nat) (l : List Nat) (s : State) : (s.send m k l).braid = s.braid := rfl
@[simp] theorem State.send_stop (m k : Nat) (l : List Nat) (s : State) : (s.send m k l).stop = s.stop := rfl
@[simp] theorem State.send_heads (m k : Nat) (l : List Nat) (s : State) : (s.send m k l).heads = s.heads := rfl
@[simp] theorem State.send_pts (m k : Nat) (l : List Nat) (s : State) : (s.send m k l).pts = s.pts := rfl
@[simp] theorem State.send_enc (m k : Nat) (l : List Nat) (s : State) : (s.send m k l).enc = s.enc := rfl
@[simp] theorem State.send_desks (m k : Nat) (l : List Nat) (s : State) : (s.send m k l).desks = s.desks := rfl
@[simp] theorem State.send_mem (m k : Nat) (l : List Nat) (s : State) : (s.send m k l).mem = s.mem := rfl
@[simp] theorem State.send_lanes (m k : Nat) (l : List Nat) (s : State) : (s.send m k l).lanes = s.lanes := rfl
@[simp] theorem State.send_dbg (m k : Nat) (l : List Nat) (s : State) : (s.send m k l).dbg = s.dbg := rfl
@[simp] theorem State.send_flt (m k : Nat) (l : List Nat) (s : State) : (s.send m k l).flt = s.flt := rfl
@[simp] theorem State.send_counters (m k : Nat) (l : List Nat) (s : State) : (s.send m k l).counters = s.counters := rfl
@[simp] theorem State.send_free (m k : Nat) (l : List Nat) (s : State) : (s.send m k l).free = s.free := rfl

/-! ### `modHead` -/

@[simp] theorem State.modHead_pending (h : Nat) (f : HeadRt → HeadRt) (s : State) : (s.modHead h f).pending = s.pending := rfl
@[simp] theorem State.modHead_dev (h : Nat) (f : HeadRt → HeadRt) (s : State) : (s.modHead h f).dev = s.dev := rfl
@[simp] theorem State.modHead_bk (h : Nat) (f : HeadRt → HeadRt) (s : State) : (s.modHead h f).bk = s.bk := rfl
@[simp] theorem State.modHead_ret (h : Nat) (f : HeadRt → HeadRt) (s : State) : (s.modHead h f).ret = s.ret := rfl
@[simp] theorem State.modHead_flash (h : Nat) (f : HeadRt → HeadRt) (s : State) : (s.modHead h f).flash = s.flash := rfl
@[simp] theorem State.modHead_fuses (h : Nat) (f : HeadRt → HeadRt) (s : State) : (s.modHead h f).fuses = s.fuses := rfl
@[simp] theorem State.modHead_boot (h : Nat) (f : HeadRt → HeadRt) (s : State) : (s.modHead h f).boot = s.boot := rfl
@[simp] theorem State.modHead_clk (h : Nat) (f : HeadRt → HeadRt) (s : State) : (s.modHead h f).clk = s.clk := rfl
@[simp] theorem State.modHead_pins (h : Nat) (f : HeadRt → HeadRt) (s : State) : (s.modHead h f).pins = s.pins := rfl
@[simp] theorem State.modHead_temp (h : Nat) (f : HeadRt → HeadRt) (s : State) : (s.modHead h f).temp = s.temp := rfl
@[simp] theorem State.modHead_rings (h : Nat) (f : HeadRt → HeadRt) (s : State) : (s.modHead h f).rings = s.rings := rfl
@[simp] theorem State.modHead_uart (h : Nat) (f : HeadRt → HeadRt) (s : State) : (s.modHead h f).uart = s.uart := rfl
@[simp] theorem State.modHead_mirror (h : Nat) (f : HeadRt → HeadRt) (s : State) : (s.modHead h f).mirror = s.mirror := rfl
@[simp] theorem State.modHead_log (h : Nat) (f : HeadRt → HeadRt) (s : State) : (s.modHead h f).log = s.log := rfl
@[simp] theorem State.modHead_generation (h : Nat) (f : HeadRt → HeadRt) (s : State) : (s.modHead h f).generation = s.generation := rfl
@[simp] theorem State.modHead_snap (h : Nat) (f : HeadRt → HeadRt) (s : State) : (s.modHead h f).snap = s.snap := rfl
@[simp] theorem State.modHead_auth (h : Nat) (f : HeadRt → HeadRt) (s : State) : (s.modHead h f).auth = s.auth := rfl
@[simp] theorem State.modHead_fw (h : Nat) (f : HeadRt → HeadRt) (s : State) : (s.modHead h f).fw = s.fw := rfl
@[simp] theorem State.modHead_bg (h : Nat) (f : HeadRt → HeadRt) (s : State) : (s.modHead h f).bg = s.bg := rfl
@[simp] theorem State.modHead_txns (h : Nat) (f : HeadRt → HeadRt) (s : State) : (s.modHead h f).txns = s.txns := rfl
@[simp] theorem State.modHead_splice (h : Nat) (f : HeadRt → HeadRt) (s : State) : (s.modHead h f).splice = s.splice := rfl
@[simp] theorem State.modHead_lay (h : Nat) (f : HeadRt → HeadRt) (s : State) : (s.modHead h f).lay = s.lay := rfl
@[simp] theorem State.modHead_time (h : Nat) (f : HeadRt → HeadRt) (s : State) : (s.modHead h f).time = s.time := rfl
@[simp] theorem State.modHead_raster (h : Nat) (f : HeadRt → HeadRt) (s : State) : (s.modHead h f).raster = s.raster := rfl
@[simp] theorem State.modHead_ing (h : Nat) (f : HeadRt → HeadRt) (s : State) : (s.modHead h f).ing = s.ing := rfl
@[simp] theorem State.modHead_dec (h : Nat) (f : HeadRt → HeadRt) (s : State) : (s.modHead h f).dec = s.dec := rfl
@[simp] theorem State.modHead_braid (h : Nat) (f : HeadRt → HeadRt) (s : State) : (s.modHead h f).braid = s.braid := rfl
@[simp] theorem State.modHead_stop (h : Nat) (f : HeadRt → HeadRt) (s : State) : (s.modHead h f).stop = s.stop := rfl
@[simp] theorem State.modHead_pts (h : Nat) (f : HeadRt → HeadRt) (s : State) : (s.modHead h f).pts = s.pts := rfl
@[simp] theorem State.modHead_enc (h : Nat) (f : HeadRt → HeadRt) (s : State) : (s.modHead h f).enc = s.enc := rfl
@[simp] theorem State.modHead_desks (h : Nat) (f : HeadRt → HeadRt) (s : State) : (s.modHead h f).desks = s.desks := rfl
@[simp] theorem State.modHead_mem (h : Nat) (f : HeadRt → HeadRt) (s : State) : (s.modHead h f).mem = s.mem := rfl
@[simp] theorem State.modHead_lanes (h : Nat) (f : HeadRt → HeadRt) (s : State) : (s.modHead h f).lanes = s.lanes := rfl
@[simp] theorem State.modHead_dbg (h : Nat) (f : HeadRt → HeadRt) (s : State) : (s.modHead h f).dbg = s.dbg := rfl
@[simp] theorem State.modHead_flt (h : Nat) (f : HeadRt → HeadRt) (s : State) : (s.modHead h f).flt = s.flt := rfl
@[simp] theorem State.modHead_counters (h : Nat) (f : HeadRt → HeadRt) (s : State) : (s.modHead h f).counters = s.counters := rfl
@[simp] theorem State.modHead_out (h : Nat) (f : HeadRt → HeadRt) (s : State) : (s.modHead h f).out = s.out := rfl
@[simp] theorem State.modHead_free (h : Nat) (f : HeadRt → HeadRt) (s : State) : (s.modHead h f).free = s.free := rfl
@[simp] theorem State.modHead_heads (h : Nat) (f : HeadRt → HeadRt) (s : State) : (s.modHead h f).heads = s.heads.modify {} h f := rfl

/-! ### `modSrc` -/

@[simp] theorem State.modSrc_pending (i : Nat) (f : SourceRt → SourceRt) (s : State) : (s.modSrc i f).pending = s.pending := rfl
@[simp] theorem State.modSrc_dev (i : Nat) (f : SourceRt → SourceRt) (s : State) : (s.modSrc i f).dev = s.dev := rfl
@[simp] theorem State.modSrc_bk (i : Nat) (f : SourceRt → SourceRt) (s : State) : (s.modSrc i f).bk = s.bk := rfl
@[simp] theorem State.modSrc_ret (i : Nat) (f : SourceRt → SourceRt) (s : State) : (s.modSrc i f).ret = s.ret := rfl
@[simp] theorem State.modSrc_flash (i : Nat) (f : SourceRt → SourceRt) (s : State) : (s.modSrc i f).flash = s.flash := rfl
@[simp] theorem State.modSrc_fuses (i : Nat) (f : SourceRt → SourceRt) (s : State) : (s.modSrc i f).fuses = s.fuses := rfl
@[simp] theorem State.modSrc_boot (i : Nat) (f : SourceRt → SourceRt) (s : State) : (s.modSrc i f).boot = s.boot := rfl
@[simp] theorem State.modSrc_clk (i : Nat) (f : SourceRt → SourceRt) (s : State) : (s.modSrc i f).clk = s.clk := rfl
@[simp] theorem State.modSrc_pins (i : Nat) (f : SourceRt → SourceRt) (s : State) : (s.modSrc i f).pins = s.pins := rfl
@[simp] theorem State.modSrc_temp (i : Nat) (f : SourceRt → SourceRt) (s : State) : (s.modSrc i f).temp = s.temp := rfl
@[simp] theorem State.modSrc_rings (i : Nat) (f : SourceRt → SourceRt) (s : State) : (s.modSrc i f).rings = s.rings := rfl
@[simp] theorem State.modSrc_uart (i : Nat) (f : SourceRt → SourceRt) (s : State) : (s.modSrc i f).uart = s.uart := rfl
@[simp] theorem State.modSrc_mirror (i : Nat) (f : SourceRt → SourceRt) (s : State) : (s.modSrc i f).mirror = s.mirror := rfl
@[simp] theorem State.modSrc_log (i : Nat) (f : SourceRt → SourceRt) (s : State) : (s.modSrc i f).log = s.log := rfl
@[simp] theorem State.modSrc_generation (i : Nat) (f : SourceRt → SourceRt) (s : State) : (s.modSrc i f).generation = s.generation := rfl
@[simp] theorem State.modSrc_snap (i : Nat) (f : SourceRt → SourceRt) (s : State) : (s.modSrc i f).snap = s.snap := rfl
@[simp] theorem State.modSrc_auth (i : Nat) (f : SourceRt → SourceRt) (s : State) : (s.modSrc i f).auth = s.auth := rfl
@[simp] theorem State.modSrc_fw (i : Nat) (f : SourceRt → SourceRt) (s : State) : (s.modSrc i f).fw = s.fw := rfl
@[simp] theorem State.modSrc_bg (i : Nat) (f : SourceRt → SourceRt) (s : State) : (s.modSrc i f).bg = s.bg := rfl
@[simp] theorem State.modSrc_txns (i : Nat) (f : SourceRt → SourceRt) (s : State) : (s.modSrc i f).txns = s.txns := rfl
@[simp] theorem State.modSrc_splice (i : Nat) (f : SourceRt → SourceRt) (s : State) : (s.modSrc i f).splice = s.splice := rfl
@[simp] theorem State.modSrc_lay (i : Nat) (f : SourceRt → SourceRt) (s : State) : (s.modSrc i f).lay = s.lay := rfl
@[simp] theorem State.modSrc_time (i : Nat) (f : SourceRt → SourceRt) (s : State) : (s.modSrc i f).time = s.time := rfl
@[simp] theorem State.modSrc_raster (i : Nat) (f : SourceRt → SourceRt) (s : State) : (s.modSrc i f).raster = s.raster := rfl
@[simp] theorem State.modSrc_dec (i : Nat) (f : SourceRt → SourceRt) (s : State) : (s.modSrc i f).dec = s.dec := rfl
@[simp] theorem State.modSrc_braid (i : Nat) (f : SourceRt → SourceRt) (s : State) : (s.modSrc i f).braid = s.braid := rfl
@[simp] theorem State.modSrc_stop (i : Nat) (f : SourceRt → SourceRt) (s : State) : (s.modSrc i f).stop = s.stop := rfl
@[simp] theorem State.modSrc_heads (i : Nat) (f : SourceRt → SourceRt) (s : State) : (s.modSrc i f).heads = s.heads := rfl
@[simp] theorem State.modSrc_pts (i : Nat) (f : SourceRt → SourceRt) (s : State) : (s.modSrc i f).pts = s.pts := rfl
@[simp] theorem State.modSrc_enc (i : Nat) (f : SourceRt → SourceRt) (s : State) : (s.modSrc i f).enc = s.enc := rfl
@[simp] theorem State.modSrc_desks (i : Nat) (f : SourceRt → SourceRt) (s : State) : (s.modSrc i f).desks = s.desks := rfl
@[simp] theorem State.modSrc_mem (i : Nat) (f : SourceRt → SourceRt) (s : State) : (s.modSrc i f).mem = s.mem := rfl
@[simp] theorem State.modSrc_lanes (i : Nat) (f : SourceRt → SourceRt) (s : State) : (s.modSrc i f).lanes = s.lanes := rfl
@[simp] theorem State.modSrc_dbg (i : Nat) (f : SourceRt → SourceRt) (s : State) : (s.modSrc i f).dbg = s.dbg := rfl
@[simp] theorem State.modSrc_flt (i : Nat) (f : SourceRt → SourceRt) (s : State) : (s.modSrc i f).flt = s.flt := rfl
@[simp] theorem State.modSrc_counters (i : Nat) (f : SourceRt → SourceRt) (s : State) : (s.modSrc i f).counters = s.counters := rfl
@[simp] theorem State.modSrc_out (i : Nat) (f : SourceRt → SourceRt) (s : State) : (s.modSrc i f).out = s.out := rfl
@[simp] theorem State.modSrc_free (i : Nat) (f : SourceRt → SourceRt) (s : State) : (s.modSrc i f).free = s.free := rfl

/-! ### `modFlow` -/

@[simp] theorem State.modFlow_pending (k : Nat) (f : FlowRt → FlowRt) (s : State) : (s.modFlow k f).pending = s.pending := rfl
@[simp] theorem State.modFlow_dev (k : Nat) (f : FlowRt → FlowRt) (s : State) : (s.modFlow k f).dev = s.dev := rfl
@[simp] theorem State.modFlow_bk (k : Nat) (f : FlowRt → FlowRt) (s : State) : (s.modFlow k f).bk = s.bk := rfl
@[simp] theorem State.modFlow_ret (k : Nat) (f : FlowRt → FlowRt) (s : State) : (s.modFlow k f).ret = s.ret := rfl
@[simp] theorem State.modFlow_flash (k : Nat) (f : FlowRt → FlowRt) (s : State) : (s.modFlow k f).flash = s.flash := rfl
@[simp] theorem State.modFlow_fuses (k : Nat) (f : FlowRt → FlowRt) (s : State) : (s.modFlow k f).fuses = s.fuses := rfl
@[simp] theorem State.modFlow_boot (k : Nat) (f : FlowRt → FlowRt) (s : State) : (s.modFlow k f).boot = s.boot := rfl
@[simp] theorem State.modFlow_clk (k : Nat) (f : FlowRt → FlowRt) (s : State) : (s.modFlow k f).clk = s.clk := rfl
@[simp] theorem State.modFlow_pins (k : Nat) (f : FlowRt → FlowRt) (s : State) : (s.modFlow k f).pins = s.pins := rfl
@[simp] theorem State.modFlow_temp (k : Nat) (f : FlowRt → FlowRt) (s : State) : (s.modFlow k f).temp = s.temp := rfl
@[simp] theorem State.modFlow_rings (k : Nat) (f : FlowRt → FlowRt) (s : State) : (s.modFlow k f).rings = s.rings := rfl
@[simp] theorem State.modFlow_uart (k : Nat) (f : FlowRt → FlowRt) (s : State) : (s.modFlow k f).uart = s.uart := rfl
@[simp] theorem State.modFlow_mirror (k : Nat) (f : FlowRt → FlowRt) (s : State) : (s.modFlow k f).mirror = s.mirror := rfl
@[simp] theorem State.modFlow_log (k : Nat) (f : FlowRt → FlowRt) (s : State) : (s.modFlow k f).log = s.log := rfl
@[simp] theorem State.modFlow_generation (k : Nat) (f : FlowRt → FlowRt) (s : State) : (s.modFlow k f).generation = s.generation := rfl
@[simp] theorem State.modFlow_snap (k : Nat) (f : FlowRt → FlowRt) (s : State) : (s.modFlow k f).snap = s.snap := rfl
@[simp] theorem State.modFlow_auth (k : Nat) (f : FlowRt → FlowRt) (s : State) : (s.modFlow k f).auth = s.auth := rfl
@[simp] theorem State.modFlow_fw (k : Nat) (f : FlowRt → FlowRt) (s : State) : (s.modFlow k f).fw = s.fw := rfl
@[simp] theorem State.modFlow_bg (k : Nat) (f : FlowRt → FlowRt) (s : State) : (s.modFlow k f).bg = s.bg := rfl
@[simp] theorem State.modFlow_txns (k : Nat) (f : FlowRt → FlowRt) (s : State) : (s.modFlow k f).txns = s.txns := rfl
@[simp] theorem State.modFlow_splice (k : Nat) (f : FlowRt → FlowRt) (s : State) : (s.modFlow k f).splice = s.splice := rfl
@[simp] theorem State.modFlow_lay (k : Nat) (f : FlowRt → FlowRt) (s : State) : (s.modFlow k f).lay = s.lay := rfl
@[simp] theorem State.modFlow_time (k : Nat) (f : FlowRt → FlowRt) (s : State) : (s.modFlow k f).time = s.time := rfl
@[simp] theorem State.modFlow_raster (k : Nat) (f : FlowRt → FlowRt) (s : State) : (s.modFlow k f).raster = s.raster := rfl
@[simp] theorem State.modFlow_dec (k : Nat) (f : FlowRt → FlowRt) (s : State) : (s.modFlow k f).dec = s.dec := rfl
@[simp] theorem State.modFlow_braid (k : Nat) (f : FlowRt → FlowRt) (s : State) : (s.modFlow k f).braid = s.braid := rfl
@[simp] theorem State.modFlow_stop (k : Nat) (f : FlowRt → FlowRt) (s : State) : (s.modFlow k f).stop = s.stop := rfl
@[simp] theorem State.modFlow_heads (k : Nat) (f : FlowRt → FlowRt) (s : State) : (s.modFlow k f).heads = s.heads := rfl
@[simp] theorem State.modFlow_pts (k : Nat) (f : FlowRt → FlowRt) (s : State) : (s.modFlow k f).pts = s.pts := rfl
@[simp] theorem State.modFlow_enc (k : Nat) (f : FlowRt → FlowRt) (s : State) : (s.modFlow k f).enc = s.enc := rfl
@[simp] theorem State.modFlow_desks (k : Nat) (f : FlowRt → FlowRt) (s : State) : (s.modFlow k f).desks = s.desks := rfl
@[simp] theorem State.modFlow_mem (k : Nat) (f : FlowRt → FlowRt) (s : State) : (s.modFlow k f).mem = s.mem := rfl
@[simp] theorem State.modFlow_lanes (k : Nat) (f : FlowRt → FlowRt) (s : State) : (s.modFlow k f).lanes = s.lanes := rfl
@[simp] theorem State.modFlow_dbg (k : Nat) (f : FlowRt → FlowRt) (s : State) : (s.modFlow k f).dbg = s.dbg := rfl
@[simp] theorem State.modFlow_flt (k : Nat) (f : FlowRt → FlowRt) (s : State) : (s.modFlow k f).flt = s.flt := rfl
@[simp] theorem State.modFlow_counters (k : Nat) (f : FlowRt → FlowRt) (s : State) : (s.modFlow k f).counters = s.counters := rfl
@[simp] theorem State.modFlow_out (k : Nat) (f : FlowRt → FlowRt) (s : State) : (s.modFlow k f).out = s.out := rfl
@[simp] theorem State.modFlow_free (k : Nat) (f : FlowRt → FlowRt) (s : State) : (s.modFlow k f).free = s.free := rfl

/-! ### `modDprx` -/

@[simp] theorem State.modDprx_pending (p : Nat) (f : DprxRt → DprxRt) (s : State) : (s.modDprx p f).pending = s.pending := rfl
@[simp] theorem State.modDprx_dev (p : Nat) (f : DprxRt → DprxRt) (s : State) : (s.modDprx p f).dev = s.dev := rfl
@[simp] theorem State.modDprx_bk (p : Nat) (f : DprxRt → DprxRt) (s : State) : (s.modDprx p f).bk = s.bk := rfl
@[simp] theorem State.modDprx_ret (p : Nat) (f : DprxRt → DprxRt) (s : State) : (s.modDprx p f).ret = s.ret := rfl
@[simp] theorem State.modDprx_flash (p : Nat) (f : DprxRt → DprxRt) (s : State) : (s.modDprx p f).flash = s.flash := rfl
@[simp] theorem State.modDprx_fuses (p : Nat) (f : DprxRt → DprxRt) (s : State) : (s.modDprx p f).fuses = s.fuses := rfl
@[simp] theorem State.modDprx_boot (p : Nat) (f : DprxRt → DprxRt) (s : State) : (s.modDprx p f).boot = s.boot := rfl
@[simp] theorem State.modDprx_clk (p : Nat) (f : DprxRt → DprxRt) (s : State) : (s.modDprx p f).clk = s.clk := rfl
@[simp] theorem State.modDprx_pins (p : Nat) (f : DprxRt → DprxRt) (s : State) : (s.modDprx p f).pins = s.pins := rfl
@[simp] theorem State.modDprx_temp (p : Nat) (f : DprxRt → DprxRt) (s : State) : (s.modDprx p f).temp = s.temp := rfl
@[simp] theorem State.modDprx_rings (p : Nat) (f : DprxRt → DprxRt) (s : State) : (s.modDprx p f).rings = s.rings := rfl
@[simp] theorem State.modDprx_uart (p : Nat) (f : DprxRt → DprxRt) (s : State) : (s.modDprx p f).uart = s.uart := rfl
@[simp] theorem State.modDprx_mirror (p : Nat) (f : DprxRt → DprxRt) (s : State) : (s.modDprx p f).mirror = s.mirror := rfl
@[simp] theorem State.modDprx_log (p : Nat) (f : DprxRt → DprxRt) (s : State) : (s.modDprx p f).log = s.log := rfl
@[simp] theorem State.modDprx_generation (p : Nat) (f : DprxRt → DprxRt) (s : State) : (s.modDprx p f).generation = s.generation := rfl
@[simp] theorem State.modDprx_snap (p : Nat) (f : DprxRt → DprxRt) (s : State) : (s.modDprx p f).snap = s.snap := rfl
@[simp] theorem State.modDprx_auth (p : Nat) (f : DprxRt → DprxRt) (s : State) : (s.modDprx p f).auth = s.auth := rfl
@[simp] theorem State.modDprx_fw (p : Nat) (f : DprxRt → DprxRt) (s : State) : (s.modDprx p f).fw = s.fw := rfl
@[simp] theorem State.modDprx_bg (p : Nat) (f : DprxRt → DprxRt) (s : State) : (s.modDprx p f).bg = s.bg := rfl
@[simp] theorem State.modDprx_txns (p : Nat) (f : DprxRt → DprxRt) (s : State) : (s.modDprx p f).txns = s.txns := rfl
@[simp] theorem State.modDprx_splice (p : Nat) (f : DprxRt → DprxRt) (s : State) : (s.modDprx p f).splice = s.splice := rfl
@[simp] theorem State.modDprx_lay (p : Nat) (f : DprxRt → DprxRt) (s : State) : (s.modDprx p f).lay = s.lay := rfl
@[simp] theorem State.modDprx_time (p : Nat) (f : DprxRt → DprxRt) (s : State) : (s.modDprx p f).time = s.time := rfl
@[simp] theorem State.modDprx_raster (p : Nat) (f : DprxRt → DprxRt) (s : State) : (s.modDprx p f).raster = s.raster := rfl
@[simp] theorem State.modDprx_dec (p : Nat) (f : DprxRt → DprxRt) (s : State) : (s.modDprx p f).dec = s.dec := rfl
@[simp] theorem State.modDprx_braid (p : Nat) (f : DprxRt → DprxRt) (s : State) : (s.modDprx p f).braid = s.braid := rfl
@[simp] theorem State.modDprx_stop (p : Nat) (f : DprxRt → DprxRt) (s : State) : (s.modDprx p f).stop = s.stop := rfl
@[simp] theorem State.modDprx_heads (p : Nat) (f : DprxRt → DprxRt) (s : State) : (s.modDprx p f).heads = s.heads := rfl
@[simp] theorem State.modDprx_pts (p : Nat) (f : DprxRt → DprxRt) (s : State) : (s.modDprx p f).pts = s.pts := rfl
@[simp] theorem State.modDprx_enc (p : Nat) (f : DprxRt → DprxRt) (s : State) : (s.modDprx p f).enc = s.enc := rfl
@[simp] theorem State.modDprx_desks (p : Nat) (f : DprxRt → DprxRt) (s : State) : (s.modDprx p f).desks = s.desks := rfl
@[simp] theorem State.modDprx_mem (p : Nat) (f : DprxRt → DprxRt) (s : State) : (s.modDprx p f).mem = s.mem := rfl
@[simp] theorem State.modDprx_lanes (p : Nat) (f : DprxRt → DprxRt) (s : State) : (s.modDprx p f).lanes = s.lanes := rfl
@[simp] theorem State.modDprx_dbg (p : Nat) (f : DprxRt → DprxRt) (s : State) : (s.modDprx p f).dbg = s.dbg := rfl
@[simp] theorem State.modDprx_flt (p : Nat) (f : DprxRt → DprxRt) (s : State) : (s.modDprx p f).flt = s.flt := rfl
@[simp] theorem State.modDprx_counters (p : Nat) (f : DprxRt → DprxRt) (s : State) : (s.modDprx p f).counters = s.counters := rfl
@[simp] theorem State.modDprx_out (p : Nat) (f : DprxRt → DprxRt) (s : State) : (s.modDprx p f).out = s.out := rfl
@[simp] theorem State.modDprx_free (p : Nat) (f : DprxRt → DprxRt) (s : State) : (s.modDprx p f).free = s.free := rfl

/-! ### `modDesk` -/

@[simp] theorem State.modDesk_pending (d : Nat) (f : DeskRt → DeskRt) (s : State) : (s.modDesk d f).pending = s.pending := rfl
@[simp] theorem State.modDesk_dev (d : Nat) (f : DeskRt → DeskRt) (s : State) : (s.modDesk d f).dev = s.dev := rfl
@[simp] theorem State.modDesk_bk (d : Nat) (f : DeskRt → DeskRt) (s : State) : (s.modDesk d f).bk = s.bk := rfl
@[simp] theorem State.modDesk_ret (d : Nat) (f : DeskRt → DeskRt) (s : State) : (s.modDesk d f).ret = s.ret := rfl
@[simp] theorem State.modDesk_flash (d : Nat) (f : DeskRt → DeskRt) (s : State) : (s.modDesk d f).flash = s.flash := rfl
@[simp] theorem State.modDesk_fuses (d : Nat) (f : DeskRt → DeskRt) (s : State) : (s.modDesk d f).fuses = s.fuses := rfl
@[simp] theorem State.modDesk_boot (d : Nat) (f : DeskRt → DeskRt) (s : State) : (s.modDesk d f).boot = s.boot := rfl
@[simp] theorem State.modDesk_clk (d : Nat) (f : DeskRt → DeskRt) (s : State) : (s.modDesk d f).clk = s.clk := rfl
@[simp] theorem State.modDesk_pins (d : Nat) (f : DeskRt → DeskRt) (s : State) : (s.modDesk d f).pins = s.pins := rfl
@[simp] theorem State.modDesk_temp (d : Nat) (f : DeskRt → DeskRt) (s : State) : (s.modDesk d f).temp = s.temp := rfl
@[simp] theorem State.modDesk_rings (d : Nat) (f : DeskRt → DeskRt) (s : State) : (s.modDesk d f).rings = s.rings := rfl
@[simp] theorem State.modDesk_uart (d : Nat) (f : DeskRt → DeskRt) (s : State) : (s.modDesk d f).uart = s.uart := rfl
@[simp] theorem State.modDesk_mirror (d : Nat) (f : DeskRt → DeskRt) (s : State) : (s.modDesk d f).mirror = s.mirror := rfl
@[simp] theorem State.modDesk_log (d : Nat) (f : DeskRt → DeskRt) (s : State) : (s.modDesk d f).log = s.log := rfl
@[simp] theorem State.modDesk_generation (d : Nat) (f : DeskRt → DeskRt) (s : State) : (s.modDesk d f).generation = s.generation := rfl
@[simp] theorem State.modDesk_snap (d : Nat) (f : DeskRt → DeskRt) (s : State) : (s.modDesk d f).snap = s.snap := rfl
@[simp] theorem State.modDesk_auth (d : Nat) (f : DeskRt → DeskRt) (s : State) : (s.modDesk d f).auth = s.auth := rfl
@[simp] theorem State.modDesk_fw (d : Nat) (f : DeskRt → DeskRt) (s : State) : (s.modDesk d f).fw = s.fw := rfl
@[simp] theorem State.modDesk_bg (d : Nat) (f : DeskRt → DeskRt) (s : State) : (s.modDesk d f).bg = s.bg := rfl
@[simp] theorem State.modDesk_txns (d : Nat) (f : DeskRt → DeskRt) (s : State) : (s.modDesk d f).txns = s.txns := rfl
@[simp] theorem State.modDesk_splice (d : Nat) (f : DeskRt → DeskRt) (s : State) : (s.modDesk d f).splice = s.splice := rfl
@[simp] theorem State.modDesk_lay (d : Nat) (f : DeskRt → DeskRt) (s : State) : (s.modDesk d f).lay = s.lay := rfl
@[simp] theorem State.modDesk_time (d : Nat) (f : DeskRt → DeskRt) (s : State) : (s.modDesk d f).time = s.time := rfl
@[simp] theorem State.modDesk_raster (d : Nat) (f : DeskRt → DeskRt) (s : State) : (s.modDesk d f).raster = s.raster := rfl
@[simp] theorem State.modDesk_ing (d : Nat) (f : DeskRt → DeskRt) (s : State) : (s.modDesk d f).ing = s.ing := rfl
@[simp] theorem State.modDesk_dec (d : Nat) (f : DeskRt → DeskRt) (s : State) : (s.modDesk d f).dec = s.dec := rfl
@[simp] theorem State.modDesk_braid (d : Nat) (f : DeskRt → DeskRt) (s : State) : (s.modDesk d f).braid = s.braid := rfl
@[simp] theorem State.modDesk_stop (d : Nat) (f : DeskRt → DeskRt) (s : State) : (s.modDesk d f).stop = s.stop := rfl
@[simp] theorem State.modDesk_heads (d : Nat) (f : DeskRt → DeskRt) (s : State) : (s.modDesk d f).heads = s.heads := rfl
@[simp] theorem State.modDesk_pts (d : Nat) (f : DeskRt → DeskRt) (s : State) : (s.modDesk d f).pts = s.pts := rfl
@[simp] theorem State.modDesk_enc (d : Nat) (f : DeskRt → DeskRt) (s : State) : (s.modDesk d f).enc = s.enc := rfl
@[simp] theorem State.modDesk_mem (d : Nat) (f : DeskRt → DeskRt) (s : State) : (s.modDesk d f).mem = s.mem := rfl
@[simp] theorem State.modDesk_lanes (d : Nat) (f : DeskRt → DeskRt) (s : State) : (s.modDesk d f).lanes = s.lanes := rfl
@[simp] theorem State.modDesk_dbg (d : Nat) (f : DeskRt → DeskRt) (s : State) : (s.modDesk d f).dbg = s.dbg := rfl
@[simp] theorem State.modDesk_flt (d : Nat) (f : DeskRt → DeskRt) (s : State) : (s.modDesk d f).flt = s.flt := rfl
@[simp] theorem State.modDesk_counters (d : Nat) (f : DeskRt → DeskRt) (s : State) : (s.modDesk d f).counters = s.counters := rfl
@[simp] theorem State.modDesk_out (d : Nat) (f : DeskRt → DeskRt) (s : State) : (s.modDesk d f).out = s.out := rfl
@[simp] theorem State.modDesk_free (d : Nat) (f : DeskRt → DeskRt) (s : State) : (s.modDesk d f).free = s.free := rfl
@[simp] theorem State.modDesk_desks (d : Nat) (f : DeskRt → DeskRt) (s : State) : (s.modDesk d f).desks = s.desks.modify {} d f := rfl

/-! ### `modEnc` -/

@[simp] theorem State.modEnc_pending (c : Nat) (f : EncRt → EncRt) (s : State) : (s.modEnc c f).pending = s.pending := rfl
@[simp] theorem State.modEnc_dev (c : Nat) (f : EncRt → EncRt) (s : State) : (s.modEnc c f).dev = s.dev := rfl
@[simp] theorem State.modEnc_bk (c : Nat) (f : EncRt → EncRt) (s : State) : (s.modEnc c f).bk = s.bk := rfl
@[simp] theorem State.modEnc_ret (c : Nat) (f : EncRt → EncRt) (s : State) : (s.modEnc c f).ret = s.ret := rfl
@[simp] theorem State.modEnc_flash (c : Nat) (f : EncRt → EncRt) (s : State) : (s.modEnc c f).flash = s.flash := rfl
@[simp] theorem State.modEnc_fuses (c : Nat) (f : EncRt → EncRt) (s : State) : (s.modEnc c f).fuses = s.fuses := rfl
@[simp] theorem State.modEnc_boot (c : Nat) (f : EncRt → EncRt) (s : State) : (s.modEnc c f).boot = s.boot := rfl
@[simp] theorem State.modEnc_clk (c : Nat) (f : EncRt → EncRt) (s : State) : (s.modEnc c f).clk = s.clk := rfl
@[simp] theorem State.modEnc_pins (c : Nat) (f : EncRt → EncRt) (s : State) : (s.modEnc c f).pins = s.pins := rfl
@[simp] theorem State.modEnc_temp (c : Nat) (f : EncRt → EncRt) (s : State) : (s.modEnc c f).temp = s.temp := rfl
@[simp] theorem State.modEnc_rings (c : Nat) (f : EncRt → EncRt) (s : State) : (s.modEnc c f).rings = s.rings := rfl
@[simp] theorem State.modEnc_uart (c : Nat) (f : EncRt → EncRt) (s : State) : (s.modEnc c f).uart = s.uart := rfl
@[simp] theorem State.modEnc_mirror (c : Nat) (f : EncRt → EncRt) (s : State) : (s.modEnc c f).mirror = s.mirror := rfl
@[simp] theorem State.modEnc_log (c : Nat) (f : EncRt → EncRt) (s : State) : (s.modEnc c f).log = s.log := rfl
@[simp] theorem State.modEnc_generation (c : Nat) (f : EncRt → EncRt) (s : State) : (s.modEnc c f).generation = s.generation := rfl
@[simp] theorem State.modEnc_snap (c : Nat) (f : EncRt → EncRt) (s : State) : (s.modEnc c f).snap = s.snap := rfl
@[simp] theorem State.modEnc_auth (c : Nat) (f : EncRt → EncRt) (s : State) : (s.modEnc c f).auth = s.auth := rfl
@[simp] theorem State.modEnc_fw (c : Nat) (f : EncRt → EncRt) (s : State) : (s.modEnc c f).fw = s.fw := rfl
@[simp] theorem State.modEnc_bg (c : Nat) (f : EncRt → EncRt) (s : State) : (s.modEnc c f).bg = s.bg := rfl
@[simp] theorem State.modEnc_txns (c : Nat) (f : EncRt → EncRt) (s : State) : (s.modEnc c f).txns = s.txns := rfl
@[simp] theorem State.modEnc_splice (c : Nat) (f : EncRt → EncRt) (s : State) : (s.modEnc c f).splice = s.splice := rfl
@[simp] theorem State.modEnc_lay (c : Nat) (f : EncRt → EncRt) (s : State) : (s.modEnc c f).lay = s.lay := rfl
@[simp] theorem State.modEnc_time (c : Nat) (f : EncRt → EncRt) (s : State) : (s.modEnc c f).time = s.time := rfl
@[simp] theorem State.modEnc_raster (c : Nat) (f : EncRt → EncRt) (s : State) : (s.modEnc c f).raster = s.raster := rfl
@[simp] theorem State.modEnc_ing (c : Nat) (f : EncRt → EncRt) (s : State) : (s.modEnc c f).ing = s.ing := rfl
@[simp] theorem State.modEnc_dec (c : Nat) (f : EncRt → EncRt) (s : State) : (s.modEnc c f).dec = s.dec := rfl
@[simp] theorem State.modEnc_braid (c : Nat) (f : EncRt → EncRt) (s : State) : (s.modEnc c f).braid = s.braid := rfl
@[simp] theorem State.modEnc_stop (c : Nat) (f : EncRt → EncRt) (s : State) : (s.modEnc c f).stop = s.stop := rfl
@[simp] theorem State.modEnc_heads (c : Nat) (f : EncRt → EncRt) (s : State) : (s.modEnc c f).heads = s.heads := rfl
@[simp] theorem State.modEnc_pts (c : Nat) (f : EncRt → EncRt) (s : State) : (s.modEnc c f).pts = s.pts := rfl
@[simp] theorem State.modEnc_desks (c : Nat) (f : EncRt → EncRt) (s : State) : (s.modEnc c f).desks = s.desks := rfl
@[simp] theorem State.modEnc_mem (c : Nat) (f : EncRt → EncRt) (s : State) : (s.modEnc c f).mem = s.mem := rfl
@[simp] theorem State.modEnc_lanes (c : Nat) (f : EncRt → EncRt) (s : State) : (s.modEnc c f).lanes = s.lanes := rfl
@[simp] theorem State.modEnc_dbg (c : Nat) (f : EncRt → EncRt) (s : State) : (s.modEnc c f).dbg = s.dbg := rfl
@[simp] theorem State.modEnc_flt (c : Nat) (f : EncRt → EncRt) (s : State) : (s.modEnc c f).flt = s.flt := rfl
@[simp] theorem State.modEnc_counters (c : Nat) (f : EncRt → EncRt) (s : State) : (s.modEnc c f).counters = s.counters := rfl
@[simp] theorem State.modEnc_out (c : Nat) (f : EncRt → EncRt) (s : State) : (s.modEnc c f).out = s.out := rfl
@[simp] theorem State.modEnc_free (c : Nat) (f : EncRt → EncRt) (s : State) : (s.modEnc c f).free = s.free := rfl

/-! ### `modCtx` -/

@[simp] theorem State.modCtx_pending (c : Nat) (f : CtxRt → CtxRt) (s : State) : (s.modCtx c f).pending = s.pending := rfl
@[simp] theorem State.modCtx_dev (c : Nat) (f : CtxRt → CtxRt) (s : State) : (s.modCtx c f).dev = s.dev := rfl
@[simp] theorem State.modCtx_bk (c : Nat) (f : CtxRt → CtxRt) (s : State) : (s.modCtx c f).bk = s.bk := rfl
@[simp] theorem State.modCtx_ret (c : Nat) (f : CtxRt → CtxRt) (s : State) : (s.modCtx c f).ret = s.ret := rfl
@[simp] theorem State.modCtx_flash (c : Nat) (f : CtxRt → CtxRt) (s : State) : (s.modCtx c f).flash = s.flash := rfl
@[simp] theorem State.modCtx_fuses (c : Nat) (f : CtxRt → CtxRt) (s : State) : (s.modCtx c f).fuses = s.fuses := rfl
@[simp] theorem State.modCtx_boot (c : Nat) (f : CtxRt → CtxRt) (s : State) : (s.modCtx c f).boot = s.boot := rfl
@[simp] theorem State.modCtx_clk (c : Nat) (f : CtxRt → CtxRt) (s : State) : (s.modCtx c f).clk = s.clk := rfl
@[simp] theorem State.modCtx_pins (c : Nat) (f : CtxRt → CtxRt) (s : State) : (s.modCtx c f).pins = s.pins := rfl
@[simp] theorem State.modCtx_temp (c : Nat) (f : CtxRt → CtxRt) (s : State) : (s.modCtx c f).temp = s.temp := rfl
@[simp] theorem State.modCtx_rings (c : Nat) (f : CtxRt → CtxRt) (s : State) : (s.modCtx c f).rings = s.rings := rfl
@[simp] theorem State.modCtx_uart (c : Nat) (f : CtxRt → CtxRt) (s : State) : (s.modCtx c f).uart = s.uart := rfl
@[simp] theorem State.modCtx_mirror (c : Nat) (f : CtxRt → CtxRt) (s : State) : (s.modCtx c f).mirror = s.mirror := rfl
@[simp] theorem State.modCtx_log (c : Nat) (f : CtxRt → CtxRt) (s : State) : (s.modCtx c f).log = s.log := rfl
@[simp] theorem State.modCtx_generation (c : Nat) (f : CtxRt → CtxRt) (s : State) : (s.modCtx c f).generation = s.generation := rfl
@[simp] theorem State.modCtx_snap (c : Nat) (f : CtxRt → CtxRt) (s : State) : (s.modCtx c f).snap = s.snap := rfl
@[simp] theorem State.modCtx_auth (c : Nat) (f : CtxRt → CtxRt) (s : State) : (s.modCtx c f).auth = s.auth := rfl
@[simp] theorem State.modCtx_fw (c : Nat) (f : CtxRt → CtxRt) (s : State) : (s.modCtx c f).fw = s.fw := rfl
@[simp] theorem State.modCtx_bg (c : Nat) (f : CtxRt → CtxRt) (s : State) : (s.modCtx c f).bg = s.bg := rfl
@[simp] theorem State.modCtx_txns (c : Nat) (f : CtxRt → CtxRt) (s : State) : (s.modCtx c f).txns = s.txns := rfl
@[simp] theorem State.modCtx_splice (c : Nat) (f : CtxRt → CtxRt) (s : State) : (s.modCtx c f).splice = s.splice := rfl
@[simp] theorem State.modCtx_lay (c : Nat) (f : CtxRt → CtxRt) (s : State) : (s.modCtx c f).lay = s.lay := rfl
@[simp] theorem State.modCtx_time (c : Nat) (f : CtxRt → CtxRt) (s : State) : (s.modCtx c f).time = s.time := rfl
@[simp] theorem State.modCtx_raster (c : Nat) (f : CtxRt → CtxRt) (s : State) : (s.modCtx c f).raster = s.raster := rfl
@[simp] theorem State.modCtx_ing (c : Nat) (f : CtxRt → CtxRt) (s : State) : (s.modCtx c f).ing = s.ing := rfl
@[simp] theorem State.modCtx_braid (c : Nat) (f : CtxRt → CtxRt) (s : State) : (s.modCtx c f).braid = s.braid := rfl
@[simp] theorem State.modCtx_stop (c : Nat) (f : CtxRt → CtxRt) (s : State) : (s.modCtx c f).stop = s.stop := rfl
@[simp] theorem State.modCtx_heads (c : Nat) (f : CtxRt → CtxRt) (s : State) : (s.modCtx c f).heads = s.heads := rfl
@[simp] theorem State.modCtx_pts (c : Nat) (f : CtxRt → CtxRt) (s : State) : (s.modCtx c f).pts = s.pts := rfl
@[simp] theorem State.modCtx_enc (c : Nat) (f : CtxRt → CtxRt) (s : State) : (s.modCtx c f).enc = s.enc := rfl
@[simp] theorem State.modCtx_desks (c : Nat) (f : CtxRt → CtxRt) (s : State) : (s.modCtx c f).desks = s.desks := rfl
@[simp] theorem State.modCtx_mem (c : Nat) (f : CtxRt → CtxRt) (s : State) : (s.modCtx c f).mem = s.mem := rfl
@[simp] theorem State.modCtx_lanes (c : Nat) (f : CtxRt → CtxRt) (s : State) : (s.modCtx c f).lanes = s.lanes := rfl
@[simp] theorem State.modCtx_dbg (c : Nat) (f : CtxRt → CtxRt) (s : State) : (s.modCtx c f).dbg = s.dbg := rfl
@[simp] theorem State.modCtx_flt (c : Nat) (f : CtxRt → CtxRt) (s : State) : (s.modCtx c f).flt = s.flt := rfl
@[simp] theorem State.modCtx_counters (c : Nat) (f : CtxRt → CtxRt) (s : State) : (s.modCtx c f).counters = s.counters := rfl
@[simp] theorem State.modCtx_out (c : Nat) (f : CtxRt → CtxRt) (s : State) : (s.modCtx c f).out = s.out := rfl
@[simp] theorem State.modCtx_free (c : Nat) (f : CtxRt → CtxRt) (s : State) : (s.modCtx c f).free = s.free := rfl

/-! ### `modRow` -/

@[simp] theorem State.modRow_pending (k : Nat) (f : RowRt → RowRt) (s : State) : (s.modRow k f).pending = s.pending := rfl
@[simp] theorem State.modRow_dev (k : Nat) (f : RowRt → RowRt) (s : State) : (s.modRow k f).dev = s.dev := rfl
@[simp] theorem State.modRow_bk (k : Nat) (f : RowRt → RowRt) (s : State) : (s.modRow k f).bk = s.bk := rfl
@[simp] theorem State.modRow_ret (k : Nat) (f : RowRt → RowRt) (s : State) : (s.modRow k f).ret = s.ret := rfl
@[simp] theorem State.modRow_flash (k : Nat) (f : RowRt → RowRt) (s : State) : (s.modRow k f).flash = s.flash := rfl
@[simp] theorem State.modRow_fuses (k : Nat) (f : RowRt → RowRt) (s : State) : (s.modRow k f).fuses = s.fuses := rfl
@[simp] theorem State.modRow_boot (k : Nat) (f : RowRt → RowRt) (s : State) : (s.modRow k f).boot = s.boot := rfl
@[simp] theorem State.modRow_clk (k : Nat) (f : RowRt → RowRt) (s : State) : (s.modRow k f).clk = s.clk := rfl
@[simp] theorem State.modRow_pins (k : Nat) (f : RowRt → RowRt) (s : State) : (s.modRow k f).pins = s.pins := rfl
@[simp] theorem State.modRow_temp (k : Nat) (f : RowRt → RowRt) (s : State) : (s.modRow k f).temp = s.temp := rfl
@[simp] theorem State.modRow_rings (k : Nat) (f : RowRt → RowRt) (s : State) : (s.modRow k f).rings = s.rings := rfl
@[simp] theorem State.modRow_uart (k : Nat) (f : RowRt → RowRt) (s : State) : (s.modRow k f).uart = s.uart := rfl
@[simp] theorem State.modRow_mirror (k : Nat) (f : RowRt → RowRt) (s : State) : (s.modRow k f).mirror = s.mirror := rfl
@[simp] theorem State.modRow_log (k : Nat) (f : RowRt → RowRt) (s : State) : (s.modRow k f).log = s.log := rfl
@[simp] theorem State.modRow_generation (k : Nat) (f : RowRt → RowRt) (s : State) : (s.modRow k f).generation = s.generation := rfl
@[simp] theorem State.modRow_snap (k : Nat) (f : RowRt → RowRt) (s : State) : (s.modRow k f).snap = s.snap := rfl
@[simp] theorem State.modRow_auth (k : Nat) (f : RowRt → RowRt) (s : State) : (s.modRow k f).auth = s.auth := rfl
@[simp] theorem State.modRow_fw (k : Nat) (f : RowRt → RowRt) (s : State) : (s.modRow k f).fw = s.fw := rfl
@[simp] theorem State.modRow_bg (k : Nat) (f : RowRt → RowRt) (s : State) : (s.modRow k f).bg = s.bg := rfl
@[simp] theorem State.modRow_txns (k : Nat) (f : RowRt → RowRt) (s : State) : (s.modRow k f).txns = s.txns := rfl
@[simp] theorem State.modRow_splice (k : Nat) (f : RowRt → RowRt) (s : State) : (s.modRow k f).splice = s.splice := rfl
@[simp] theorem State.modRow_lay (k : Nat) (f : RowRt → RowRt) (s : State) : (s.modRow k f).lay = s.lay := rfl
@[simp] theorem State.modRow_time (k : Nat) (f : RowRt → RowRt) (s : State) : (s.modRow k f).time = s.time := rfl
@[simp] theorem State.modRow_raster (k : Nat) (f : RowRt → RowRt) (s : State) : (s.modRow k f).raster = s.raster := rfl
@[simp] theorem State.modRow_ing (k : Nat) (f : RowRt → RowRt) (s : State) : (s.modRow k f).ing = s.ing := rfl
@[simp] theorem State.modRow_dec (k : Nat) (f : RowRt → RowRt) (s : State) : (s.modRow k f).dec = s.dec := rfl
@[simp] theorem State.modRow_stop (k : Nat) (f : RowRt → RowRt) (s : State) : (s.modRow k f).stop = s.stop := rfl
@[simp] theorem State.modRow_heads (k : Nat) (f : RowRt → RowRt) (s : State) : (s.modRow k f).heads = s.heads := rfl
@[simp] theorem State.modRow_pts (k : Nat) (f : RowRt → RowRt) (s : State) : (s.modRow k f).pts = s.pts := rfl
@[simp] theorem State.modRow_enc (k : Nat) (f : RowRt → RowRt) (s : State) : (s.modRow k f).enc = s.enc := rfl
@[simp] theorem State.modRow_desks (k : Nat) (f : RowRt → RowRt) (s : State) : (s.modRow k f).desks = s.desks := rfl
@[simp] theorem State.modRow_mem (k : Nat) (f : RowRt → RowRt) (s : State) : (s.modRow k f).mem = s.mem := rfl
@[simp] theorem State.modRow_lanes (k : Nat) (f : RowRt → RowRt) (s : State) : (s.modRow k f).lanes = s.lanes := rfl
@[simp] theorem State.modRow_dbg (k : Nat) (f : RowRt → RowRt) (s : State) : (s.modRow k f).dbg = s.dbg := rfl
@[simp] theorem State.modRow_flt (k : Nat) (f : RowRt → RowRt) (s : State) : (s.modRow k f).flt = s.flt := rfl
@[simp] theorem State.modRow_counters (k : Nat) (f : RowRt → RowRt) (s : State) : (s.modRow k f).counters = s.counters := rfl
@[simp] theorem State.modRow_out (k : Nat) (f : RowRt → RowRt) (s : State) : (s.modRow k f).out = s.out := rfl
@[simp] theorem State.modRow_free (k : Nat) (f : RowRt → RowRt) (s : State) : (s.modRow k f).free = s.free := rfl

/-! ### `modLane` -/

@[simp] theorem State.modLane_pending (n : Nat) (f : LaneRt → LaneRt) (s : State) : (s.modLane n f).pending = s.pending := rfl
@[simp] theorem State.modLane_dev (n : Nat) (f : LaneRt → LaneRt) (s : State) : (s.modLane n f).dev = s.dev := rfl
@[simp] theorem State.modLane_bk (n : Nat) (f : LaneRt → LaneRt) (s : State) : (s.modLane n f).bk = s.bk := rfl
@[simp] theorem State.modLane_ret (n : Nat) (f : LaneRt → LaneRt) (s : State) : (s.modLane n f).ret = s.ret := rfl
@[simp] theorem State.modLane_flash (n : Nat) (f : LaneRt → LaneRt) (s : State) : (s.modLane n f).flash = s.flash := rfl
@[simp] theorem State.modLane_fuses (n : Nat) (f : LaneRt → LaneRt) (s : State) : (s.modLane n f).fuses = s.fuses := rfl
@[simp] theorem State.modLane_boot (n : Nat) (f : LaneRt → LaneRt) (s : State) : (s.modLane n f).boot = s.boot := rfl
@[simp] theorem State.modLane_clk (n : Nat) (f : LaneRt → LaneRt) (s : State) : (s.modLane n f).clk = s.clk := rfl
@[simp] theorem State.modLane_pins (n : Nat) (f : LaneRt → LaneRt) (s : State) : (s.modLane n f).pins = s.pins := rfl
@[simp] theorem State.modLane_temp (n : Nat) (f : LaneRt → LaneRt) (s : State) : (s.modLane n f).temp = s.temp := rfl
@[simp] theorem State.modLane_rings (n : Nat) (f : LaneRt → LaneRt) (s : State) : (s.modLane n f).rings = s.rings := rfl
@[simp] theorem State.modLane_uart (n : Nat) (f : LaneRt → LaneRt) (s : State) : (s.modLane n f).uart = s.uart := rfl
@[simp] theorem State.modLane_mirror (n : Nat) (f : LaneRt → LaneRt) (s : State) : (s.modLane n f).mirror = s.mirror := rfl
@[simp] theorem State.modLane_log (n : Nat) (f : LaneRt → LaneRt) (s : State) : (s.modLane n f).log = s.log := rfl
@[simp] theorem State.modLane_generation (n : Nat) (f : LaneRt → LaneRt) (s : State) : (s.modLane n f).generation = s.generation := rfl
@[simp] theorem State.modLane_snap (n : Nat) (f : LaneRt → LaneRt) (s : State) : (s.modLane n f).snap = s.snap := rfl
@[simp] theorem State.modLane_auth (n : Nat) (f : LaneRt → LaneRt) (s : State) : (s.modLane n f).auth = s.auth := rfl
@[simp] theorem State.modLane_fw (n : Nat) (f : LaneRt → LaneRt) (s : State) : (s.modLane n f).fw = s.fw := rfl
@[simp] theorem State.modLane_bg (n : Nat) (f : LaneRt → LaneRt) (s : State) : (s.modLane n f).bg = s.bg := rfl
@[simp] theorem State.modLane_txns (n : Nat) (f : LaneRt → LaneRt) (s : State) : (s.modLane n f).txns = s.txns := rfl
@[simp] theorem State.modLane_splice (n : Nat) (f : LaneRt → LaneRt) (s : State) : (s.modLane n f).splice = s.splice := rfl
@[simp] theorem State.modLane_lay (n : Nat) (f : LaneRt → LaneRt) (s : State) : (s.modLane n f).lay = s.lay := rfl
@[simp] theorem State.modLane_time (n : Nat) (f : LaneRt → LaneRt) (s : State) : (s.modLane n f).time = s.time := rfl
@[simp] theorem State.modLane_raster (n : Nat) (f : LaneRt → LaneRt) (s : State) : (s.modLane n f).raster = s.raster := rfl
@[simp] theorem State.modLane_ing (n : Nat) (f : LaneRt → LaneRt) (s : State) : (s.modLane n f).ing = s.ing := rfl
@[simp] theorem State.modLane_dec (n : Nat) (f : LaneRt → LaneRt) (s : State) : (s.modLane n f).dec = s.dec := rfl
@[simp] theorem State.modLane_braid (n : Nat) (f : LaneRt → LaneRt) (s : State) : (s.modLane n f).braid = s.braid := rfl
@[simp] theorem State.modLane_stop (n : Nat) (f : LaneRt → LaneRt) (s : State) : (s.modLane n f).stop = s.stop := rfl
@[simp] theorem State.modLane_heads (n : Nat) (f : LaneRt → LaneRt) (s : State) : (s.modLane n f).heads = s.heads := rfl
@[simp] theorem State.modLane_pts (n : Nat) (f : LaneRt → LaneRt) (s : State) : (s.modLane n f).pts = s.pts := rfl
@[simp] theorem State.modLane_enc (n : Nat) (f : LaneRt → LaneRt) (s : State) : (s.modLane n f).enc = s.enc := rfl
@[simp] theorem State.modLane_desks (n : Nat) (f : LaneRt → LaneRt) (s : State) : (s.modLane n f).desks = s.desks := rfl
@[simp] theorem State.modLane_mem (n : Nat) (f : LaneRt → LaneRt) (s : State) : (s.modLane n f).mem = s.mem := rfl
@[simp] theorem State.modLane_dbg (n : Nat) (f : LaneRt → LaneRt) (s : State) : (s.modLane n f).dbg = s.dbg := rfl
@[simp] theorem State.modLane_flt (n : Nat) (f : LaneRt → LaneRt) (s : State) : (s.modLane n f).flt = s.flt := rfl
@[simp] theorem State.modLane_counters (n : Nat) (f : LaneRt → LaneRt) (s : State) : (s.modLane n f).counters = s.counters := rfl
@[simp] theorem State.modLane_out (n : Nat) (f : LaneRt → LaneRt) (s : State) : (s.modLane n f).out = s.out := rfl
@[simp] theorem State.modLane_free (n : Nat) (f : LaneRt → LaneRt) (s : State) : (s.modLane n f).free = s.free := rfl

/-! ### `setPll` -/

@[simp] theorem State.setPll_pending (q : Nat) (p : PllState) (s : State) : (s.setPll q p).pending = s.pending := rfl
@[simp] theorem State.setPll_dev (q : Nat) (p : PllState) (s : State) : (s.setPll q p).dev = s.dev := rfl
@[simp] theorem State.setPll_bk (q : Nat) (p : PllState) (s : State) : (s.setPll q p).bk = s.bk := rfl
@[simp] theorem State.setPll_ret (q : Nat) (p : PllState) (s : State) : (s.setPll q p).ret = s.ret := rfl
@[simp] theorem State.setPll_flash (q : Nat) (p : PllState) (s : State) : (s.setPll q p).flash = s.flash := rfl
@[simp] theorem State.setPll_fuses (q : Nat) (p : PllState) (s : State) : (s.setPll q p).fuses = s.fuses := rfl
@[simp] theorem State.setPll_boot (q : Nat) (p : PllState) (s : State) : (s.setPll q p).boot = s.boot := rfl
@[simp] theorem State.setPll_clk (q : Nat) (p : PllState) (s : State) : (s.setPll q p).clk = s.clk := rfl
@[simp] theorem State.setPll_pins (q : Nat) (p : PllState) (s : State) : (s.setPll q p).pins = s.pins := rfl
@[simp] theorem State.setPll_temp (q : Nat) (p : PllState) (s : State) : (s.setPll q p).temp = s.temp := rfl
@[simp] theorem State.setPll_rings (q : Nat) (p : PllState) (s : State) : (s.setPll q p).rings = s.rings := rfl
@[simp] theorem State.setPll_uart (q : Nat) (p : PllState) (s : State) : (s.setPll q p).uart = s.uart := rfl
@[simp] theorem State.setPll_mirror (q : Nat) (p : PllState) (s : State) : (s.setPll q p).mirror = s.mirror := rfl
@[simp] theorem State.setPll_log (q : Nat) (p : PllState) (s : State) : (s.setPll q p).log = s.log := rfl
@[simp] theorem State.setPll_generation (q : Nat) (p : PllState) (s : State) : (s.setPll q p).generation = s.generation := rfl
@[simp] theorem State.setPll_snap (q : Nat) (p : PllState) (s : State) : (s.setPll q p).snap = s.snap := rfl
@[simp] theorem State.setPll_auth (q : Nat) (p : PllState) (s : State) : (s.setPll q p).auth = s.auth := rfl
@[simp] theorem State.setPll_fw (q : Nat) (p : PllState) (s : State) : (s.setPll q p).fw = s.fw := rfl
@[simp] theorem State.setPll_bg (q : Nat) (p : PllState) (s : State) : (s.setPll q p).bg = s.bg := rfl
@[simp] theorem State.setPll_txns (q : Nat) (p : PllState) (s : State) : (s.setPll q p).txns = s.txns := rfl
@[simp] theorem State.setPll_splice (q : Nat) (p : PllState) (s : State) : (s.setPll q p).splice = s.splice := rfl
@[simp] theorem State.setPll_lay (q : Nat) (p : PllState) (s : State) : (s.setPll q p).lay = s.lay := rfl
@[simp] theorem State.setPll_time (q : Nat) (p : PllState) (s : State) : (s.setPll q p).time = s.time := rfl
@[simp] theorem State.setPll_raster (q : Nat) (p : PllState) (s : State) : (s.setPll q p).raster = s.raster := rfl
@[simp] theorem State.setPll_ing (q : Nat) (p : PllState) (s : State) : (s.setPll q p).ing = s.ing := rfl
@[simp] theorem State.setPll_dec (q : Nat) (p : PllState) (s : State) : (s.setPll q p).dec = s.dec := rfl
@[simp] theorem State.setPll_braid (q : Nat) (p : PllState) (s : State) : (s.setPll q p).braid = s.braid := rfl
@[simp] theorem State.setPll_stop (q : Nat) (p : PllState) (s : State) : (s.setPll q p).stop = s.stop := rfl
@[simp] theorem State.setPll_heads (q : Nat) (p : PllState) (s : State) : (s.setPll q p).heads = s.heads := rfl
@[simp] theorem State.setPll_pts (q : Nat) (p : PllState) (s : State) : (s.setPll q p).pts = s.pts := rfl
@[simp] theorem State.setPll_enc (q : Nat) (p : PllState) (s : State) : (s.setPll q p).enc = s.enc := rfl
@[simp] theorem State.setPll_desks (q : Nat) (p : PllState) (s : State) : (s.setPll q p).desks = s.desks := rfl
@[simp] theorem State.setPll_mem (q : Nat) (p : PllState) (s : State) : (s.setPll q p).mem = s.mem := rfl
@[simp] theorem State.setPll_dbg (q : Nat) (p : PllState) (s : State) : (s.setPll q p).dbg = s.dbg := rfl
@[simp] theorem State.setPll_flt (q : Nat) (p : PllState) (s : State) : (s.setPll q p).flt = s.flt := rfl
@[simp] theorem State.setPll_counters (q : Nat) (p : PllState) (s : State) : (s.setPll q p).counters = s.counters := rfl
@[simp] theorem State.setPll_out (q : Nat) (p : PllState) (s : State) : (s.setPll q p).out = s.out := rfl
@[simp] theorem State.setPll_free (q : Nat) (p : PllState) (s : State) : (s.setPll q p).free = s.free := rfl

/-! ### `modChan` -/

@[simp] theorem State.modChan_pending (c : Nat) (f : MemChannel → MemChannel) (s : State) : (s.modChan c f).pending = s.pending := rfl
@[simp] theorem State.modChan_dev (c : Nat) (f : MemChannel → MemChannel) (s : State) : (s.modChan c f).dev = s.dev := rfl
@[simp] theorem State.modChan_bk (c : Nat) (f : MemChannel → MemChannel) (s : State) : (s.modChan c f).bk = s.bk := rfl
@[simp] theorem State.modChan_ret (c : Nat) (f : MemChannel → MemChannel) (s : State) : (s.modChan c f).ret = s.ret := rfl
@[simp] theorem State.modChan_flash (c : Nat) (f : MemChannel → MemChannel) (s : State) : (s.modChan c f).flash = s.flash := rfl
@[simp] theorem State.modChan_fuses (c : Nat) (f : MemChannel → MemChannel) (s : State) : (s.modChan c f).fuses = s.fuses := rfl
@[simp] theorem State.modChan_boot (c : Nat) (f : MemChannel → MemChannel) (s : State) : (s.modChan c f).boot = s.boot := rfl
@[simp] theorem State.modChan_clk (c : Nat) (f : MemChannel → MemChannel) (s : State) : (s.modChan c f).clk = s.clk := rfl
@[simp] theorem State.modChan_pins (c : Nat) (f : MemChannel → MemChannel) (s : State) : (s.modChan c f).pins = s.pins := rfl
@[simp] theorem State.modChan_temp (c : Nat) (f : MemChannel → MemChannel) (s : State) : (s.modChan c f).temp = s.temp := rfl
@[simp] theorem State.modChan_rings (c : Nat) (f : MemChannel → MemChannel) (s : State) : (s.modChan c f).rings = s.rings := rfl
@[simp] theorem State.modChan_uart (c : Nat) (f : MemChannel → MemChannel) (s : State) : (s.modChan c f).uart = s.uart := rfl
@[simp] theorem State.modChan_mirror (c : Nat) (f : MemChannel → MemChannel) (s : State) : (s.modChan c f).mirror = s.mirror := rfl
@[simp] theorem State.modChan_log (c : Nat) (f : MemChannel → MemChannel) (s : State) : (s.modChan c f).log = s.log := rfl
@[simp] theorem State.modChan_generation (c : Nat) (f : MemChannel → MemChannel) (s : State) : (s.modChan c f).generation = s.generation := rfl
@[simp] theorem State.modChan_snap (c : Nat) (f : MemChannel → MemChannel) (s : State) : (s.modChan c f).snap = s.snap := rfl
@[simp] theorem State.modChan_auth (c : Nat) (f : MemChannel → MemChannel) (s : State) : (s.modChan c f).auth = s.auth := rfl
@[simp] theorem State.modChan_fw (c : Nat) (f : MemChannel → MemChannel) (s : State) : (s.modChan c f).fw = s.fw := rfl
@[simp] theorem State.modChan_bg (c : Nat) (f : MemChannel → MemChannel) (s : State) : (s.modChan c f).bg = s.bg := rfl
@[simp] theorem State.modChan_txns (c : Nat) (f : MemChannel → MemChannel) (s : State) : (s.modChan c f).txns = s.txns := rfl
@[simp] theorem State.modChan_splice (c : Nat) (f : MemChannel → MemChannel) (s : State) : (s.modChan c f).splice = s.splice := rfl
@[simp] theorem State.modChan_lay (c : Nat) (f : MemChannel → MemChannel) (s : State) : (s.modChan c f).lay = s.lay := rfl
@[simp] theorem State.modChan_time (c : Nat) (f : MemChannel → MemChannel) (s : State) : (s.modChan c f).time = s.time := rfl
@[simp] theorem State.modChan_raster (c : Nat) (f : MemChannel → MemChannel) (s : State) : (s.modChan c f).raster = s.raster := rfl
@[simp] theorem State.modChan_ing (c : Nat) (f : MemChannel → MemChannel) (s : State) : (s.modChan c f).ing = s.ing := rfl
@[simp] theorem State.modChan_dec (c : Nat) (f : MemChannel → MemChannel) (s : State) : (s.modChan c f).dec = s.dec := rfl
@[simp] theorem State.modChan_braid (c : Nat) (f : MemChannel → MemChannel) (s : State) : (s.modChan c f).braid = s.braid := rfl
@[simp] theorem State.modChan_stop (c : Nat) (f : MemChannel → MemChannel) (s : State) : (s.modChan c f).stop = s.stop := rfl
@[simp] theorem State.modChan_heads (c : Nat) (f : MemChannel → MemChannel) (s : State) : (s.modChan c f).heads = s.heads := rfl
@[simp] theorem State.modChan_pts (c : Nat) (f : MemChannel → MemChannel) (s : State) : (s.modChan c f).pts = s.pts := rfl
@[simp] theorem State.modChan_enc (c : Nat) (f : MemChannel → MemChannel) (s : State) : (s.modChan c f).enc = s.enc := rfl
@[simp] theorem State.modChan_desks (c : Nat) (f : MemChannel → MemChannel) (s : State) : (s.modChan c f).desks = s.desks := rfl
@[simp] theorem State.modChan_lanes (c : Nat) (f : MemChannel → MemChannel) (s : State) : (s.modChan c f).lanes = s.lanes := rfl
@[simp] theorem State.modChan_dbg (c : Nat) (f : MemChannel → MemChannel) (s : State) : (s.modChan c f).dbg = s.dbg := rfl
@[simp] theorem State.modChan_flt (c : Nat) (f : MemChannel → MemChannel) (s : State) : (s.modChan c f).flt = s.flt := rfl
@[simp] theorem State.modChan_counters (c : Nat) (f : MemChannel → MemChannel) (s : State) : (s.modChan c f).counters = s.counters := rfl
@[simp] theorem State.modChan_out (c : Nat) (f : MemChannel → MemChannel) (s : State) : (s.modChan c f).out = s.out := rfl
@[simp] theorem State.modChan_free (c : Nat) (f : MemChannel → MemChannel) (s : State) : (s.modChan c f).free = s.free := rfl

/-! ### `modDomain` -/

@[simp] theorem State.modDomain_pending (d : Nat) (f : Domain → Domain) (s : State) : (s.modDomain d f).pending = s.pending := rfl
@[simp] theorem State.modDomain_dev (d : Nat) (f : Domain → Domain) (s : State) : (s.modDomain d f).dev = s.dev := rfl
@[simp] theorem State.modDomain_bk (d : Nat) (f : Domain → Domain) (s : State) : (s.modDomain d f).bk = s.bk := rfl
@[simp] theorem State.modDomain_ret (d : Nat) (f : Domain → Domain) (s : State) : (s.modDomain d f).ret = s.ret := rfl
@[simp] theorem State.modDomain_flash (d : Nat) (f : Domain → Domain) (s : State) : (s.modDomain d f).flash = s.flash := rfl
@[simp] theorem State.modDomain_fuses (d : Nat) (f : Domain → Domain) (s : State) : (s.modDomain d f).fuses = s.fuses := rfl
@[simp] theorem State.modDomain_boot (d : Nat) (f : Domain → Domain) (s : State) : (s.modDomain d f).boot = s.boot := rfl
@[simp] theorem State.modDomain_clk (d : Nat) (f : Domain → Domain) (s : State) : (s.modDomain d f).clk = s.clk := rfl
@[simp] theorem State.modDomain_pins (d : Nat) (f : Domain → Domain) (s : State) : (s.modDomain d f).pins = s.pins := rfl
@[simp] theorem State.modDomain_temp (d : Nat) (f : Domain → Domain) (s : State) : (s.modDomain d f).temp = s.temp := rfl
@[simp] theorem State.modDomain_rings (d : Nat) (f : Domain → Domain) (s : State) : (s.modDomain d f).rings = s.rings := rfl
@[simp] theorem State.modDomain_uart (d : Nat) (f : Domain → Domain) (s : State) : (s.modDomain d f).uart = s.uart := rfl
@[simp] theorem State.modDomain_mirror (d : Nat) (f : Domain → Domain) (s : State) : (s.modDomain d f).mirror = s.mirror := rfl
@[simp] theorem State.modDomain_log (d : Nat) (f : Domain → Domain) (s : State) : (s.modDomain d f).log = s.log := rfl
@[simp] theorem State.modDomain_generation (d : Nat) (f : Domain → Domain) (s : State) : (s.modDomain d f).generation = s.generation := rfl
@[simp] theorem State.modDomain_snap (d : Nat) (f : Domain → Domain) (s : State) : (s.modDomain d f).snap = s.snap := rfl
@[simp] theorem State.modDomain_auth (d : Nat) (f : Domain → Domain) (s : State) : (s.modDomain d f).auth = s.auth := rfl
@[simp] theorem State.modDomain_fw (d : Nat) (f : Domain → Domain) (s : State) : (s.modDomain d f).fw = s.fw := rfl
@[simp] theorem State.modDomain_bg (d : Nat) (f : Domain → Domain) (s : State) : (s.modDomain d f).bg = s.bg := rfl
@[simp] theorem State.modDomain_txns (d : Nat) (f : Domain → Domain) (s : State) : (s.modDomain d f).txns = s.txns := rfl
@[simp] theorem State.modDomain_splice (d : Nat) (f : Domain → Domain) (s : State) : (s.modDomain d f).splice = s.splice := rfl
@[simp] theorem State.modDomain_lay (d : Nat) (f : Domain → Domain) (s : State) : (s.modDomain d f).lay = s.lay := rfl
@[simp] theorem State.modDomain_raster (d : Nat) (f : Domain → Domain) (s : State) : (s.modDomain d f).raster = s.raster := rfl
@[simp] theorem State.modDomain_ing (d : Nat) (f : Domain → Domain) (s : State) : (s.modDomain d f).ing = s.ing := rfl
@[simp] theorem State.modDomain_dec (d : Nat) (f : Domain → Domain) (s : State) : (s.modDomain d f).dec = s.dec := rfl
@[simp] theorem State.modDomain_braid (d : Nat) (f : Domain → Domain) (s : State) : (s.modDomain d f).braid = s.braid := rfl
@[simp] theorem State.modDomain_stop (d : Nat) (f : Domain → Domain) (s : State) : (s.modDomain d f).stop = s.stop := rfl
@[simp] theorem State.modDomain_heads (d : Nat) (f : Domain → Domain) (s : State) : (s.modDomain d f).heads = s.heads := rfl
@[simp] theorem State.modDomain_pts (d : Nat) (f : Domain → Domain) (s : State) : (s.modDomain d f).pts = s.pts := rfl
@[simp] theorem State.modDomain_enc (d : Nat) (f : Domain → Domain) (s : State) : (s.modDomain d f).enc = s.enc := rfl
@[simp] theorem State.modDomain_desks (d : Nat) (f : Domain → Domain) (s : State) : (s.modDomain d f).desks = s.desks := rfl
@[simp] theorem State.modDomain_mem (d : Nat) (f : Domain → Domain) (s : State) : (s.modDomain d f).mem = s.mem := rfl
@[simp] theorem State.modDomain_lanes (d : Nat) (f : Domain → Domain) (s : State) : (s.modDomain d f).lanes = s.lanes := rfl
@[simp] theorem State.modDomain_dbg (d : Nat) (f : Domain → Domain) (s : State) : (s.modDomain d f).dbg = s.dbg := rfl
@[simp] theorem State.modDomain_flt (d : Nat) (f : Domain → Domain) (s : State) : (s.modDomain d f).flt = s.flt := rfl
@[simp] theorem State.modDomain_counters (d : Nat) (f : Domain → Domain) (s : State) : (s.modDomain d f).counters = s.counters := rfl
@[simp] theorem State.modDomain_out (d : Nat) (f : Domain → Domain) (s : State) : (s.modDomain d f).out = s.out := rfl
@[simp] theorem State.modDomain_free (d : Nat) (f : Domain → Domain) (s : State) : (s.modDomain d f).free = s.free := rfl

/-! ### `modFaultSrc` -/

@[simp] theorem State.modFaultSrc_pending (n : Nat) (f : FaultSrc → FaultSrc) (s : State) : (s.modFaultSrc n f).pending = s.pending := rfl
@[simp] theorem State.modFaultSrc_dev (n : Nat) (f : FaultSrc → FaultSrc) (s : State) : (s.modFaultSrc n f).dev = s.dev := rfl
@[simp] theorem State.modFaultSrc_bk (n : Nat) (f : FaultSrc → FaultSrc) (s : State) : (s.modFaultSrc n f).bk = s.bk := rfl
@[simp] theorem State.modFaultSrc_ret (n : Nat) (f : FaultSrc → FaultSrc) (s : State) : (s.modFaultSrc n f).ret = s.ret := rfl
@[simp] theorem State.modFaultSrc_flash (n : Nat) (f : FaultSrc → FaultSrc) (s : State) : (s.modFaultSrc n f).flash = s.flash := rfl
@[simp] theorem State.modFaultSrc_fuses (n : Nat) (f : FaultSrc → FaultSrc) (s : State) : (s.modFaultSrc n f).fuses = s.fuses := rfl
@[simp] theorem State.modFaultSrc_boot (n : Nat) (f : FaultSrc → FaultSrc) (s : State) : (s.modFaultSrc n f).boot = s.boot := rfl
@[simp] theorem State.modFaultSrc_clk (n : Nat) (f : FaultSrc → FaultSrc) (s : State) : (s.modFaultSrc n f).clk = s.clk := rfl
@[simp] theorem State.modFaultSrc_pins (n : Nat) (f : FaultSrc → FaultSrc) (s : State) : (s.modFaultSrc n f).pins = s.pins := rfl
@[simp] theorem State.modFaultSrc_temp (n : Nat) (f : FaultSrc → FaultSrc) (s : State) : (s.modFaultSrc n f).temp = s.temp := rfl
@[simp] theorem State.modFaultSrc_rings (n : Nat) (f : FaultSrc → FaultSrc) (s : State) : (s.modFaultSrc n f).rings = s.rings := rfl
@[simp] theorem State.modFaultSrc_uart (n : Nat) (f : FaultSrc → FaultSrc) (s : State) : (s.modFaultSrc n f).uart = s.uart := rfl
@[simp] theorem State.modFaultSrc_mirror (n : Nat) (f : FaultSrc → FaultSrc) (s : State) : (s.modFaultSrc n f).mirror = s.mirror := rfl
@[simp] theorem State.modFaultSrc_log (n : Nat) (f : FaultSrc → FaultSrc) (s : State) : (s.modFaultSrc n f).log = s.log := rfl
@[simp] theorem State.modFaultSrc_generation (n : Nat) (f : FaultSrc → FaultSrc) (s : State) : (s.modFaultSrc n f).generation = s.generation := rfl
@[simp] theorem State.modFaultSrc_snap (n : Nat) (f : FaultSrc → FaultSrc) (s : State) : (s.modFaultSrc n f).snap = s.snap := rfl
@[simp] theorem State.modFaultSrc_auth (n : Nat) (f : FaultSrc → FaultSrc) (s : State) : (s.modFaultSrc n f).auth = s.auth := rfl
@[simp] theorem State.modFaultSrc_fw (n : Nat) (f : FaultSrc → FaultSrc) (s : State) : (s.modFaultSrc n f).fw = s.fw := rfl
@[simp] theorem State.modFaultSrc_bg (n : Nat) (f : FaultSrc → FaultSrc) (s : State) : (s.modFaultSrc n f).bg = s.bg := rfl
@[simp] theorem State.modFaultSrc_txns (n : Nat) (f : FaultSrc → FaultSrc) (s : State) : (s.modFaultSrc n f).txns = s.txns := rfl
@[simp] theorem State.modFaultSrc_splice (n : Nat) (f : FaultSrc → FaultSrc) (s : State) : (s.modFaultSrc n f).splice = s.splice := rfl
@[simp] theorem State.modFaultSrc_lay (n : Nat) (f : FaultSrc → FaultSrc) (s : State) : (s.modFaultSrc n f).lay = s.lay := rfl
@[simp] theorem State.modFaultSrc_time (n : Nat) (f : FaultSrc → FaultSrc) (s : State) : (s.modFaultSrc n f).time = s.time := rfl
@[simp] theorem State.modFaultSrc_raster (n : Nat) (f : FaultSrc → FaultSrc) (s : State) : (s.modFaultSrc n f).raster = s.raster := rfl
@[simp] theorem State.modFaultSrc_ing (n : Nat) (f : FaultSrc → FaultSrc) (s : State) : (s.modFaultSrc n f).ing = s.ing := rfl
@[simp] theorem State.modFaultSrc_dec (n : Nat) (f : FaultSrc → FaultSrc) (s : State) : (s.modFaultSrc n f).dec = s.dec := rfl
@[simp] theorem State.modFaultSrc_braid (n : Nat) (f : FaultSrc → FaultSrc) (s : State) : (s.modFaultSrc n f).braid = s.braid := rfl
@[simp] theorem State.modFaultSrc_stop (n : Nat) (f : FaultSrc → FaultSrc) (s : State) : (s.modFaultSrc n f).stop = s.stop := rfl
@[simp] theorem State.modFaultSrc_heads (n : Nat) (f : FaultSrc → FaultSrc) (s : State) : (s.modFaultSrc n f).heads = s.heads := rfl
@[simp] theorem State.modFaultSrc_pts (n : Nat) (f : FaultSrc → FaultSrc) (s : State) : (s.modFaultSrc n f).pts = s.pts := rfl
@[simp] theorem State.modFaultSrc_enc (n : Nat) (f : FaultSrc → FaultSrc) (s : State) : (s.modFaultSrc n f).enc = s.enc := rfl
@[simp] theorem State.modFaultSrc_desks (n : Nat) (f : FaultSrc → FaultSrc) (s : State) : (s.modFaultSrc n f).desks = s.desks := rfl
@[simp] theorem State.modFaultSrc_mem (n : Nat) (f : FaultSrc → FaultSrc) (s : State) : (s.modFaultSrc n f).mem = s.mem := rfl
@[simp] theorem State.modFaultSrc_lanes (n : Nat) (f : FaultSrc → FaultSrc) (s : State) : (s.modFaultSrc n f).lanes = s.lanes := rfl
@[simp] theorem State.modFaultSrc_dbg (n : Nat) (f : FaultSrc → FaultSrc) (s : State) : (s.modFaultSrc n f).dbg = s.dbg := rfl
@[simp] theorem State.modFaultSrc_counters (n : Nat) (f : FaultSrc → FaultSrc) (s : State) : (s.modFaultSrc n f).counters = s.counters := rfl
@[simp] theorem State.modFaultSrc_out (n : Nat) (f : FaultSrc → FaultSrc) (s : State) : (s.modFaultSrc n f).out = s.out := rfl
@[simp] theorem State.modFaultSrc_free (n : Nat) (f : FaultSrc → FaultSrc) (s : State) : (s.modFaultSrc n f).free = s.free := rfl

/-! ### `touchTxn` -/

@[simp] theorem State.touchTxn_pending (id : Nat) (s : State) : (s.touchTxn id).pending = s.pending := rfl
@[simp] theorem State.touchTxn_dev (id : Nat) (s : State) : (s.touchTxn id).dev = s.dev := rfl
@[simp] theorem State.touchTxn_bk (id : Nat) (s : State) : (s.touchTxn id).bk = s.bk := rfl
@[simp] theorem State.touchTxn_ret (id : Nat) (s : State) : (s.touchTxn id).ret = s.ret := rfl
@[simp] theorem State.touchTxn_flash (id : Nat) (s : State) : (s.touchTxn id).flash = s.flash := rfl
@[simp] theorem State.touchTxn_fuses (id : Nat) (s : State) : (s.touchTxn id).fuses = s.fuses := rfl
@[simp] theorem State.touchTxn_boot (id : Nat) (s : State) : (s.touchTxn id).boot = s.boot := rfl
@[simp] theorem State.touchTxn_clk (id : Nat) (s : State) : (s.touchTxn id).clk = s.clk := rfl
@[simp] theorem State.touchTxn_pins (id : Nat) (s : State) : (s.touchTxn id).pins = s.pins := rfl
@[simp] theorem State.touchTxn_temp (id : Nat) (s : State) : (s.touchTxn id).temp = s.temp := rfl
@[simp] theorem State.touchTxn_rings (id : Nat) (s : State) : (s.touchTxn id).rings = s.rings := rfl
@[simp] theorem State.touchTxn_uart (id : Nat) (s : State) : (s.touchTxn id).uart = s.uart := rfl
@[simp] theorem State.touchTxn_mirror (id : Nat) (s : State) : (s.touchTxn id).mirror = s.mirror := rfl
@[simp] theorem State.touchTxn_log (id : Nat) (s : State) : (s.touchTxn id).log = s.log := rfl
@[simp] theorem State.touchTxn_generation (id : Nat) (s : State) : (s.touchTxn id).generation = s.generation := rfl
@[simp] theorem State.touchTxn_snap (id : Nat) (s : State) : (s.touchTxn id).snap = s.snap := rfl
@[simp] theorem State.touchTxn_auth (id : Nat) (s : State) : (s.touchTxn id).auth = s.auth := rfl
@[simp] theorem State.touchTxn_fw (id : Nat) (s : State) : (s.touchTxn id).fw = s.fw := rfl
@[simp] theorem State.touchTxn_bg (id : Nat) (s : State) : (s.touchTxn id).bg = s.bg := rfl
@[simp] theorem State.touchTxn_splice (id : Nat) (s : State) : (s.touchTxn id).splice = s.splice := rfl
@[simp] theorem State.touchTxn_lay (id : Nat) (s : State) : (s.touchTxn id).lay = s.lay := rfl
@[simp] theorem State.touchTxn_time (id : Nat) (s : State) : (s.touchTxn id).time = s.time := rfl
@[simp] theorem State.touchTxn_raster (id : Nat) (s : State) : (s.touchTxn id).raster = s.raster := rfl
@[simp] theorem State.touchTxn_ing (id : Nat) (s : State) : (s.touchTxn id).ing = s.ing := rfl
@[simp] theorem State.touchTxn_dec (id : Nat) (s : State) : (s.touchTxn id).dec = s.dec := rfl
@[simp] theorem State.touchTxn_braid (id : Nat) (s : State) : (s.touchTxn id).braid = s.braid := rfl
@[simp] theorem State.touchTxn_stop (id : Nat) (s : State) : (s.touchTxn id).stop = s.stop := rfl
@[simp] theorem State.touchTxn_heads (id : Nat) (s : State) : (s.touchTxn id).heads = s.heads := rfl
@[simp] theorem State.touchTxn_pts (id : Nat) (s : State) : (s.touchTxn id).pts = s.pts := rfl
@[simp] theorem State.touchTxn_enc (id : Nat) (s : State) : (s.touchTxn id).enc = s.enc := rfl
@[simp] theorem State.touchTxn_desks (id : Nat) (s : State) : (s.touchTxn id).desks = s.desks := rfl
@[simp] theorem State.touchTxn_mem (id : Nat) (s : State) : (s.touchTxn id).mem = s.mem := rfl
@[simp] theorem State.touchTxn_lanes (id : Nat) (s : State) : (s.touchTxn id).lanes = s.lanes := rfl
@[simp] theorem State.touchTxn_dbg (id : Nat) (s : State) : (s.touchTxn id).dbg = s.dbg := rfl
@[simp] theorem State.touchTxn_flt (id : Nat) (s : State) : (s.touchTxn id).flt = s.flt := rfl
@[simp] theorem State.touchTxn_counters (id : Nat) (s : State) : (s.touchTxn id).counters = s.counters := rfl
@[simp] theorem State.touchTxn_out (id : Nat) (s : State) : (s.touchTxn id).out = s.out := rfl
@[simp] theorem State.touchTxn_free (id : Nat) (s : State) : (s.touchTxn id).free = s.free := rfl

/-! ### `closeTxn` -/

@[simp] theorem State.closeTxn_pending (id : Nat) (s : State) : (s.closeTxn id).pending = s.pending := rfl
@[simp] theorem State.closeTxn_dev (id : Nat) (s : State) : (s.closeTxn id).dev = s.dev := rfl
@[simp] theorem State.closeTxn_bk (id : Nat) (s : State) : (s.closeTxn id).bk = s.bk := rfl
@[simp] theorem State.closeTxn_ret (id : Nat) (s : State) : (s.closeTxn id).ret = s.ret := rfl
@[simp] theorem State.closeTxn_flash (id : Nat) (s : State) : (s.closeTxn id).flash = s.flash := rfl
@[simp] theorem State.closeTxn_fuses (id : Nat) (s : State) : (s.closeTxn id).fuses = s.fuses := rfl
@[simp] theorem State.closeTxn_boot (id : Nat) (s : State) : (s.closeTxn id).boot = s.boot := rfl
@[simp] theorem State.closeTxn_clk (id : Nat) (s : State) : (s.closeTxn id).clk = s.clk := rfl
@[simp] theorem State.closeTxn_pins (id : Nat) (s : State) : (s.closeTxn id).pins = s.pins := rfl
@[simp] theorem State.closeTxn_temp (id : Nat) (s : State) : (s.closeTxn id).temp = s.temp := rfl
@[simp] theorem State.closeTxn_rings (id : Nat) (s : State) : (s.closeTxn id).rings = s.rings := rfl
@[simp] theorem State.closeTxn_uart (id : Nat) (s : State) : (s.closeTxn id).uart = s.uart := rfl
@[simp] theorem State.closeTxn_mirror (id : Nat) (s : State) : (s.closeTxn id).mirror = s.mirror := rfl
@[simp] theorem State.closeTxn_log (id : Nat) (s : State) : (s.closeTxn id).log = s.log := rfl
@[simp] theorem State.closeTxn_generation (id : Nat) (s : State) : (s.closeTxn id).generation = s.generation := rfl
@[simp] theorem State.closeTxn_snap (id : Nat) (s : State) : (s.closeTxn id).snap = s.snap := rfl
@[simp] theorem State.closeTxn_auth (id : Nat) (s : State) : (s.closeTxn id).auth = s.auth := rfl
@[simp] theorem State.closeTxn_fw (id : Nat) (s : State) : (s.closeTxn id).fw = s.fw := rfl
@[simp] theorem State.closeTxn_bg (id : Nat) (s : State) : (s.closeTxn id).bg = s.bg := rfl
@[simp] theorem State.closeTxn_splice (id : Nat) (s : State) : (s.closeTxn id).splice = s.splice := rfl
@[simp] theorem State.closeTxn_lay (id : Nat) (s : State) : (s.closeTxn id).lay = s.lay := rfl
@[simp] theorem State.closeTxn_time (id : Nat) (s : State) : (s.closeTxn id).time = s.time := rfl
@[simp] theorem State.closeTxn_raster (id : Nat) (s : State) : (s.closeTxn id).raster = s.raster := rfl
@[simp] theorem State.closeTxn_ing (id : Nat) (s : State) : (s.closeTxn id).ing = s.ing := rfl
@[simp] theorem State.closeTxn_dec (id : Nat) (s : State) : (s.closeTxn id).dec = s.dec := rfl
@[simp] theorem State.closeTxn_braid (id : Nat) (s : State) : (s.closeTxn id).braid = s.braid := rfl
@[simp] theorem State.closeTxn_stop (id : Nat) (s : State) : (s.closeTxn id).stop = s.stop := rfl
@[simp] theorem State.closeTxn_heads (id : Nat) (s : State) : (s.closeTxn id).heads = s.heads := rfl
@[simp] theorem State.closeTxn_pts (id : Nat) (s : State) : (s.closeTxn id).pts = s.pts := rfl
@[simp] theorem State.closeTxn_enc (id : Nat) (s : State) : (s.closeTxn id).enc = s.enc := rfl
@[simp] theorem State.closeTxn_desks (id : Nat) (s : State) : (s.closeTxn id).desks = s.desks := rfl
@[simp] theorem State.closeTxn_mem (id : Nat) (s : State) : (s.closeTxn id).mem = s.mem := rfl
@[simp] theorem State.closeTxn_lanes (id : Nat) (s : State) : (s.closeTxn id).lanes = s.lanes := rfl
@[simp] theorem State.closeTxn_dbg (id : Nat) (s : State) : (s.closeTxn id).dbg = s.dbg := rfl
@[simp] theorem State.closeTxn_flt (id : Nat) (s : State) : (s.closeTxn id).flt = s.flt := rfl
@[simp] theorem State.closeTxn_counters (id : Nat) (s : State) : (s.closeTxn id).counters = s.counters := rfl
@[simp] theorem State.closeTxn_out (id : Nat) (s : State) : (s.closeTxn id).out = s.out := rfl
@[simp] theorem State.closeTxn_free (id : Nat) (s : State) : (s.closeTxn id).free = s.free := rfl

end Sys2Proof.Machine
end

