-- ==== Sys2Proof/Tests/Slice0.lean ====
section
/-! SUPPORT. Tests: the refusals of the operand checks, single steps against worked examples of the spec, and for every
statement with hypotheses a concrete case that meets them. -/

namespace Sys2Proof.Tests

open Sys2Proof Sys2Proof.Machine

/-! ### States that the tests start from -/

/-- A device that runs: its start is complete, and Cleat serves commands. -/
def up : State :=
  { State.reset with
    dev := .running
    boot := { step := 11, afterPor := false, cleatUp := true, palette := factoryPalette }
    fuses := { State.reset.fuses with dieId := 5 }
    raster := { run := true, started := true, frame := 100, line := 4095 }
    lanes := { pll := [(0, .locked), (1, .locked)] }
    mem := { trained := true } }

/-- The same device before any set enables a head. -/
def conf : State := { up with dev := .configuring }

/-- A command header of `len` parameter bytes on the service UART. -/
def hdr (len : Nat) (txn : Nat := 0) : CmdHdr := { ch := .uart, len := len, txn := txn }

/-- `up` with transaction 1 open. -/
def txn1 : State := { up with txns := { next := 2, open_ := [{ id := 1, channel := .uart }] } }

/-- `up` with a command ring 0 of 64 slots and a completion ring of 64 slots. -/
def ring0 : State := { up with rings := [(0, { enable := true })] }

/-- The state in which a command at once after `s` executes. -/
def now (s : State) (c : CmdHdr) : State := (s.advance 0).touchTxn c.txn

/-- A command at once after `s` runs when it passes the checks. -/
theorem runs_now {s : State} {k : CmdSpec} {c : CmdHdr} {bad : Option Nat} (h : (s.advance 0).admission k c bad = .run) :
    Runs k c bad 0 s (now s c) := ⟨h, rfl⟩

/-! ### Witnesses: the queue, soundness, commands and replies -/

theorem witness_StepTakesFront : up.pending = [] := by decide

theorem witness_EveryRowAnswers : ∃ t, exec (.idcode 3) up = .next t := ⟨_, rfl⟩

theorem witness_SoundKept : State.reset.Sound := by
  refine ⟨by decide, (fun t h => nomatch h), by decide, by decide, by decide, by decide, by decide, by decide, (fun t h => nomatch h)⟩

theorem witness_WallPosition : ∃ t, exec (.idcode 0) up = .next t ∧ t.raster.run = true := ⟨_, rfl, rfl⟩

theorem witness_FusesLast : ∃ t, step { up with pending := [.idcode 0] } = .next t := ⟨_, rfl⟩

theorem witness_SafeHolds : up.Settled ∧ ∃ t, step up = .next t := ⟨by refine ⟨?_, ?_, ?_⟩ <;> decide, _, rfl⟩

theorem witness_ContentOnlyLive : Tab.wf {} up.heads = true ∧ ∃ t, exec (.bandRowEmit 0 0 0 {}) up = .next t := ⟨by decide, _, rfl⟩

theorem witness_AdmissionOrder :
    up.cleatRuns = true ∧ up.channelOpen .uart = true ∧ up.channelHeld .uart = false ∧ up.validating 0 = false := by decide

/-- A command waits while Cleat is down, and one whose PKT_CRC fails is refused. -/
theorem witness_RefusalOnlyReplies :
    (Instr.identify 0 (hdr 0)).header = some (hdr 0) ∧ (Instr.identify 0 (hdr 0)).spec = some specIdentify ∧
    (State.reset.advance 0).admission specIdentify (hdr 0) none = .wait ∧
    (up.advance 0).admission specIdentify { hdr 0 with crcOk := false, crcCalc := 7 } none = .refuse .eCrc 7 := by decide

/-- The completion ring has room up to the last slot, and none beyond it; a reply of 24 bytes takes one slot. -/
theorem witness_ReplyEffect :
    ((hdr 0).flags.testBit 1 = false) ∧ ({ hdr 0 with flags := 2 } : CmdHdr).flags.testBit 1 = true ∧
    (up.ring 0).runs = false ∧
    (let s : State := { up with rings := [(0, { enable := true, wbProducer := 63 })] }
     (s.ring 0).runs = true ∧ (s.ring 0).held = [] ∧ (s.ring 0).unread + packetSlots (24 + 0) = (s.ring 0).cplSlots) ∧
    (let s : State := { up with rings := [(0, { enable := true, wbProducer := 64 })] }
     (s.ring 0).runs = true ∧ (s.ring 0).cplSlots < (s.ring 0).unread + packetSlots (24 + 0)) := by decide

theorem witness_EventEffect :
    (let s : State := { up with rings := [(16, { enable := true, wbProducer := 63 })] }
     (s.ring 16).runs = true ∧ (s.ring 16).unread < (s.ring 16).slots) ∧
    (let s : State := { up with rings := [(16, { enable := true, wbProducer := 64 })] }
     (s.ring 16).slots ≤ (s.ring 16).unread) ∧
    (up.ring 16).runs = false ∧ up.log.lost = 0 := by decide

theorem witness_CounterSaturates : State.reset.Sound ∧ (0x17, 7, 0) ≠ ((0x17, 7, 1) : Nat × Nat × Nat) := ⟨witness_SoundKept, by decide⟩

/-! ### Witnesses: device, firmware and memory commands; transactions -/

/-- RECOVERY, the only state in which CLEAR_START_COUNT is legal. -/
def recov : State := { State.reset with dev := .recovery, boot := { recovery := .full } }

theorem witness_DeviceCommands :
    Runs specIdentify (hdr 0) none 0 up (now up (hdr 0)) ∧
    Runs specSummary (hdr 0) none 0 up (now up (hdr 0)) ∧ (now up (hdr 0)).raster.started = true ∧
    Runs specSummary (hdr 0) none 0 recov (now recov (hdr 0)) ∧ (now recov (hdr 0)).raster.started = false ∧
    Runs specReadLog (hdr 12) none 0 up (now up (hdr 12)) ∧
    Runs specClearStartCount (hdr 0) none 0 recov (now recov (hdr 0)) ∧ (now recov (hdr 0)).flash.fitted = true ∧
    Runs specClearStartCount (hdr 0) none 0 { recov with flash := { fitted := false } } (now { recov with flash := { fitted := false } } (hdr 0)) :=
  ⟨runs_now (by decide), runs_now (by decide), by decide, runs_now (by decide), by decide, runs_now (by decide), runs_now (by decide), by decide,
   runs_now (by decide)⟩

/-- A RESET on ring 0, whose completion ring has room, or is full. -/
def ringHdr : CmdHdr := { hdr 0 with ch := .ring 0 }
def ringFull : State := { up with rings := [(0, { enable := true, wbProducer := 64 })] }

theorem witness_ResetCommand :
    Runs specReset (hdr 0) none 0 up (now up (hdr 0)) ∧ Runs specReset ringHdr none 0 ring0 (now ring0 ringHdr) ∧
    Runs specReset ringHdr none 0 ringFull (now ringFull ringHdr) ∧ (((now ring0 ringHdr).ok specReset ringHdr .empty 0).ring 0).held = [] ∧
    (((now ringFull ringHdr).ok specReset ringHdr .empty 0).ring 0).held ≠ [] :=
  ⟨runs_now (by decide), runs_now (by decide), runs_now (by decide), by decide +kernel, by decide +kernel⟩

/-- `conf` with a firmware load of eight bytes under way, four of them received. -/
def load : State := { conf with fw := { open_ := true, slot := 1, size := 8, received := 4, data := [1, 2, 3, 4] } }

theorem witness_FirmwareLoad :
    Runs specFwBegin (hdr 8) none 0 conf (now conf (hdr 8)) ∧ (now conf (hdr 8)).fw.open_ = false ∧ 8388608 % 4 = 0 ∧
    Runs specFwBegin (hdr 8) none 0 load (now load (hdr 8)) ∧ (now load (hdr 8)).fw.open_ = true ∧
    Runs (specFwData 4) (hdr 8) none 0 conf (now conf (hdr 8)) ∧
    Runs (specFwData 4) (hdr 8) none 0 load (now load (hdr 8)) ∧ (now load (hdr 8)).fw.received + 4 ≤ (now load (hdr 8)).fw.size ∧
    Runs specFwEnd (hdr 0) none 0 conf (now conf (hdr 0)) ∧
    Runs specFwEnd (hdr 0) none 0 load (now load (hdr 0)) ∧ (now load (hdr 0)).fw.received ≠ (now load (hdr 0)).fw.size ∧
    (let l : State := { load with fw := { load.fw with received := 8 } }
     Runs specFwEnd (hdr 0) none 0 l (now l (hdr 0)) ∧ (now l (hdr 0)).fw.slot ≠ 2 ∧ (now l (hdr 0)).fw.received = (now l (hdr 0)).fw.size) ∧
    conf.procDown 0 = false ∧ conf.procDown 1 = false ∧ ({ conf with bg := { fwData := [hdr 8] } } : State).bg.fwData = hdr 8 :: [] :=
  ⟨runs_now (by decide), by decide, by decide, runs_now (by decide), by decide, runs_now (by decide), runs_now (by decide), by decide,
   runs_now (by decide), runs_now (by decide), by decide, ⟨runs_now (by decide), by decide, by decide⟩, by decide, by decide, rfl⟩

/-- `conf` with host surface 0 defined in the set in force. -/
def conf0 : State := { conf with lay := { sources := [(0, { kind := 4 })] } }

/-- `conf` with VDD_FUSE present. -/
def fuseOn : State := { conf with pins := { vddFuse := true } }

/-- A palette that the rules of R183 allow: the factory's. -/
theorem witness_MemoryAndPalette :
    Runs specMemConfig (hdr 4) none 0 conf (now conf (hdr 4)) ∧ (now conf (hdr 4)).definesNow = false ∧
    Runs specMemConfig (hdr 4) none 0 conf0 (now conf0 (hdr 4)) ∧ (now conf0 (hdr 4)).definesNow = true ∧
    (now conf (hdr 4)).fuses.fieldLocked = false ∧
    ({ conf with bg := { memConfig := some (hdr 4, 8, 0, 1) } } : State).bg.memConfig = some (hdr 4, 8, 0, 1) ∧
    Runs specPalette (hdr 44) (paletteBad factoryPalette) 0 conf (now conf (hdr 44)) ∧ (now conf (hdr 44)).pins.vddFuse = false ∧
    (let b : State := { conf with fuses := { conf.fuses with paletteProgrammed := true } }
     Runs specPalette (hdr 44) (paletteBad factoryPalette) 0 b (now b (hdr 44)) ∧ (now b (hdr 44)).fuses.paletteProgrammed = true) ∧
    Runs specPalette (hdr 44) (paletteBad factoryPalette) 0 fuseOn (now fuseOn (hdr 44)) ∧ (now fuseOn (hdr 44)).pins.vddFuse = true ∧
    (now fuseOn (hdr 44)).bg.palette = none ∧ fuseOn.fuses.paletteBad = false :=
  ⟨runs_now (by decide), by decide, runs_now (by decide), by decide, by decide, rfl, runs_now (by decide), by decide,
   ⟨runs_now (by decide), by decide⟩, runs_now (by decide), by decide, by decide, by decide⟩

/-- `up` with transactions 1 to 8 open. -/
def txn8 : State := { up with txns := { next := 9, open_ := (List.range 8).map (fun i => { id := i + 1, channel := .uart }) } }

/-- `txn1` at wall line 0 once the idle limit of 60 s has passed. -/
def txnOld : State := { txn1 with raster := { txn1.raster with line := 0 }, time := { upTicks := 30000000000 } }

theorem witness_TransactionCommands :
    Runs specTxnOpen (hdr 0) none 0 up (now up (hdr 0)) ∧ (now up (hdr 0)).txns.open_.length < 8 ∧
    Runs specTxnOpen (hdr 0) none 0 txn8 (now txn8 (hdr 0)) ∧ 8 ≤ (now txn8 (hdr 0)).txns.open_.length ∧
    Runs specTxnCommit (hdr 8 1) none 0 txn1 (now txn1 (hdr 8 1)) ∧
    Runs specTxnAbort (hdr 0 1) none 0 txn1 (now txn1 (hdr 0 1)) ∧
    (∃ t, txnOld.txnOf 1 = some t ∧ t.id = 1 ∧ txnOld.lay.dev.txnIdleS * 500000000 ≤ txnOld.time.upTicks + 0 - t.lastTick) ∧
    txnOld.raster.run = true ∧ txnOld.raster.line = 0 ∧
    txnOld.cleatRuns = true ∧ txnOld.validating 1 = false :=
  ⟨runs_now (by decide), by decide, runs_now (by decide), by decide, runs_now (by decide), runs_now (by decide), ⟨_, rfl, rfl, by decide⟩,
   by decide, by decide, by decide, by decide⟩

/-- `txn1` with a commit of transaction 1 under validation. -/
def validating1 : State := { txn1 with bg := { commit := [(hdr 8 1, 0)] } }

/-- A commit for frame 1, which has passed, is refused; one for the earliest frame is accepted. -/
theorem witness_CommitValidation :
    validating1.procDown 0 = false ∧ validating1.procDown 1 = false ∧ validating1.bg.commit = (hdr 8 1, 0) :: [] ∧
    validating1.txnOf 1 = some { id := 1, channel := .uart } ∧
    ({ validating1.advance 0 with bg := {} } : State).validate { id := 1, channel := .uart } 1 = .refuse .eLate 102 0 ∧
    ({ validating1.advance 0 with bg := {} } : State).validate { id := 1, channel := .uart } 0 = .accept 102 0 :=
  ⟨by decide, by decide, rfl, by decide, by decide +kernel, by decide +kernel⟩

/-- `txn1` with an access entry that the set in force locks. -/
def locked1 : State := { txn1 with lay := { access := [(0, { lock := true })] } }

/-- `txn1` with 4,096 changes staged. -/
def full1 : State := { txn1 with txns := { next := 2, open_ := [{ id := 1, channel := .uart, staged := List.replicate 4096 { obj := .mac 0 {}, gen := 0 } }] } }

/-- MAC 7, the last, with an address of its own. -/
def mac7 : MacCfg := { addr := 2 }

theorem witness_StagingCommands :
    Runs (specStage (.mac 7 mac7)) (hdr (stagedLen (.mac 7 mac7)) 1) (checkMac 7 mac7) 0 txn1 (now txn1 (hdr (stagedLen (.mac 7 mac7)) 1)) ∧
    lockedNow (now txn1 (hdr 0 1)).lay (.mac 7 mac7) = false ∧
    lockedNow locked1.lay (.access 0 {}) = true ∧
    (∃ t ∈ full1.txns.open_, t.id = 1 ∧ 4096 ≤ t.staged.length ∧ ∀ y ∈ t.staged, stagedKey y.obj ≠ stagedKey (.mac 7 mac7)) :=
  ⟨runs_now (by decide), by decide, by decide, _, List.mem_singleton.2 rfl, rfl,
   Nat.le_of_eq List.length_replicate.symm, fun y hy => by rw [(List.mem_replicate.1 hy).2]; decide⟩

theorem witness_ObjectReadCommand :
    Runs specObjectRead (hdr 12) none 0 up (now up (hdr 12)) ∧ objIdOk 0x213 63 = true ∧ (now up (hdr 12)).runFits .uart 0x213 1 = 1 ∧
    objIdOk 0x209 (0 + 2 - 1) = true ∧ (now up (hdr 12)).runFits .uart 0x209 2 = 2 ∧
    (∃ t, (now txn1 (hdr 12 1)).txnOf 1 = some t ∧ stagedAs t 0x203 7 1 = none) ∧
    stagedAs { id := 1, channel := .uart, staged := [{ obj := .mac 7 {}, gen := 3 }] } 0x203 7 1 = some (3, .mac 7 {}) :=
  ⟨runs_now (by decide), by decide, by decide, by decide, by decide, ⟨_, rfl, by decide⟩, by decide⟩


/-! ### Witnesses: queries, time, faults, debug, surfaces, checks -/

/-- `up` with host surface 983 defined, one pixel of XRGB. -/
def surf : State := { up with lay := { sources := [(983, { kind := 4, surfFormat := 6 })] } }

theorem witness_QueryCommands :
    Runs specSourceQuery (hdr 4) none 0 up (now up (hdr 4)) ∧ srcDefined (now up (hdr 4)).lay 983 = false ∧ srcDefined (now up (hdr 4)).lay 1023 = true ∧
    Runs specEncQuery (hdr 4) none 0 up (now up (hdr 4)) ∧ Runs specPointQuery (hdr 8) none 0 up (now up (hdr 8)) ∧ 8388607 + 1 ≤ 8388608 ∧
    Runs specHeadQuery (hdr 12) none 0 up (now up (hdr 12)) ∧ Runs specFaultQuery (hdr 4) none 0 up (now up (hdr 4)) :=
  ⟨runs_now (by decide), by decide, by decide, runs_now (by decide), runs_now (by decide), by decide, runs_now (by decide), runs_now (by decide)⟩

theorem witness_CounterReadCommand :
    Runs specCounterRead (hdr 4) none 0 up (now up (hdr 4)) ∧ up.Sound ∧ counterBlock 0x14 = some (5, 8, 95) ∧ (0x14, 9) ≠ ((0x14, 8) : Nat × Nat) :=
  ⟨runs_now (by decide), ⟨by decide, (fun _ h => nomatch h), by decide, by decide, by decide, by decide, by decide, by decide, (fun _ h => nomatch h)⟩,
   by decide, by decide⟩

/-- `up` with domain 1 LOCKED and both counters at one second; `far` has 2 s between them. -/
def clk : State := { up with time := { td0 := { units := 1000000000 * 4294967296 }, td1 := { units := 1000000000 * 4294967296, state := .locked } } }
def far : State := { up with time := { td1 := { units := 2000000000 * 4294967296, state := .locked } } }

theorem witness_TimeCommands :
    Runs specTimeStatus (hdr 8) none 0 clk (now clk (hdr 8)) ∧
    Runs specTimeAdjust (hdr 24) none 0 clk (now clk (hdr 24)) ∧ (now clk (hdr 24)).time.active = 0 ∧ (now clk (hdr 24)).headsEnabled = false ∧
    0 ≤ (((now clk (hdr 24)).time.domain 1).units : Int) + (-1000000000) * 4294967296 ∧
    (now clk (hdr 24)).dev ≠ .configuring ∧
    ((now clk (hdr 24)).time.resid + 1000000000 * 4294967296).natAbs ≤ 1000000000 * 4294967296 ∧
    1000000000 * 4294967296 < ((now clk (hdr 24)).time.resid + 1000000001 * 4294967296).natAbs ∧
    Runs specTimeSwitch (hdr 4) none 0 clk (now clk (hdr 4)) ∧ ((now clk (hdr 4)).time.domain 1).state ≠ .absent ∧
    ((now clk (hdr 4)).time.resid + ((now clk (hdr 4)).time.domain 1).units - ((now clk (hdr 4)).time.domain 0).units).natAbs ≤ 1000000000 * 4294967296 ∧
    Runs specTimeSwitch (hdr 4) none 0 far (now far (hdr 4)) ∧
    1000000000 * 4294967296 < ((now far (hdr 4)).time.resid + ((now far (hdr 4)).time.domain 1).units - ((now far (hdr 4)).time.domain 0).units).natAbs :=
  ⟨runs_now (by decide), runs_now (by decide), by decide, by decide, by decide, by decide, by decide, by decide, runs_now (by decide), by decide,
   by decide, runs_now (by decide), by decide⟩

/-- `up` with head unit 31 fenced, and the same with the fence until reset, or with its restore test under way. -/
def fenced31 : State := { up with flt := { fenced := [31] } }
def fencedHard : State := { up with flt := { fenced := [31], untilReset := [31] } }
def testing31 : State := { up with flt := { fenced := [31], tests := [(31, true)] } }

theorem witness_FaultCommands :
    Runs specFaultReact (hdr 4) (firstBad [(0, inRange 0 255 205), (2, decide (1 < 128) && maskOk 205 1)]) 0 up (now up (hdr 4)) ∧
    (0 &&& (srcInfo 63).fixed ≠ (srcInfo 63).fixed) ∧
    Runs specFaultRearm (hdr 4) none 0 up (now up (hdr 4)) ∧ 0x87 &&& 0x87 = 0x87 ∧
    Runs specUnitRestore (hdr 4) none 0 up (now up (hdr 4)) ∧ (now up (hdr 4)).isFenced 31 = false ∧
    Runs specUnitRestore (hdr 4) none 0 fencedHard (now fencedHard (hdr 4)) ∧ (now fencedHard (hdr 4)).isFenced 31 = true ∧
    hasNat 31 (now fencedHard (hdr 4)).flt.untilReset = true ∧
    Runs specUnitRestore (hdr 4) none 0 fenced31 (now fenced31 (hdr 4)) ∧ (now fenced31 (hdr 4)).isFenced 31 = true ∧
    hasNat 31 (now fenced31 (hdr 4)).flt.untilReset = false ∧
    testing31.flt.tests.find? (fun x => decide (x.1 = 31)) = some (31, true) ∧ hasNat 31 testing31.flt.untilReset = false :=
  ⟨runs_now (by decide), by decide, runs_now (by decide), by decide, runs_now (by decide), by decide, runs_now (by decide), by decide, by decide,
   runs_now (by decide), by decide, by decide, by decide, by decide⟩

/-- A field-locked part; with a challenge outstanding; and locked out. -/
def lockedPart : State := { up with fuses := { up.fuses with fieldLocked := true } }
def challenged : State := { lockedPart with auth := { challenge := some 1, failures := 2 } }
def lockedOut : State := { lockedPart with auth := { lockout := true } }

theorem witness_DebugUnlocking :
    Runs specDebugChallenge (hdr 0) none 0 up (now up (hdr 0)) ∧
    Runs specDebugUnlock (hdr 64) none 0 up (now up (hdr 64)) ∧ (now up (hdr 64)).fuses.fieldLocked = false ∧
    Runs specDebugUnlock (hdr 64) none 0 lockedOut (now lockedOut (hdr 64)) ∧ (now lockedOut (hdr 64)).auth.lockout = true ∧
    Runs specDebugUnlock (hdr 64) none 0 challenged (now challenged (hdr 64)) ∧ (now challenged (hdr 64)).fuses.fieldLocked = true ∧
    (now challenged (hdr 64)).auth.lockout = false ∧ (now challenged (hdr 64)).auth.challenge.isSome = true ∧
    (now challenged (hdr 64)).auth.failures = 2 :=
  ⟨runs_now (by decide), runs_now (by decide), by decide, runs_now (by decide), by decide, runs_now (by decide), by decide, by decide, by decide, by decide⟩

/-- `surf` with a copy into buffer 0 under way. -/
def copying : State := { surf with
  ing := { sources := [(983, { bufs := [(0, { format := 6, width := 1, height := 1 })] })]
           copies := [{ hdr := hdr 24, source := 983, buf := 0, capture := 0, captSrc := 1, arrival := 0 }] } }

theorem witness_SurfaceCommands :
    Runs specSurfacePublish (hdr 24) none 0 surf (now surf (hdr 24)) ∧ ((now surf (hdr 24)).lay.source 983).kind = 4 ∧
    4 * ((now surf (hdr 24)).lay.source 983).surfWidth ≤ 4 ∧ (now surf (hdr 24)).freeSrcBuf 983 = some 0 ∧
    (now surf (hdr 24)).ing.copies = [] ∧ ((now surf (hdr 24)).srcRt 983).seals = [] ∧
    copying.procDown 0 = false ∧ copying.procDown 1 = false ∧ (copying.ing.copies.find? (fun x => decide (x.source = 983))).isSome = true ∧
    copying.writersRun = true ∧ linesOk 6 1 1 [[0#8, 0#8, 0#8, 0#8]] = true ∧
    ((copying.srcRt 983).bufs.get {} 0).format = 6 ∧ ((copying.srcRt 983).bufs.get {} 0).width = 1 :=
  ⟨runs_now (by decide), by decide, by decide, by decide, by decide, by decide, by decide, by decide, by decide, by decide, by decide, by decide, by decide⟩

/-- `up` with quad 11 in a network mode, and with a user on lane 95 of a field-locked part. -/
def quad23 : State := { up with lay := { quads := [(23, { mode := 1 })] } }
def laneUser : State := { lockedPart with lay := { quads := [(23, { mode := 1 })], macs := [(7, { lane := 95, enable := true, addr := 2 })] } }

/-- `up` with Whipping unit 55 checking four zero bytes. -/
def whip55 (expect : Nat) : State := { up with
  lay := { access := [(0, { enable := true, read := true, base := 0, limit := 4096, masters := 2 ^ 38 })] }
  stop := { whips := [(55, { cfg := { mode := 1, addr := 4092, len := 4, expect := expect, period := 1 }, checking := [none] })] } }

theorem witness_CheckCommands :
    Runs specWhipSet (hdr 36) (checkWhip { unit := 55, mode := 1, len := 4, period := 1 }) 0 up (now up (hdr 36)) ∧
    Runs specWhipSet (hdr 36) (checkWhip { unit := 55, query := 1 }) 0 up (now up (hdr 36)) ∧
    Runs specProbeSet (hdr 20) (checkProbe (up.advance 0) { group := 7, probe := 3, head := 31 }) 0 up (now up (hdr 20)) ∧
    Runs specLaneTest (hdr 8) (checkLaneTest 95 0 0) 0 up (now up (hdr 8)) ∧ (now up (hdr 8)).laneBusy 95 0 = true ∧
    Runs specLaneTest (hdr 8) (checkLaneTest 95 1 1) 0 quad23 (now quad23 (hdr 8)) ∧ (now quad23 (hdr 8)).laneBusy 95 1 = false ∧
    (now quad23 (hdr 8)).laneLocked 95 1 = false ∧
    Runs specLaneTest (hdr 8) (checkLaneTest 95 1 256) 0 laneUser (now laneUser (hdr 8)) ∧ (now laneUser (hdr 8)).laneBusy 95 256 = false ∧
    (now laneUser (hdr 8)).laneLocked 95 256 = true ∧
    ((whip55 0).whip 55).checking = [none] ∧ (whip55 0).dev ≠ .safe ∧
    (State.whipRead (chunksOf (((whip55 0).advance 0).whipRegion ((whip55 0).whip 55) none).1 (((whip55 0).advance 0).whipRegion ((whip55 0).whip 55) none).2)
      ((whip55 0).advance 0)).1 = true :=
  ⟨runs_now (by decide), runs_now (by decide), runs_now (by decide), runs_now (by decide), by decide, runs_now (by decide), by decide, by decide,
   runs_now (by decide), by decide, by decide, by decide, by decide, by decide⟩

/-- The region against the value that it has, and against the next. -/
theorem witness_CheckCommands_whip :
    (∃ v, ((whip55 v).advance 0).whipValue ((whip55 v).whip 55) none = whipExpect ((whip55 v).whip 55) none) ∧
    (∃ v, ((whip55 v).advance 0).whipValue ((whip55 v).whip 55) none ≠ whipExpect ((whip55 v).whip 55) none) := by
  obtain ⟨x, hx⟩ : ∃ x, ((whip55 0).advance 0).whipValue ((whip55 0).whip 55) none = x := ⟨_, rfl⟩
  have h : ∀ v, ((whip55 v).advance 0).whipValue ((whip55 v).whip 55) none = x := fun v => hx
  refine ⟨⟨x.toNat, (h _).trans ?_⟩, ⟨(x + 1).toNat, fun e => ?_⟩⟩
  · show x = BitVec.ofNat 32 x.toNat
    simp
  · have e : x = BitVec.ofNat 32 (x + 1).toNat := (h _).symm.trans e
    rw [BitVec.ofNat_toNat, BitVec.setWidth_eq] at e
    bv_omega

/-! ### Witnesses: rings and the service UART -/

theorem witness_RingDoorbells :
    (up.ring 0).runs = false ∧ (ring0.ring 0).runs = true ∧
    (ring0.ring 0).slots < idxDiff 65 (ring0.ring 0).wbConsumer ∧
    idxDiff 64 (ring0.ring 0).wbConsumer ≤ (ring0.ring 0).slots ∧
    idxDiff (ring0.ring 0).producer (ring0.ring 0).wbConsumer ≤ idxDiff 64 (ring0.ring 0).wbConsumer ∧
    idxDiff (ring0.ring 0).wbProducer (ring0.ring 0).released < idxDiff 1 (ring0.ring 0).released ∧
    idxDiff 0 (ring0.ring 0).released ≤ idxDiff (ring0.ring 0).wbProducer (ring0.ring 0).released ∧ (ring0.ring 0).held = [] ∧
    (ring0.bg.resetDue : Option Nat) ≠ some 0 ∧ (∀ ch ∈ channels, up.waitingOn ch = []) ∧ ({ up with rings := [(18, { enable := true })] } : State).ring 18 = { enable := true } ∧
    ({ up with rings := [(16, { enable := true })] } : State).log.lost = 0 := by decide

theorem witness_RingControl :
    up.barUp = true ∧ (up.ring 18).enable = false ∧ (up.ring 18).ringErr = false ∧ (ring0.ring 0).enable = true ∧
    (({ up with rings := [(0, { ringErr := true, errCause := 2 })] } : State).ring 0).ringErr = true ∧
    (({ up with rings := [(16, { enable := true, modHeld := true })] } : State).ring 16).modHeld = true ∧ (up.ring 16).modHeld = false := by decide

theorem witness_UartAndStray :
    unescape [0x7D#8] = none ∧ (unescape (List.replicate 15 0#8)).map (fun l => l.length) = some 15 ∧
    (unescape (List.replicate 16 0#8)).map (fun l => l.length) = some 16 ∧ State.reset.boot.cleatUp = false ∧ State.reset.dev ≠ .recovery ∧
    up.boot.cleatUp = true ∧ barMapped 0x3FFFC = false ∧ up.barUp = true ∧ barMapped 0x10000 = true := by decide

/-! ### Witnesses: the raster, snapshots and time -/

theorem witness_WallLineTimes : wallRateHz 0 = (24000, 1001) ∧ 4096 * 0 + 4095 < 4096 * 1 + 0 := by decide

theorem witness_TimeCounters : 8 ≤ up.boot.step ∧ State.reset.boot.step < 8 ∧ 0 ≤ up.time.resid ∧ up.time.resid ≤ 0 := by decide

/-- `up` at a wall time at which the next line is due, at the last line of a frame and before it. -/
def due : State := { up with raster := { run := true, started := true, frame := 0, line := 4095 }, time := { td0 := { units := 1000000000 * 4294967296 } } }
def dueMid : State := { due with raster := { due.raster with line := 4094 } }

theorem witness_WallLineRow :
    (State.reset.advance 0).raster.run = false ∧
    (up.advance 0).wallNs < lineStartNs (up.advance 0).lay.dev.wallRate (up.advance 0).raster.next.1 (up.advance 0).raster.next.2 ∧
    (due.advance 0).raster.run = true ∧
    lineStartNs (due.advance 0).lay.dev.wallRate (due.advance 0).raster.next.1 (due.advance 0).raster.next.2 ≤ (due.advance 0).wallNs ∧
    (due.advance 0).raster.line = 4095 ∧
    lineStartNs (dueMid.advance 0).lay.dev.wallRate (dueMid.advance 0).raster.next.1 (dueMid.advance 0).raster.next.2 ≤ (dueMid.advance 0).wallNs ∧
    (dueMid.advance 0).raster.line ≠ 4095 := by decide

/-- A raster that stands and whose first frame has come. -/
def standing : State := { conf with raster := {}, time := { td0 := { units := 1000000000 * 4294967296 } } }

theorem witness_RasterStartRow :
    (standing.advance 0).Settled ∧ (standing.advance 0).raster.run = false ∧ (∀ k ∈ (standing.advance 0).clk.onFio, k ≠ .pllTime) ∧
    lineStartNs (standing.advance 0).lay.dev.wallRate (standing.advance 0).raster.first 0 ≤ (standing.advance 0).wallNs ∧
    (up.advance 0).raster.run = true ∧ (State.reset.advance 0).dev = .off :=
  ⟨by refine ⟨?_, ?_, ?_⟩ <;> decide, by decide, by decide, by decide, by decide, by decide⟩

theorem witness_SnapshotAtLineZero : up.procDown 0 = false ∧ up.procDown 1 = false := by decide

/-! ### Witnesses: ingest -/

/-- `up` with MAC 7 live on a locked quad, uncompressed flow 0 into source 983 with its buffer free, and point flow 1. -/
def net : State := { up with
  clk := { stable := [.sio, .fio, .xa, .pllCore, .pllTime, .pllMem, .pllCodec, .pllComp, .pllPix] }
  lanes := { pll := [(23, .locked)] }
  lay := { quads := [(23, { mode := 1 })]
           macs := [(7, { enable := true, lane := 95, addr := 2, ipv4 := 1, ipv4Prefix := 24 })]
           flows := [(0, { enable := true, type := 3, mac := 7, tsMode := 2, vlan := 0xFFFF, pair := 0xFFFF, srcAny := true, ssrcAny := true,
                           dstAddr := 0xFFFF00000001, target := 983, width := 1, height := 1 }),
                     (1, { enable := true, type := 4, mac := 7, vlan := 0xFFFF, pair := 0xFFFF, srcAny := true, ssrcAny := true, pfTimeMode := 1,
                           dstAddr := 0xFFFF00000001, dstPort := 2, pfIndexCount := 1 })]
           sources := [(983, { kind := 1, origin := 0 })] }
  ing := { macUp := [7] } }

/-- A packet of flow 0. -/
def rtp0 : RtpPacket := { mac := 7, dst := 0xFFFF00000001, seq := 65535 }

/-- `net` once flow 0 has started: packet 1 seen and packet 2 missing. -/
def flowing : State := { net with
  ing := { macUp := [7], flows := [(0, { started := true, highest := 4294967296 + 3, seen := [4294967296 + 1, 4294967296 + 3], holes := [{ seq := 4294967296 + 2, openedAt := 0 }] })] } }

theorem witness_EthernetFrames :
    (net.advance 0).macLive 7 = true ∧ (net.advance 0).writersRun = true ∧
    (matchFlow (net.advance 0).lay 7 0xFFFF 0xFFFF00000001 1 0 0).isSome = true ∧ matchFlow (net.advance 0).lay 7 0xFFFF 0xFFFF00000001 3 0 0 = none ∧
    (net.advance 0).procDown 8 = false ∧ ownAddress ((net.advance 0).lay.macs.get {} 7) 0xFFFF00000001 = true ∧ isIpv4 0xFFFF00000001 = true ∧
    ownAddress ((net.advance 0).lay.macs.get {} 7) (linkLocal 2) = true ∧ isIpv4 (linkLocal 2) = false := by decide

theorem witness_RtpPackets :
    (net.advance 0).macLive 7 = true ∧ (net.advance 0).writersRun = true ∧ matchFlow (net.advance 0).lay 6 0xFFFF 0 1 0 0 = none ∧
    ((matchFlow (net.advance 0).lay rtp0.mac rtp0.vlan rtp0.dst rtp0.dstPort rtp0.src rtp0.ssrc).map (fun x => (x.1, x.2.type, x.2.pair, x.2.tsMode, x.2.target))) =
      some (0, 3, 0xFFFF, 2, 983) ∧
    (net.advance 0).flowRt 0 = {} ∧ rtp0.marker = false ∧ rtp0.segments = [] ∧ (net.advance 0).freeSrcBuf 983 = some 0 ∧
    ((flowing.advance 0).flowRt 0).started = true ∧ breaks ((flowing.advance 0).lay.flows.get {} 0) ((flowing.advance 0).flowRt 0) { rtp0 with seq := 1 } = false ∧
    (unwrapSeq ((flowing.advance 0).lay.flows.get {} 0) ((flowing.advance 0).flowRt 0) 1).toNat ∈ ((flowing.advance 0).flowRt 0).seen ∧
    (unwrapSeq ((flowing.advance 0).lay.flows.get {} 0) ((flowing.advance 0).flowRt 0) 3).toNat ≤ ((flowing.advance 0).flowRt 0).highest ∧
    (unwrapSeq ((flowing.advance 0).lay.flows.get {} 0) ((flowing.advance 0).flowRt 0) 0).toNat ∉ ((flowing.advance 0).flowRt 0).seen ∧
    (∀ h ∈ ((flowing.advance 0).flowRt 0).holes, h.seq ≠ (unwrapSeq ((flowing.advance 0).lay.flows.get {} 0) ((flowing.advance 0).flowRt 0) 0).toNat) := by decide

/-- `flowing` with a frame of one pixel, all received, open in buffer 0. -/
def closing : State := { net with
  ing := { macUp := [7]
           flows := [(0, { started := true, frames := [{ ts := 0, buf := some 0, spans := [(0, 0, 1)] }] })]
           sources := [(983, { bufs := [(0, { width := 1, height := 1, format := 0, writing := true })] })] } }

/-- `net` with flow 0 paired with flow 2, and the other path delivering. -/
def paired : State := { net with
  lay := { net.lay with flows := [(0, { (net.lay.flows.get {} 0) with pair := 2 }), (2, { (net.lay.flows.get {} 0) with pair := 0 })] }
  ing := { macUp := [7], flows := [(0, { started := true, arrivalB := some 0 })] } }

/-- `closing` once the frame's window has passed. -/
def closingLate : State := { closing with time := { upTicks := 500000000000 } }

theorem witness_FlowTimeouts :
    (flowing.advance 0).writersRun = true ∧ ((flowing.advance 0).lay.flows.get {} 0).pair = 0xFFFF ∧ ((flowing.advance 0).lay.flows.get {} 0).type = 3 ∧
    ((flowing.advance 0).flowRt 0).holes.find? (fun x => decide (x.seq % 4294967296 = 2 % 4294967296)) = some { seq := 4294967298, openedAt := 0 } ∧
    ((closing.advance 0).flowRt 0).holes = [] ∧ (closing.advance 0).writersRun = true ∧
    (∀ g ∈ ((closing.advance 0).flowRt 0).frames, (closing.advance 0).windowPassed ((closing.advance 0).lay.flows.get {} 0) ((closing.advance 0).flowRt 0) g = false) ∧
    (paired.advance 0).writersRun = true ∧ ((paired.advance 0).lay.flows.get {} 0).pair = 2 ∧ ((paired.advance 0).lay.flows.get {} 0).enable = true ∧
    ((paired.advance 0).flowRt (flowKey ((paired.advance 0).lay.flows.get {} 0) 0)).arrivalB.isSome = true ∧
    ((paired.advance 0).flowRt (flowKey ((paired.advance 0).lay.flows.get {} 0) 0)).downA = false := by decide

theorem witness_FlowTimeouts_late :
    (let a := closingLate.advance 0
     let c := a.lay.flows.get {} 0
     let g : OpenFrame := { ts := 0, buf := some 0, spans := [(0, 0, 1)] }
     let fb := (a.srcRt c.target).bufs.get {} 0
     a.writersRun = true ∧ flowKey c 0 = 0 ∧ (a.flowRt 0).frames = [g] ∧ (a.flowRt 0).frames.find? (fun y => a.windowPassed c (a.flowRt 0) y) = some g ∧
     g.dropped = false ∧ fb.writing = true ∧ ((uncoveredRuns (fb.width * fb.height) 0 g.runs).map (fun r => r.2 - r.1)).sum = 0) := by decide

/-- `net` with a frame of source 983 waiting for its seal, before or after the capture time of the latest seal. -/
def sealing (capture latest : Nat) : State := { net with ing := { macUp := [7], sources := [(983,
  { bufs := [(0, { width := 1, height := 1, format := 0, lines := [[1#8]] })], seals := [{ source := 983, capture := latest }]
    ready := [{ buf := 0, capture := capture, captSrc := 1, arrival := 0 }] })] } }

theorem witness_SealWritten :
    ((sealing 5 5).advance 0).writersRun = true ∧ (((sealing 5 5).advance 0).srcRt 983).ready = { buf := 0, capture := 5, captSrc := 1, arrival := 0 } :: [] ∧
    (((sealing 5 5).advance 0).srcRt 983).bufs ≠ [] ∧ (((sealing 5 5).advance 0).srcRt 983).seals.head? = some { source := 983, capture := 5 } ∧
    (((sealing 5 6).advance 0).srcRt 983).seals.head? = some { source := 983, capture := 6 } := by decide

/-- `up` with DPRX port 15 live on lane 95, its capture source 983. -/
def capt : State := { up with
  clk := net.clk
  lanes := { pll := [(23, .locked)] }
  lay := { quads := [(23, { mode := 3 })], dprxs := [(15, { enable := true, lane0 := 95, edid := List.replicate 128 0#8 })]
           sources := [(983, { kind := 3, origin := 15 })] }
  ing := { dprx := [(15, { up := true, hpdLow := false })] } }

theorem witness_PortsAndLinks :
    (capt.advance 0).dprxLive 15 = true ∧ (capt.advance 0).writersRun = true ∧ ((capt.advance 0).ing.dprx.get {} 15).inFrame = false ∧
    sourceOfPort (capt.advance 0).lay 15 = some 983 ∧ dprxFormatOk 8 = true ∧ dprxFormatOk 9 = false ∧ (capt.advance 0).freeSrcBuf 983 = some 0 ∧
    ((capt.advance 0).ing.dprx.get {} 15).up = true ∧ ((capt.advance 0).lay.dprxs.get {} 15).enable = true ∧ (capt.advance 0).isFenced (104 + 15) = false ∧
    (capt.advance 0).pll (quadOf ((capt.advance 0).lay.dprxs.get {} 15).lane0) = .locked ∧
    ((capt.advance 0).lane 95).rest = false ∧ ((capt.advance 0).ing.dprx.get {} 15).hpdLow = false ∧
    ((net.advance 0).lay.macs.get {} 7).enable = true ∧ (net.advance 0).isFenced (120 + 7) = false ∧
    (net.advance 0).pll (quadOf ((net.advance 0).lay.macs.get {} 7).lane) = .locked ∧ 7 ∈ (net.advance 0).ing.macUp := by decide

/-! ### Witnesses: touch -/

/-- `up` with desk 15 as given. -/
def deskAs (k : DeskRt) : State := { up with desks := [(15, k)] }

theorem witness_TouchLink :
    (((deskAs { state := .active, locked := true }).advance 0).desk 15) = { state := .active, locked := true } ∧
    (((deskAs { state := .linkDown, locked := true, restarts := 3 }).advance 0).desk 15) = { state := .linkDown, locked := true, restarts := 3 } ∧
    (((deskAs { state := .linkDown, restarts := 2 }).advance 0).desk 15).restarts < 3 ∧
    ({} : HeadInfo).driveN = ({} : DeskRt).cfg.driveN ∧ ({} : HeadInfo).senseN = ({} : DeskRt).cfg.senseN ∧
    (∀ e ∈ ((deskAs { state := .starting, locked := true }).advance 0).desks, e.2.baseOp = none) := by decide

/-- An empty info memory whose CRC is right, and one whose CRC is wrong. -/
theorem witness_TouchLink_info : infoSound { crc := 3713229402 } = true ∧ infoSound { crc := 0 } = false := by decide +kernel

theorem witness_TouchFrames :
    (((deskAs { state := .active, locked := true, inFrame := true, bad := true, discardRun := 10 }).advance 0).desk 15) =
      { state := .active, locked := true, inFrame := true, bad := true, discardRun := 10 } ∧
    (((deskAs { state := .starting, locked := true, inFrame := true }).advance 0).desk 15) = { state := .starting, locked := true, inFrame := true } ∧
    (((deskAs { state := .active, locked := true, inFrame := true }).advance 0).desk 15).baseOp = none := by decide

/-- A desk whose zero offsets are being written to flash. -/
def writingBase : State := deskAs { state := .active, locked := true, baseWrite := some (hdr 4, [0], 0) }

theorem witness_BaselineCommand :
    Runs specTouchBaseline (hdr 4) none 0 (deskAs { state := .active, locked := true }) (now (deskAs { state := .active, locked := true }) (hdr 4)) ∧
    ((now (deskAs { state := .active, locked := true }) (hdr 4)).desk 15).state = .active ∧
    (∀ e ∈ (now (deskAs { state := .active, locked := true }) (hdr 4)).desks, e.2.baseWrite = none) ∧
    Runs specTouchBaseline (hdr 4) none 0 up (now up (hdr 4)) ∧ ((now up (hdr 4)).desk 15).state ≠ .active ∧
    (((writingBase).advance 0).desk 15).baseWrite = some (hdr 4, [0], 0) ∧ writingBase.procDown 0 = false ∧ writingBase.procDown 1 = false :=
  ⟨runs_now (by decide), by decide, by decide, runs_now (by decide), by decide, by decide, by decide, by decide⟩

/-! ### Witnesses: decoding, composition, points -/

/-- `up` with context 255 enabled and one of its pictures in engine 7. -/
def decoding : State := { up with
  lay := { contexts := [(255, { enable := true, source := 983 })], sources := [(983, { kind := 2, cls := 1, origin := 255 })] }
  dec := { ctxs := [(255, { state := .running, queue := [{ id := 2 }], cfg := { enable := true, source := 983 } })], engines := [(7, { pic := some (255, { id := 1 }) })] } }

/-- The same with the engine switched from another context. -/
def restoring : State := { decoding with dec := { decoding.dec with engines := [(7, { pic := some (255, { id := 1 }), switched := true })] } }

theorem witness_DecodingRows :
    (decoding.advance 0).writersRun = true ∧ (decoding.advance 0).isFenced (32 + 7) = false ∧
    ((decoding.advance 0).dec.engines.get {} 7).pic = some (255, { id := 1 }) ∧
    ((decoding.advance 0).ctxRt 255).cfg = (decoding.advance 0).lay.contexts.get {} 255 ∧ ((decoding.advance 0).lay.contexts.get {} 255).enable = true ∧
    (decoding.advance 0).restoreBad 7 255 {} = false ∧ ((restoring.advance 0).dec.engines.get {} 7).pic = some (255, { id := 1 }) ∧
    (restoring.advance 0).restoreBad 7 255 { restoreError := true } = true ∧ (restoring.advance 0).ctxClass 255 ≠ 0 ∧ (restoring.advance 0).dec.engines.wf {} = true ∧
    (((decoding.advance 0).ctxRt 255).dpb.filter (fun q => q.outputPending && !q.sent)).length ≤ ((decoding.advance 0).ctxRt 255).reorder := by decide

/-- Coded pictures without any NAL unit read as no picture. -/
theorem witness_DecodingRows_waiting :
    ((decoding.advance 0).ctxRt 255).resync = false ∧ ((decoding.advance 0).lay.contexts.get {} 255).codec ≠ 2 ∧
    (∀ q ∈ ({ id := 1 } : CodedPic) :: ((decoding.advance 0).ctxRt 255).queue, ∀ ps tb y, q.read 0 ps tb = some y → entryPoint y = false) ∧
    (((decoding.modCtx 255 (fun rt => { rt with resync := true })).advance 0).ctxRt 255).resync = true := by
  refine ⟨by decide, by decide, fun q hq ps tb y h => ?_, by decide⟩
  rcases List.mem_cons.1 hq with rfl | hq
  · cases h
  · rw [List.mem_singleton.1 (show q ∈ [({ id := 2 } : CodedPic)] from hq)] at h
    cases h

/-- `up` with a pass of the last tile row of head 31 under way, `todo` its tiles, and the two strands as given. -/
def passing (todo : List Nat) (a b : StrandState) : State := { up with
  braid := { rows := [(rowKey 31 127, { frame := 1, running := some { todo := todo } })], current := some (rowKey 31 127), strandA := a, strandB := b } }

theorem witness_CompositionRows :
    ((passing [0, 1] .comparing .comparing).advance 0).writersRun = true ∧
    (passing [0, 1] .comparing .comparing).braid.current = some (rowKey 31 127) ∧
    ((passing [0, 1] .comparing .comparing).row (rowKey 31 127)).running = some { todo := 0 :: [1] } ∧
    (passing [0, 1] .comparing .comparing).braid.switching = none ∧
    (passing [0, 1] .comparing .comparing).braid.strand 0 ≠ .fenced ∧ StrandState.comparing.compares = true ∧ (StrandState.probation 0).compares = true ∧
    (passing [0, 1] .comparing .fenced).braid.strandB.compares = false ∧ (passing [0, 1] .comparing (.probation 0)).braid.strand (otherStrand 0) = .probation 0 ∧
    ((passing [] .comparing .comparing).row (rowKey 31 127)).running = some { todo := [] } ∧
    ({ (passing [0] .comparing .comparing).braid with switching := some 1 } : Braid).switching = some 1 ∧
    (passing [0] .comparing .selfTest).braid.strand 1 = .selfTest := by decide

/-- `net` once point flow 1 has accepted number 1. -/
def points1 : State := { net with pts := { flows := [(1, { started := true, highest := 1, accepted := [1] })] } }

/-- A datagram with number 1 and one record of zeros, for point 0, under a check value. -/
def dgBytes (crc : Nat) : List Byte := leBytes 2 1 ++ leBytes 2 1 ++ leBytes 4 1 ++ leBytes 4 crc ++ List.replicate 36 0#8

/-- The same in a packet to point flow 1, and one whose flow no entry takes. -/
def dg1 (crc : Nat) : PointDatagram := { mac := 7, dst := 0xFFFF00000001, dstPort := 2, payload := dgBytes crc }
def dgNone : PointDatagram := { mac := 6 }

/-- Its check value (R28), folded over the prefix of address 0, sequence number 1 and flow 1 and the 48 bytes. -/
def dgCrc : Nat := (foldCrc 0 1 1 (dgBytes 0)).toNat

/-- `up` with one packet announced on the point ring. -/
def slotRing : State := { up with rings := [(18, { enable := true, producer := 1 })] }

/-- `up` with the overlay of head 31 being drawn for a frame whose first tile row has begun. -/
def overlay31 : State := { up with pts := { overlays := [(31, { drawing := [{ frame := 100, half := 0, tag := 0, at_ := 0, buf := 0 }] })] } }

/-- The datagram passes its check and is well-formed; its number is one that `points1` has accepted; a byte more makes it malformed, and another
check value fails. -/
theorem witness_PointRows_datagram :
    (let d := readDatagram 1 (dg1 dgCrc).payload
     d.crcOk = true ∧ malformed d = false ∧ malformed (readDatagram 1 ((dg1 dgCrc).payload ++ [0#8])) = true ∧ (readDatagram 1 (dgBytes (dgCrc + 1))).crcOk = false ∧
     d.seq ∈ ((points1.advance 0).pts.flows.get {} 1).accepted ∧ d.recs = [{}]) := by decide +kernel

theorem witness_PointRows :
    matchFlow (points1.advance 0).lay 6 0xFFFF 0 1 0 0 = none ∧
    (matchFlow (points1.advance 0).lay 7 0xFFFF 0xFFFF00000001 2 0 0).map (fun e => (e.1, e.2.type, flowKey e.2 e.1)) = some (1, 4, 1) ∧
    (points1.advance 0).macLive 7 = true ∧ (points1.advance 0).writersRun = true ∧
    ((net.advance 0).pts.flows.get {} 1).started = false ∧ ((net.advance 0).pts.flows.get {} 1).accepted = [] ∧
    ((net.advance 0).lay.flows.get {} 1).pfIndexBase ≤ 0 ∧ 0 < ((net.advance 0).lay.flows.get {} 1).pfIndexBase + ((net.advance 0).lay.flows.get {} 1).pfIndexCount ∧
    ((net.advance 0).lay.flows.get {} 1).pfTimeMode = 1 ∧
    ((slotRing.advance 0).ring 18).runs = true ∧ idxDiff ((slotRing.advance 0).ring 18).producer ((slotRing.advance 0).ring 18).wbConsumer ≠ 0 ∧
    (slotRing.advance 0).writersRun = true ∧ (slotRing.advance 0).pins.fetchStopped = false ∧
    numAt (List.replicate 64 0#8) 0 2 = 0 ∧ numAt (1#8 :: List.replicate 63 0#8) 0 2 = 1 ∧ numAt (1#8 :: List.replicate 63 0#8) 2 14 = 0 ∧
    leBytes 2 1 ++ List.replicate 14 0#8 ++ List.replicate 48 0#8 = 1#8 :: List.replicate 63 0#8 ∧ leBytes 2 0 ++ List.replicate 14 0#8 ++ List.replicate 48 0#8 = List.replicate 64 0#8 ∧
    slotRecords (1#8 :: List.replicate 63 0#8) = [{}] ∧ ({} : PointRec).rsvBad = false ∧
    ((overlay31.advance 0).pts.overlays.get {} 31).drawing = { frame := 100, half := 0, tag := 0, at_ := 0, buf := 0 } :: [] ∧
    (overlay31.advance 0).pts.overlays.wf {} = true ∧ (overlay31.advance 0).ing.sources.wf {} = true ∧ (overlay31.advance 0).writersRun = true ∧
    (overlay31.advance 0).drawsNext 31 { frame := 100, half := 0, tag := 0, at_ := 0, buf := 0 } = true ∧
    rowBeginPos (((overlay31.advance 0).layoutFor 100).head 31) 100 0 0 ≤ ((overlay31.advance 0).raster.pos : Int) := by decide

/-! ### Witnesses: heads, the Stopper, lanes and network time -/

/-- `up` with head 31 as given. -/
def headAs (r : HeadRt) : State := { up with heads := [(31, r)] }

/-- An enabled head of 240 lines, LIVE in frame 100, with 29 of its 30 band rows sent. -/
def live31 : HeadRt := { state := .live, frame := 100, startPos := some 0, emitted := 28, hpd := true, cfg := { enable := true } }

/-- The same with row 28 in the line buffer, and with row 29's tile row bound. -/
def live31Fetched : HeadRt := { live31 with fetched := [bandKey 100 0 28] }
def bound31 : State := { headAs live31Fetched with braid := { rows := [(rowKey 31 3, { frame := 100, bound := true })] } }

/-- The head at a wall time long after row 29 was due. -/
def late31 : State := { headAs live31 with time := { td0 := { units := 1000000000000 * 4294967296 } } }

theorem witness_BandRows :
    (bound31.advance 0).bandFrame 31 29 = (100, 0) ∧ ((bound31.advance 0).headRt 31).linked = true ∧ live31Fetched.startPos.isSome = true ∧
    (bound31.advance 0).isFenced 31 = false ∧ 29 < bandRows live31.cfg ∧ live31Fetched.fetches (100, 0) 29 = true ∧
    ((bound31.advance 0).row (rowKey 31 (29 / 8))).bound = true ∧
    (((bound31.advance 0).row (rowKey 31 (29 / 8))).frame, ((bound31.advance 0).row (rowKey 31 (29 / 8))).half) = (100, 0) ∧
    live31Fetched.inOrder (100, 0) 29 = true ∧ live31Fetched.fetched.length < 524288 / (32 * live31.cfg.hActive) ∧
    (late31.advance 0).bandFrame 31 29 = (100, 0) ∧ live31.fetches (100, 0) 29 = true ∧ bandKey 100 0 29 ∉ live31.fetched ∧ bandKey 100 0 29 ∉ live31.urgent ∧
    (late31.advance 0).urgentAt 31 (100, 0) 29 ≤ ((late31.advance 0).wallNs : Int) := by decide

/-- Row 28 is due in a head that is LIVE, in the line buffer or not. -/
theorem witness_BandRows_sent :
    (let a := (headAs live31Fetched).advance 0
     let w := a.passLines 31
     let y := w.headRt 31
     a.dev ≠ .safe ∧ a.bandDue 31 28 = true ∧ w.bandDue 31 28 = true ∧ y.cfg.enable = true ∧ y.state = .live ∧ w.dev ≠ .safe ∧ w.isFenced (46 + 31 / 8) = false ∧
     28 + 1 < bandRows y.cfg ∧ bandKey y.frame y.half 28 ∈ y.fetched ∧ (∀ v ∈ w.judgeBand 31 28 {}, v.disagree = false)) ∧
    (let w := ((headAs live31).advance 0).passLines 31
     w.bandDue 31 28 = true ∧ bandKey (w.headRt 31).frame (w.headRt 31).half 28 ∉ (w.headRt 31).fetched) := by decide

/-- A tile with one contributor of window 1, and the policy line of that window; `tiled` has it committed for tile 0 of head 31's first row. -/
def tile1 : TileResult := { tpr := { contribs := [{ source := 0, window := 1, capture := 0 }] } }
def line1 : PolicyEntry := { window := 1, source := 0, rect := { x := 0, y := 0, w := 8, h := 8 }, staleMs := 1, deadMs := 2, freezeMs := 0, caption := 0, corner := 0, scale := 0 }
def tiled (t : TileResult) : State := { headAs live31 with
  braid := { rows := [(rowKey 31 0, { frame := 100, commit := [(0, 1)], slot0 := [(0, t)] })] }
  time := { td0 := { units := 2000001 * 4294967296 } } }

theorem witness_AgeChecks :
    (((tiled tile1).row (rowKey 31 0)).committed 0) = some tile1 ∧
    (∀ x ∈ ({} : BandObs).faultP, x.col ≠ 0) ∧ tile1.tpr.contribs[(0x3FFFFFFF#32).toNat / 1073741824]? = some { source := 0, window := 1, capture := 0 } ∧
    ({ source := 0, window := 1, capture := 0 } : Contrib).background = false ∧ lineOf [line1] 1 = some line1 ∧
    0 + line1.staleMs * 1000000 < (tiled tile1).wallNs ∧ 0 + line1.deadMs * 1000000 < (tiled tile1).wallNs ∧ lineOf [] 1 = none ∧
    ({ noSeal := true } : Contrib).background = false := by decide

theorem witness_HeadTraining :
    ((headAs live31).advance 0).headRt 31 = live31 ∧ live31.cfg.enable = true ∧ live31.hpd = true ∧
    (({ live31 with aux := [(.linkStatus, 2)] } : HeadRt)).linked = true ∧ AuxJob.linkStatus ≠ .train ∧
    (let x : HeadRt := { live31 with state := .training, attempting := true, attempts := 1 }
     ((headAs x).advance 0).headRt 31 = x ∧ x.hpd = true ∧ x.attempts < 2) ∧
    (let x : HeadRt := { live31 with state := .training, attempting := true, attempts := 2 }
     ((headAs x).advance 0).headRt 31 = x ∧ 2 ≤ x.attempts) ∧
    (let s : State := { headAs { live31 with state := .training, attempting := true } with lanes := { pll := [(2, .locked)] } }
     (s.advance 0).lanesReady live31.cfg = true) := by decide

theorem witness_LaneRows :
    (let s : State := { up with lanes := { lanes := [(95, { rest := true })] } }
     ((s.advance 0).lane 95).rest = true ∧ shouldRest (s.advance 0) 95 = false ∧ 5000000 < 5000001 - ((s.advance 0).lane 95).restSince) ∧
    (let s : State := { capt with lanes := { lanes := [(95, { rest := true })] } }
     ((s.advance 0).lane 95).rest = true ∧ (s.advance 0).lay.dprxs.any (fun e => e.2.enable && dprxHasLane e.2 95) = true) ∧
    (({ up with lanes := { pll := [(23, .locking)] } } : State).advance 0).pll 23 = .locking ∧
    (({ up with lanes := { pll := [(23, .locked)] } } : State).advance 0).pll 23 = .locked ∧
    ((({ up with lanes := { lanes := [(95, { cdrLocked := true })] } } : State).advance 0).lane 95).cdrLocked = true := by decide

/-- `net` with domain 1 on MAC 7, its master 9, an exchange completed and a Sync that waits for its Follow_Up. -/
def ptp : State := { net with
  lay := { net.lay with domains := [(1, { enable := true, mac := 7 })] }
  time := { td1 := { gm := 9, exchange := some (9, 0, 0, 0), pendingSync := some { master := 9, twoStep := true }, delayReq := some (9, 0),
                     masters := [(9, 1)], heard := [(9, (0, 1000))] } } }

/-- `ptp` with its domain in holdover for good, and a second master heard. -/
def ptpLate : State := { ptp with time := { td1 := { ptp.time.td1 with state := .holdover, masters := [(9, 1), (10, 2)] }, upTicks := 500000000000 } }

/-- A message of master 9 for domain 1. -/
def msg9 (two : Bool) : PtpMsg := { mac := 7, vlan := 0, master := 9, twoStep := two }

/-- A pulse input that takes both edges, and a one-shot pulse output. -/
def pulses : State := { ptp with lay := { ptp.lay with pulses := [(1, { tpiEdge := 3 }), (5, { mode := 2, period := 1000 })] } }

theorem witness_NetworkTime_messages :
    (ptp.advance 0).ptpRuns 1 = true ∧ (ptp.advance 0).ptpDomain (msg9 false) = some 1 ∧ (ptp.advance 0).ptpDomain (msg9 true) = some 1 ∧ (msg9 false).master ≠ 0 ∧
    ((ptp.advance 0).time.domain 1).gm = (msg9 false).master ∧ (ptp.advance 0).ptpDomain { msg9 false with master := 8 } = some 1 ∧
    ((ptp.advance 0).time.domain 1).exchange = some (9, 0, 0, 0) ∧ (msg9 false).twoStep = false ∧ (msg9 true).twoStep = true ∧
    ((ptp.advance 0).time.domain 1).pendingSync = some { master := 9, twoStep := true } ∧ (msg9 false).seqId = 0 ∧
    ((ptp.advance 0).time.domain 1).delayReq = some (9, 0) ∧
    (State.modDomain 1 (fun y => { y with masters := y.masters.put 9 0, heard := y.heard.put 9 (0, 0) }) ((ptp.advance 0).count 0x0C 1 2 1)).selected 1 = some 9 := by decide

theorem witness_NetworkTime :
    ((ptp.advance 0).time.domain 1).gm = 9 ∧ (ptp.advance 0).time.upTicks < ((ptp.advance 0).time.domain 1).syncFrom + ((ptp.advance 0).domainCfg 1).syncTimeoutMs * 500000 ∧
    ((ptp.advance 0).time.domain 1).heard.get (0, 0) 9 = (0, 1000) ∧ (ptp.advance 0).time.upTicks < 0 + 1000 ∧
    ((ptpLate.advance 0).time.domain 1).syncFrom + ((ptpLate.advance 0).domainCfg 1).syncTimeoutMs * 500000 ≤ (ptpLate.advance 0).time.upTicks ∧
    ((ptpLate.advance 0).modDomain 1 (fun y => { y with masters := y.masters.erase 9, heard := y.heard.erase 9 })).selected 1 = some 10 ∧
    ((ptp.advance 0).modDomain 1 (fun y => { y with masters := y.masters.erase 9, heard := y.heard.erase 9 })).selected 1 = none ∧
    ((ptpLate.advance 0).time.domain 1).state = .holdover ∧
    ((ptpLate.advance 0).time.domain 1).holdFrom + ((ptpLate.advance 0).domainCfg 1).holdoverS * 500000000 ≤ (ptpLate.advance 0).time.upTicks ∧
    (pulses.advance 0).ptpRuns 1 = true ∧ ((pulses.advance 0).lay.pulses.get {} 1).tpiEdge = 3 ∧ (pulses.advance 0).time.tpiLast.get 0 1 = 0 ∧
    ((pulses.advance 0).time.tpi.get [] 1).length < 16 ∧
    ((pulses.advance 0).lay.pulses.get {} (2 + 3)).mode = 2 ∧ ((pulses.advance 0).time.tpo.get {} 3).done = false ∧
    ((pulses.advance 0).time.tpo.get {} 3).level = false ∧ ((pulses.advance 0).lay.pulses.get {} (2 + 3)).start ≤ (pulses.advance 0).time.td0.ns := by decide

/-! ### Witnesses: encoding, memory, faults, resets, the start, the debug port -/

/-- Context 31's settings: two rows, one region. -/
def encCfg : EncoderCfg := { enable := true, height := 128, mac := 7, regions := [{ enable := true, w := 64, h := 64 }] }

/-- `net` with encode context 31 at a picture, its row coded by engine 3, and one packet waiting at MAC 7. -/
def encoding (p : EncPic) : State := { net with
  lay := { net.lay with encoders := [(31, { enable := true, height := 128, mac := 7 })] }
  enc := { ctxs := [(31, { state := .running, engine := some 3, pic := some p, cfg := encCfg })], coding := [(3, 32)]
           queues := [(7, [{ ctx := 31, at_ := 0, payload := [0#8], len := 1, rtpSeq := 0, rtpTs := 0, marker := false, queuedAt := 1 }])] } }

/-- A picture at its row `row`, the tile row of its one region read, with a budget; and one of which nothing is read. -/
def pic (row budget : Nat) : EncPic := { row := row, budget := budget, tilesRead := [(0, 0)] }
def unreadPic : EncPic := { budget := 100000 }

/-- One byte of coded row. -/
def row1 : RowObs := { slices := [[0#8]] }

/-- The row is discarded under a budget of 0; under one of 100,000 it is accepted, coded or late, as the first or the last of two. -/
theorem witness_EncodingRows :
    ((encoding (pic 0 0)).advance 0).writersRun = true ∧ ((encoding (pic 0 0)).advance 0).codingOn 3 = some 31 ∧
    (∀ y ∈ (pic 0 0).unread encCfg 0, ((encoding (pic 0 0)).advance 0).encWindow (encCfg.regions.getD y.1 {}).head y.2 0 ≠ .late) ∧
    (∀ y ∈ (pic 1 100000).unread encCfg 1, ((encoding (pic 1 100000)).advance 0).encWindow (encCfg.regions.getD y.1 {}).head y.2 0 ≠ .late) ∧
    (let r := ((encoding (pic 0 0)).advance 0).encRt 31
     r.pic = some (pic 0 0) ∧ r.engine = some 3 ∧ 0 < 0 + rowSize r (pic 0 0) row1 false + skipSize r.cfg * (encRows r.cfg - 1 - 0)) ∧
    (let r := ((encoding (pic 0 100000)).advance 0).encRt 31
     0 + rowSize r (pic 0 100000) row1 false + skipSize r.cfg * (encRows r.cfg - 1 - 0) ≤ 100000 ∧ 0 + 1 ≠ (pic 0 100000).rows r.cfg) ∧
    (let r := ((encoding (pic 1 100000)).advance 0).encRt 31
     0 + rowSize r (pic 1 100000) row1 false + skipSize r.cfg * (encRows r.cfg - 1 - 1) ≤ 100000 ∧ 1 + 1 = (pic 1 100000).rows r.cfg) ∧
    (((encoding (pic 1 100000)).advance 0).lay.encoders.get {} 31).enable = true := by decide +kernel

theorem witness_EncodingRows_packets :
    (let a := (encoding unreadPic).advance 0
     regionHasRow (encCfg.regions.getD 0 {}) 0 = true ∧ (0, 0) ∉ unreadPic.tilesRead ∧ a.encWindow (encCfg.regions.getD 0 {}).head 0 0 ≠ .early ∧
     (a.enc.queues.get [] 7).length = 1 ∧ a.dev ≠ .safe ∧ 7 ∈ a.ing.macUp ∧ a.wireUntil 7 ≤ a.wallNs) ∧
    7 ∉ up.ing.macUp ∧
    (let s : State := { encoding unreadPic with enc := { (encoding unreadPic).enc with wireUntil := [(7, 1)] } }
     (s.advance 0).wallNs < (s.advance 0).wireUntil 7) := by decide +kernel

/-- `up` with a bucket for class 2 at port 23, a class-2 source, and head 31's fetch urgent. -/
def regulated : State := { up with
  lay := { regulators := [(23, { rate2 := 1, burst2 := 1 })], sources := [(983, { cls := 2 })] }
  heads := [(31, { urgent := [1] })] }

theorem witness_MemoryRows :
    (up.advance 0).mem.trained = true ∧ (State.reset.advance 0).mem.trained = false ∧ (2 : Nat) ∈ [2] ∧ (∀ r ∈ [1], ¬ 2 ≤ r) ∧
    (regulated.advance 0).reqClass 23 (.source 983) = 2 ∧ (regulated.advance 0).reqClass 23 .alarm = 0 ∧
    (∀ h, ReqItem.source 983 = .fetch h → ((regulated.advance 0).headRt h).urgent = []) ∧ ((regulated.advance 0).headRt 31).urgent ≠ [] ∧
    (65 + 63) / 64 * 64 = 128 ∧ ((regulated.advance 0).lay.regulators.get {} 23).rate2 = 1 :=
  ⟨by decide, by decide, by decide, by decide, by decide, by decide, nofun, by decide, by decide, by decide⟩

theorem witness_AddressMapOneToOne :
    ({} : Mem).place 0xF80000000 = none ∧
    0x800000000 ≤ 0x8F7FFFFFF ∧ (0x7FFFFFFFF : Nat) ≠ 0x800000000 := by decide

/-- `up` with source 46 masked to nothing but its fixed latch, in SAFE, or asking for the chip's reset. -/
def masked46 (m : Nat) : State := { up with flt := { srcs := [(46, { mask := some m })] } }

theorem witness_FaultReactions :
    6 ≤ (up.advance 0).boot.step ∧ 204 < 205 ∧ 180 + 9 < 205 ∧ 9 ≤ (up.advance 0).boot.step ∧ 9 ∉ (up.advance 0).flt.restarting ∧
    (up.advance 0).flt.kicks.find? 9 = none ∧
    ((((masked46 16).advance 0).faultSrc 46).mask.getD (srcInfo 46).dflt).testBit 4 = true ∧
    ((((masked46 3).advance 0).faultSrc 46).mask.getD (srcInfo 46).dflt).testBit 4 = false ∧
    (({ masked46 3 with dev := .safe } : State).advance 0).dev = .safe ∧ (masked46 3).dev ≠ .safe ∧
    127 ∉ up.flt.fenced ∧ 31 ∈ fenced31.flt.fenced := by decide

/-- `up` with the processor 0 in its restart, and with both Cleat cores in it. -/
def restarting (l : List Nat) : State := { up with flt := { restarting := l } }

theorem witness_ProcessorRows :
    9 ≤ (up.advance 0).boot.step ∧ 9 ∉ (up.advance 0).flt.restarting ∧ 9 ∉ (up.advance 0).dbg.halted ∧
    0 ∈ ((restarting [0]).advance 0).flt.restarting ∧ (restarting []).procDown 0 = false ∧ (restarting []).procDown 1 = false ∧
    (restarting [1]).procDown 1 = true ∧ 5 ∈ ((restarting [5]).advance 0).flt.restarting ∧ 9 ∈ ((restarting [9]).advance 0).flt.restarting := by decide

/-- A device in a start that has failed, and one held in reset by a rail or by RESET_N. -/
def failedStart : State := { State.reset with dev := .starting, boot := { step := 9, failed := true } }
def held (rails : List Nat) (low : Bool) : State := { State.reset with dev := .starting, boot := {}, pins := { railsBad := rails, resetLow := low } }

theorem witness_ResetAndSupply :
    (failedStart.advance 0).boot.failed = true ∧ (up.advance 0).dev ≠ .off ∧ (up.advance 0).pins.resetLow = false ∧ (up.advance 0).bg.palette = none ∧
    (State.reset.advance 0).dev = .off ∧ ((held [10] false).advance 0).pins.resetLow = false ∧ ((held [10] false).advance 0).boot.step = 0 ∧
    ((held [] true).advance 0).pins.railsBad = [] ∧ ((held [] true).advance 0).dbg.pinDrive = none ∧
    (failedStart.advance 0).dev = .starting ∧ 6 ≤ (failedStart.advance 0).boot.step ∧ (up.advance 0).pins.pwrFailLow = false ∧
    (({ up with pins := { gasp := some {} } } : State).advance 0).pins.gasp = some {} := by decide

/-- A start at a given step, with given clocks. -/
def starting (step : Nat) (c : Clocks) : State := { State.reset with dev := .starting, boot := { step := step }, clk := c }

theorem witness_StartSequence :
    ((starting 2 {}).advance 0).dev = .starting ∧ ((starting 2 {}).advance 0).boot.step = 2 ∧ ((starting 2 {}).advance 0).boot.failed = false ∧
    0 ∈ badFuses ((starting 2 {}).advance 0).fuses [0] ∧ badFuses ((starting 2 {}).advance 0).fuses [] = [] ∧ badFuses ((starting 2 {}).advance 0).fuses [7] = [7] ∧
    ((starting 4 { fioWait := true }).advance 0).clk.fioWait = true ∧ ((starting 4 {}).advance 0).bk.fioTries < 3 ∧
    ((starting 8 {}).advance 0).boot.step = 8 ∧ ((starting 8 {}).advance 0).boot.afterPor = true ∧ ((starting 8 {}).advance 0).flash.startCount < 4 ∧
    ((starting 9 {}).advance 0).boot.step = 9 ∧ (∃ c ∈ ([31] : List Nat), c < 32) ∧ (∀ c ∈ ([32] : List Nat), 32 ≤ c) ∧
    ((starting 10 {}).advance 0).boot.step = 10 ∧ ((starting 10 {}).advance 0).boot.failed = false := by decide

/-- A start at the image, whose strap names XSPI, or PCIe with no image staged. -/
def fromStrap (n : Nat) : State := { starting 8 {} with bk := { (starting 8 {}).bk with strapChoice := n } }

theorem witness_StartSequence_image :
    (((fromStrap 4).advance 0).setStartCount 1).bootFrom ≠ .xspi ∧ (((fromStrap 4).advance 0).setStartCount 1).bk.stageValid = false ∧
    (((fromStrap 1).advance 0).setStartCount 1).bootFrom = .xspi ∧
    ((((fromStrap 1).advance 0).setStartCount 1).flash.bootSlots.find? (fun e => decide (e.1 ∉ ([] : List Nat)))).isSome = true := by decide

/-- The windows of 64 µs of FIO at 200 MHz and of XA at 25 MHz, in a start that waits for each, and of a PLL at step 7. -/
theorem witness_StartSequence_clocks :
    (let a := (starting 4 { enabled := [.fio] }).advance 0
     clockOf 1 = some .fio ∧ Clock.fio ∈ a.clk.enabled ∧ Clock.fio ∉ a.clk.stable ∧ a.boot.step = 4 ∧
     eightPass (a.nominalKhz .fio) 0 (List.replicate 8 12800) = true ∧ eightPass (a.nominalKhz .fio) 0 (List.replicate 7 12800) = false ∧
     windowPasses (a.nominalKhz .fio) 2 13056 = true ∧ windowPasses (a.nominalKhz .fio) 2 13057 = false ∧
     attemptTrips [14081] = true ∧ attemptTrips [14080] = false) ∧
    (let a := (starting 6 { enabled := [.fio, .xa], stable := [.fio] }).advance 0
     Clock.xa ∈ a.clk.enabled ∧ Clock.xa ∉ a.clk.stable ∧ Clock.fio ∈ a.clk.stable ∧ a.boot.step = 6 ∧ windowPasses (a.nominalKhz .xa) 2 1600 = true) ∧
    (let a := (starting 7 { enabled := .fio :: devicePlls, stable := [.fio] }).advance 0
     Clock.pllMem ∈ a.clk.enabled ∧ Clock.pllMem ∉ a.clk.stable ∧ a.boot.step = 7 ∧ a.dev = .starting) ∧
    (let a := (starting 6 { enabled := [.fio], stable := [.fio] }).advance 0
     Clock.fio ∈ a.clk.stable ∧ monitorTrips (a.nominalKhz .fio) [0, 0] = true ∧ monitorTrips (a.nominalKhz .fio) [0, 12800] = false ∧ 6 ≤ a.boot.step) := by decide

/-- `lockedPart` with the debug port unlocked by response, and `up` with the debug master granted a block of memory. -/
def debugging : State := { up with lay := { access := [(0, { enable := true, read := true, write := true, base := 0, limit := 4096, masters := 2 ^ 41 })] } }

theorem witness_TapRows :
    (up.advance 0).dev ≠ .off ∧ (up.advance 0).pins.resetLow = false ∧ ((held [] true).advance 0).pins.resetLow = true ∧ ((held [] true).advance 0).dev ≠ .off ∧
    (up.advance 0).coreRuns = true ∧ (debugging.access 41 false 4095 1).1 = true ∧
    (up.access 41 false 0xF80000000 1).1 = false ∧ (lockedPart.advance 0).fuses.fieldLocked = true ∧ (lockedPart.advance 0).auth.unlocked = false ∧
    Tab.wf 0#8 up.mem.bytes = true ∧ procOf 10 = some 9 ∧ procOf 2 = none := by decide

/-- No address below on-chip SRAM lies in the source status table, wherever that stands. -/
theorem inStatus_below (k : Nat) (hk : k < 0x1000000000) : inStatus k = false := by
  have : ¬ statusBase ≤ k := by unfold statusBase; omega
  simp [inStatus, this]

theorem witness_TapRows_write : (debugging.access 41 true 0 4096).1 = true := by
  have h : debugging.wired 41 0 4096 = false := by
    unfold State.wired
    rw [inStatus_below 0 (by decide), inStatus_below (0 + 4096 - 1) (by decide)]
    decide
  have hl : debugging.lash 41 true 0 4096 = .allow := by decide
  unfold State.access
  rw [hl, h]
  decide

/-- The first byte of memory or the first after the point table is plain, wherever the table stands. -/
theorem witness_TapRows_plain : ∃ k, inControl k = false ∧ inStatus k = false ∧ (k < up.pointBase ∨ up.pointBase + pointTableBytes ≤ k) ∧
    up.sealAt k = none ∧ up.tprAt k = none ∧ up.bufferAt k = none ∧ up.slotAt k = none := by
  have h := inStatus_below
  by_cases hp : 0 < up.pointBase
  · exact ⟨0, by decide, h 0 (by decide), .inl hp, by decide, by decide, by decide, by decide⟩
  · refine ⟨pointTableBytes, by decide, h _ (by decide), .inr (by omega), by decide, by decide, by decide, by decide⟩

/-! ### The operand checks refuse what does not fit -/

/-- A header whose tag does not fit. -/
def badHdr : CmdHdr := { hdr 0 with tag := 65536 }

theorem test_wf_accepts :
    ([.identify 0 (hdr 0), .readLog 0 (hdr 12) (2 ^ 64 - 1) (2 ^ 32 - 1), .dbConsumer 0 17 (2 ^ 32 - 1), .dbgHalt 0 .halt 10, .railExcursion 0 11,
      .bandRowEmit 0 31 1023 {}, .whipCheckDone 0 55 true, .faultSourceFire 0 { source := 255 }, .clockStable 0 ⟨10, List.replicate 8 75000⟩, .hostPointSlot 0 1 (List.replicate 14 0#8) (List.replicate 48 0#8)] : List Instr).all
      (fun i => i.wf) = true := by decide

theorem test_wf_refuses_headers :
    ([.identify 0 badHdr, .summary 0 badHdr, .reset 0 { hdr 0 with ch := .ring 16 }, .txnOpen 0 { hdr 0 with flags := 256 },
      .clearStartCount 0 { hdr 0 with len := 2 ^ 32 }, .txnAbort 0 { hdr 0 with txn := 2 ^ 32 }, .debugChallenge 0 { hdr 0 with crcCalc := 2 ^ 32 },
      .debugUnlock 0 badHdr true, .fwData 0 (hdr 8) (2 ^ 32) []] : List Instr).any (fun i => i.wf) = false := by decide

theorem test_wf_refuses_parameters :
    ([.readLog 0 (hdr 12) (2 ^ 64) 1, .readLog 0 (hdr 12) 0 (2 ^ 32), .fwBegin 0 (hdr 8) (2 ^ 32), .fwEnd 0 (hdr 0) true (2 ^ 32) 0, .memConfig 0 (hdr 4) 256 0 0,
      .paletteProgram 0 (hdr 44) [], .txnCommit 0 (hdr 8) (2 ^ 64), .objectRead 0 (hdr 12) 65536 0 0 1, .surfacePublish 0 (hdr 24) 65536 0 0 0 0,
      .sourceQuery 0 (hdr 4) 65536 1, .encQuery 0 (hdr 4) 0 256, .pointQuery 0 (hdr 8) (2 ^ 32) 1, .headQuery 0 (hdr 12) 256 0 0 0,
      .counterRead 0 (hdr 4) 256 0 0, .timeAdjust 0 (hdr 24) 0 0 (2 ^ 64) 0, .timeSwitch 0 (hdr 4) 256, .timeStatus 0 (hdr 8) 0 0 (2 ^ 32),
      .whipSet 0 (hdr 36) { len := 2 ^ 32 }, .probeSet 0 (hdr 20) { expect := 2 ^ 32 }, .laneTest 0 (hdr 8) 0 0 (2 ^ 32), .touchBaseline 0 (hdr 4) 256 0,
      .faultQuery 0 (hdr 4) 65536 1, .faultReact 0 (hdr 4) 0 256, .faultRearm 0 (hdr 4) 256, .unitRestore 0 (hdr 4) 65536] : List Instr).any
      (fun i => i.wf) = false := by decide

theorem test_wf_refuses_objects :
    ([.stageDevice 0 (hdr 0) (2 ^ 32) {}, .stageSource 0 (hdr 0) (2 ^ 32) {}, .stageFlow 0 (hdr 0) (2 ^ 32) {}, .stageMac 0 (hdr 0) (2 ^ 32) {},
      .stageDprx 0 (hdr 0) (2 ^ 32) {}, .stageContext 0 (hdr 0) (2 ^ 32) {}, .stageHead 0 (hdr 0) (2 ^ 32) {}, .stageWindow 0 (hdr 0) (2 ^ 32) {},
      .stageEncoder 0 (hdr 0) (2 ^ 32) {}, .stageGlyphs 0 (hdr 0) (2 ^ 32) [], .stageGlyphSet 0 (hdr 0) (2 ^ 32) {}, .stageAtlas 0 (hdr 0) 0 [[]],
      .stageColours 0 (hdr 0) 0 [2 ^ 32], .stageScaler 0 (hdr 0) (2 ^ 32) {}, .stageDesk 0 (hdr 0) (2 ^ 32) {}, .stageQuad 0 (hdr 0) (2 ^ 32) {},
      .stageDomain 0 (hdr 0) (2 ^ 32) {}, .stagePulse 0 (hdr 0) (2 ^ 32) {}, .stageRegulator 0 (hdr 0) (2 ^ 32) {}, .stageAccess 0 (hdr 0) (2 ^ 32) {}] : List Instr).any
      (fun i => i.wf) = false := by decide

theorem test_wf_refuses_events :
    ([.surfaceCopyDone 0 1024 [] true, .baselineFlashWriteDone 0 16, .unitTestDone 0 128 true, .dbProducer 0 19 0 [], .dbConsumer 0 18 0, .ringEnable 0 0 16 0 0 0,
      .ringDisable 0 19, .ringErrClear 0 19, .registerWrite 0 0 4096 0, .bar0StrayWrite 0 (2 ^ 21), .msixModerationExpiry 0 19, .txnExpired 0 (2 ^ 32),
      .wallLineStart 0 { temps := List.replicate 13 0 }, .rasterStart 0 { testFails := [4] }, .ethFrameRx 0 8 .other 0 0 true, .rtpPacketRx 0 { mac := 8 },
      .holeClose 0 1024 0, .frameCloseTimeout 0 1024, .pathDown 0 0 2, .frameSeal 0 1024 [], .dprxFrameStart 0 16 0 0 0, .dprxLinkLoss 0 16, .dprxHpdRelease 0 16,
      .pointDatagramRx 0 { mac := 8 }, .hostPointSlot 0 1 (List.replicate 14 0#8) (List.replicate 49 0#8), .hostPointSlot 0 65536 (List.replicate 14 0#8) (List.replicate 48 0#8), .decodePictureComplete 0 8 {}, .decodeOverrun 0 8 {}, .poolBufferFreed 0 256,
      .encodeRowComplete 0 32 {}, .rowLate 0 32 {}, .encTileRowRead 0 0 16 0 true, .packetLaunch 0 8, .launchSlip 0 8, .tileComputed 0 32 0 false {} {} [],
      .passComplete 0 0 128, .strandSelftestDone 0 2 true, .overlaySurfaceDone 0 32 [], .overlayWindowEnd 0 32, .bandRowFetchDone 0 0 1024, .fetchUrgent 0 32 0,
      .bandRowEmit 0 0 1024 {}, .hpdIrq 0 32, .hpdUnplug 0 32, .hpdAsserted 0 32, .auxReply 0 32 {}, .auxTimeout 0 32, .trainingSuccess 0 ⟨32, []⟩, .trainingSuccess 0 ⟨0, [16]⟩,
      .trainingAttemptFail 0 32, .trainingAttemptTimeout 0 32, .trainingRetry 0 32] : List Instr).any (fun i => i.wf) = false := by decide

theorem test_wf_refuses_units :
    ([.restExitRequest 0 96, .laneIdleExit 0 96, .quadPllLock 0 24, .quadPllLockTimeout 0 24, .quadPllUnlock 0 24, .cdrLoss 0 96, .ptpSyncRx 0 { mac := 8 },
      .followUpRx 0 { domainNum := 128 }, .announceRx 0 { domainNum := 128 }, .delayRespRx 0 { domainNum := 128 }, .delayReqTx 0 2, .mgmtDiscard 0 2, .syncTimeout 0 2,
      .announceTimeout 0 2 0, .holdoverExpiry 0 2, .tpiEdge 0 2 false, .tpoPulse 0 4, .sampleInstantRx 0 16 0 {}, .thimbleMessageRx 0 16 0 0,
      .touchFrameMeasured 0 16 [] 0 0, .deskBlockLock 0 16, .deskInfoReadDone 0 16 {}, .deskStartTimeout 0 16, .deskLinkLoss 0 16, .regulatorRelease 0 24 .other 0,
      .class2Promotion 0 32, .whipCheckDone 0 56 true, .faultSourceFire 0 { source := 256 }, .processorWdogExpiry 0 10, .watchdogKick 0 10, .railExcursion 0 12,
      .fuseLoadDone 0 [8] [], .clockStable 0 ⟨0, []⟩, .clockJudgeTimeout 0 11 none, .clockMonitorFail 0 ⟨0, []⟩, .imageLoaded 0 [3], .memTrainingDone 0 [32], .dbgAccess 0 { addr := 2 ^ 64 },
      .dbgTrace 0 (2 ^ 64) 0, .dbgHalt 0 .halt 11, .ethLinkDown 0 8, .ethBlockLock 0 8, .dprxSymbolLock 0 16, .dprxAuxRequest 0 16 0 0, .scrub 0 32 .clean,
      .processorRestartDone 0 10] : List Instr).any (fun i => i.wf) = false := by decide

theorem test_decode_spells_none : decodeTableWord 0 0 = none ∧ decodeTableWord 32 0 = none := by decide

/-! ### The spec's worked examples -/

/-- Chapter 3: at 60 Hz wall frame 108,000,000,000 begins at 1,800,000,000 s, and its wall line 1,328 begins 5,403.646 µs later. -/
theorem test_wall_line_times :
    lineStartNs 9 108000000000 0 = 1800000000000000000 ∧ lineStartNs 9 108000000000 1328 = 1800000000005403646 := by decide

/-- The heads of chapter 3's example: 2160 lines at 60 and 120 Hz, and 1080 lines. -/
def head5 : HeadCfg := { hActive := 3840, vActive := 2160, vSync := 5, vBp := 85, vFp := 0 }
def head12 : HeadCfg := { head5 with mult := 1, phase := 1024 }
def head9 : HeadCfg := { hActive := 1920, hFp := 88, hSync := 44, hBp := 148, vActive := 1080, vSync := 5, vBp := 36, vFp := 4, phase := 3072 }

/-- Chapter 3: the wall lines of the three heads' points, from the start of wall frame N0, for F = N0 + 2. -/
theorem test_head_points :
    rowBeginPos head5 2 0 0 = 4096 + 3910 ∧ rowBindPos head5 2 0 0 = 8192 + 47 ∧ headStartPos head12 2 0 = 8192 + 1024 ∧ headStartPos head12 2 1 = 8192 + 3072 ∧
    rowBeginPos head12 2 0 0 = 8192 + 931 ∧ rowBindPos head12 2 0 0 = 8192 + 1047 ∧ headStartPos head9 2 0 = 8192 + 3072 ∧
    rowBeginPos head9 2 0 0 = 8192 + 2522 ∧ rowBindPos head9 2 0 0 = 8192 + 2988 := by decide

/-- Chapters 6, 9 and 10: row 0 begins in wall line 3,546 of the frame before; row 8 begins at 1,314 and binds at 1,780; rows 9 to 16 bind at
2,013 to 3,644. -/
theorem test_row_points :
    (let c : HeadCfg := { head9 with phase := 0 }
     rowBeginPos c 1 0 0 = 3546 ∧ rowBeginPos c 0 0 8 = 1314 ∧ rowBindPos c 0 0 8 = 1780 ∧ rowBeginPos c 0 0 9 = 1547 ∧ rowBindPos c 0 0 9 = 2013 ∧
     rowBindPos c 0 0 10 = 2246 ∧ rowBindPos c 0 0 13 = 2945 ∧ rowBindPos c 0 0 16 = 3644 ∧ rowBindPos c 1 0 0 = 4012) := by decide

/-- Chapter 8: 148,500,000 pixel/s, and a line buffer of eight band rows. -/
theorem test_head_rates : pixelRate 9 head9 = 148500000 ∧ lineBufferRows head9 = 8 ∧ vTotal head9 = 1125 := by decide

/-- Chapter 2: 0x0000_7E7D travels as 7D 5D 7D 5E 00 00. -/
theorem test_uart_escape : unescape [0x7D#8, 0x5D#8, 0x7D#8, 0x5E#8, 0#8, 0#8] = some [0x7D#8, 0x7E#8, 0#8, 0#8] := by decide

/-- Chapter 7: the hatched pixel at (1,005, 304) of head frame 7,203 blends (400, 380, 360) with STALE; one frame later it is still on
the stripe, and another frame later it is not. -/
theorem test_stale_blend :
    markPixel factoryPalette 7203 1005 304 [.stale] (400, 380, 360) = (712, 542, 180) ∧
    markPixel factoryPalette 7204 1005 304 [.stale] (400, 380, 360) = (712, 542, 180) ∧
    markPixel factoryPalette 7205 1005 304 [.stale] (400, 380, 360) = (400, 380, 360) ∧
    markPixel factoryPalette 7205 1003 304 [.stale] (400, 380, 360) = (712, 542, 180) := by decide

/-- Chapter 7: the caption texts of R185. -/
theorem test_caption_texts :
    captionText none = [45, 45, 45, 45] ∧ captionText (some 103) = [49, 48, 51, 32, 109, 115] ∧ captionText (some 12499) = [49, 50, 46, 52, 32, 115] ∧
    captionText (some 425000) = [55, 58, 48, 53] ∧ captionText (some 7661000) = [50, 58, 48, 55, 58, 52, 49] := by decide

/-- Chapter 7: window 140's rectangle clips to its own, and its caption occupies x 1,879 to 1,915 and lines 527 to 535. -/
theorem test_caption_place :
    (let p : PolicyEntry := { window := 140, source := 88, rect := { x := 960, y := 0, w := 960, h := 540 }, staleMs := 100, deadMs := 1000, freezeMs := 500,
                              caption := 1, corner := 3, scale := 1 }
     captionTop p = 527 ∧ captionLeft p 6 = 1879) := by decide

/-- Chapter 8: the abort colour is (384, 0, 768). -/
theorem test_abort_colour : paletteAt factoryPalette 5 = (384, 0, 768) := by decide

/-- Chapters 4 and 5: concealed fractions, and the pitch of 4,800 bytes. -/
theorem test_concealed_fractions :
    (let b : FrameBuf := { width := 1920, height := 1080, format := 3 }
     let f := fun (n : Nat) => concealedFraction { buf := 0, capture := 0, captSrc := 0, arrival := 0, concealedPixels := n, concealed := true } b
     f 480 = 1 ∧ f 491520 = 61 ∧ f 688128 = 85 ∧ f 1935360 = 238 ∧ lineBytes 3 1920 = 4800 ∧ pitchOf 3 1920 = 4864) := by decide

/-- Chapter 13: the two buffers on the default map. -/
theorem test_memory_map :
    State.reset.mem.place 0x23A000000 = some (26, 0x13000000) ∧ (State.reset.mem.place 0x23A000800).map (fun x => x.1) = some 27 ∧
    State.reset.mem.place 0x812400000 = some (31, 0x09200000) := by decide

/-- Chapter 10: the context of the floor-mode picture. -/
def floorCfg : EncoderCfg := { codec := 0, width := 1920, height := 1080, div := 2, rc := 0, rate := 8000000, maxRate := 8000000, qpMax := 45, refreshN := 15 }

/-- Chapter 10: 17 rows of 30 columns, a skip size of 32, a budget of 33,333, a floor estimate of 336, columns 12 and 13 at k = 6, and a
filler of 145 bytes that closes the picture. -/
theorem test_floor_picture :
    encCols floorCfg = 30 ∧ encRows floorCfg = 17 ∧ skipSize floorCfg = 32 ∧ encBudget 9 floorCfg 0 = 33333 ∧ floorEstimate floorCfg 1900 30 = 336 ∧
    refreshCols floorCfg 6 = [12, 13] ∧ fillerSize floorCfg { row := 16, spent := 33156, budget := 33333, floor := true } 32 = 145 := by decide

/-- Chapter 11: 850 ns of WALL_RESID slew to zero in 17.000 ms of domain time, at 50 ppm, and not sooner. -/
theorem test_slew :
    ((({ clk with time := { clk.time with resid := 850 * 4294967296 } } : State).advance 8500000).time.resid = 0) ∧
    ((({ clk with time := { clk.time with resid := 850 * 4294967296 } } : State).advance 8499999).time.resid ≠ 0) := by decide

/-- Chapter 12: the finger on DESK3 in frame 20,003, its peak moved to node (4, 1) of a panel of 8 × 4: 0.25 and 0.5 beside the node, and an
area of 3; and the head point of (40.25, 30.5) is (611, 349). -/
theorem test_touch_point :
    (let ds : List Int := List.replicate 8 0 ++ [0, 0, 0, 75, 450, 75, 0, 0] ++ [0, 0, 0, 0, 300, 300, 0, 0] ++ List.replicate 8 0
     centroid {} ds 12 = (4 * 256 + 64, 256 + 128) ∧ areaOf {} ds 12 = 3) ∧
    headPoint { mapA := 15 * 65536, mapC := 491520, mapE := 737280, mapF := 368640 } 10304 7808 = (611, 349) := by decide

/-- Chapter 15: the 56 bytes of STAGE_WINDOW for window 140. -/
def window140Bytes : List Byte :=
  [0x8C, 0, 0, 0, 1, 2, 0x0A, 0, 0x58, 0, 0xFF, 3, 0xC0, 3, 0, 0, 0xC0, 3, 0x1C, 2, 0, 0, 0, 0, 0x80, 7, 0x38, 4, 0, 0, 0, 0,
   0x80, 0, 2, 8, 0, 0, 0, 0, 0x64, 0, 0, 0, 0xE8, 3, 0, 0, 0xF4, 1, 0, 0, 1, 3, 1, 0]

/-- The window that they say. -/
def window140 : WindowCfg :=
  { enable := true, head := 2, layer := 10, source := 88, alpha := 1023, dstX := 960, dstY := 0, dstW := 960, dstH := 540, srcW := 1920, srcH := 1080,
    fill := 0x08020080, filter := 0, staleMs := 100, deadMs := 1000, freezeMs := 500, caption := 1, captionCorner := 3, captionScale := 1 }

theorem test_stage_window_packet : readWindow window140Bytes = window140 := by decide

/-- Chapter 15, step 5: windows 140 and 141 share layer 10 and overlap, and the commit is refused with E_PARAM and DETAIL
0xFFFF_0207_0000_008C; with layer 11 for window 141 it is not refused for that. -/
theorem test_window_overlap :
    (let w141 := fun (n : Nat) => ({ window140 with layer := n, dstX := 1400, dstY := 400, dstW := 300, dstH := 200 } : WindowCfg)
     let t := fun (n : Nat) => ({ id := 1, channel := .uart, staged := [{ obj := .window 140 window140, gen := 0 }, { obj := .window 141 (w141 n), gen := 0 }] } : Txn)
     up.validate (t 10) 0 = .refuse .eParam 0xFFFF02070000008C 0 ∧ up.validate (t 11) 0 ≠ .refuse .eParam 0xFFFF02070000008C 0) := by decide +kernel

/-- Chapter 16, steps 6, 8 and 9: a locked debug port is denied; a read that leaves its entry is denied whole; one inside it is allowed. -/
theorem test_debug_access :
    (let s : State := { lockedPart with lay := { access :=
       [(70, { enable := true, read := true, masters := 2 ^ 38, base := 0x23A000000, limit := 0x23AEF2000 }),
        (71, { enable := true, read := true, masters := 2 ^ 41, base := 0x23A000000, limit := 0x23A4F2000 })] } }
     let u : State := { s with auth := { unlocked := true } }
     s.lash 41 false 0x23A000000 4 = .deny 65 ∧ u.lash 41 false 0x23A4F1F80 256 = .deny 65 ∧ u.lash 41 false 0x23A4F1F80 128 = .allow) := by decide

/-- Chapter 17, steps 2 to 5: DEC3's parity error fences it, takes RUNNING to DEGRADED, and writes FAULT, FENCE and STATE_CHANGE. -/
theorem test_engine_fault :
    ∃ t, exec (.faultSourceFire 0 { source := 35, unit := 35, master := 20, subject := 41 }) up = .next t ∧ t.dev = .degraded ∧ t.flt.fenced = [35] ∧
      t.log.recs.reverse.map (fun e => (e.code, e.subject, e.data % 4294967296)) = [(0x0006, 35, 1), (0x0007, 35, 35), (0x0001, 0, 0x00230504)] ∧
      (t.flt.first.get {} 1).source = 35 ∧ (t.flt.first.get {} 1).master = 20 ∧ (t.flt.first.get {} 1).subject = 41 ∧ (t.flt.first.get {} 1).valid = true :=
  ⟨_, rfl, by decide⟩

/-- Chapter 18, step 3: sixteen readings of code 68 give choice 1. -/
theorem test_strap : strapDecode (List.replicate 16 68) = some 1 ∧ strapDecode (List.replicate 15 68 ++ [500]) = none := by decide

/-- Reset: the device is OFF, in power-on reset, with the default device object, no raster and no open transaction (R50, R352). -/
theorem test_reset :
    State.reset.dev = .off ∧ State.reset.boot.step = 0 ∧ State.reset.lay = {} ∧ State.reset.raster.run = false ∧ State.reset.txns.open_ = [] ∧
    State.reset.txns.next = 1 ∧ State.reset.counters = [] ∧ State.reset.pending = [] := by decide
end Sys2Proof.Tests
end

section
/-! PROOF. A head emits source content only in LIVE (R3, O8). Two facts carry it. Every row but BAND_ROW_EMIT leaves a head's lines on
their way as they were, dims them, or drops them. BAND_ROW_EMIT gives new lines to its own head alone, and what those pixels are follows
from what a head emits in its state (R53): `emission_of_draws` says it once. -/

namespace Sys2Proof.Machine

open Sys2Proof

/-- A head `r` whose lines on their way are those of `a`, but for lines that have gone dark; or none. -/
def ShownHead (a r : HeadRt) : Prop := r.lit = [] ∨ (r.glassBand = a.glassBand ∧ Dims a.glassBand a.lit r.lit)

/-- Head `r` has the pixels `p` of band row `j` on its way, but for lines that have gone dark; or none of them. -/
def Carries (c : HeadCfg) (j : Nat) (p : Nat → Nat → Rgb) (r : HeadRt) : Prop :=
  r.glassBand = j ∧ Dims j ((bandLines c j).map (fun y => (List.range c.hActive).map (fun z => p z y))) r.lit

/-- The pixels that head `h` may send of band row `j` from state `u`: judged content only in LIVE, and patterns of the hardware otherwise. -/
def MaySend (u : State) (h j : Nat) (p : Nat → Nat → Rgb) : Prop :=
  (u.headRt h).state ≠ .down ∧ (u.headRt h).state ≠ .training ∧
  (((u.headRt h).state = .live ∧ bandKey (u.headRt h).frame (u.headRt h).half j ∈ (u.headRt h).fetched ∧ u.dev ≠ .safe ∧
      u.isFenced (46 + h / 8) = false) ∨
    ((u.dev = .safe ∨ u.isFenced (46 + h / 8) = true) ∧ p = deadPixel u.boot.palette) ∨
    ((u.headRt h).state = .starting ∧ p = startingPixel u.boot.palette h (u.headRt h).n) ∨
    (((u.headRt h).state = .live ∨ (u.headRt h).state = .aborted) ∧ p = fun _ _ => paletteAt u.boot.palette 5))

/-! ### What every row keeps of the lines on their way -/

/-- Lines shown from one state to the next are shown throughout. -/
theorem ShownHead.trans {a b c : HeadRt} (h : ShownHead a b) (k : ShownHead b c) : ShownHead a c := by
  rcases k with k | ⟨hg, hd⟩
  · exact .inl k
  · rcases h with h | ⟨hg', hd'⟩
    · rw [h] at hd
      rcases hd with hd | ⟨hlen, -⟩
      · exact .inl hd
      · exact .inl (List.length_eq_zero_iff.1 hlen)
    · exact .inr ⟨hg.trans hg', dims_trans hd' (hg' ▸ hd)⟩

/-- Lines of a band row that dim, or go, are still that band row's. -/
theorem Carries.shown {c : HeadCfg} {j : Nat} {p : Nat → Nat → Rgb} {a r : HeadRt} (h : Carries c j p a) (k : ShownHead a r) :
    r.lit = [] ∨ Carries c j p r := by
  obtain ⟨rfl, hd⟩ := h
  exact k.imp_right fun ⟨hg, hd'⟩ => ⟨hg, dims_trans hd hd'⟩

/-- What an operation keeps, said of one head. -/
theorem Keeps.shown {a t : State} (h : Keeps a t) (hw : a.heads.wf {} = true) : t.heads.wf {} = true ∧ ∀ k, ShownHead (a.headRt k) (t.headRt k) :=
  h.2 hw

/-- FUSE_LOAD_DONE shows what was on its way. -/
theorem shown_fuseLoadDone {dt : Nat} {b r : List Nat} {s t : State} (h : exec (.fuseLoadDone dt b r) s = .next t) : ShownTab s.heads t.heads := by
  rcases exec_keeps_fuseLoad h with hk | ⟨-, hk⟩ <;> exact hk.2

/-- WALL_LINE_START shows what was on its way. -/
theorem shown_wallLineStart {dt : Nat} {o : LineObs} {s t : State} (h : exec (.wallLineStart dt o) s = .next t) : ShownTab s.heads t.heads := by
  have ht : (s.advance dt).wallLine o = t := by injection h
  subst ht
  rcases State.keeps_wallLine o (s.advance dt) with he | ⟨-, hk⟩
  · exact shown_of_eq (a := (s.advance dt).heads) (congrArg State.heads he)
  · exact hk.2

/-- RASTER_START shows what was on its way. -/
theorem shown_rasterStart {dt : Nat} {o : LineObs} {s t : State} (h : exec (.rasterStart dt o) s = .next t) : ShownTab s.heads t.heads := by
  have ht : (s.advance dt).rasterBegin o = t := by injection h
  subst ht
  rcases State.keeps_rasterBegin o (s.advance dt) with he | ⟨-, -, u, r, hu, -, hk⟩
  · exact shown_of_eq (a := (s.advance dt).heads) (congrArg State.heads he)
  · exact shown_trans hu.2 hk.2

/-- Every row but BAND_ROW_EMIT shows what was on its way. -/
theorem exec_shown {i : Instr} {s t : State} (hb : ∀ dt k j o, i ≠ .bandRowEmit dt k j o) (h : exec i s = .next t) : ShownTab s.heads t.heads := by
  by_cases hf : ∃ dt b r, i = .fuseLoadDone dt b r
  · obtain ⟨dt, b, r, rfl⟩ := hf
    exact shown_fuseLoadDone h
  · by_cases hl : ∃ dt o, i = .wallLineStart dt o
    · obtain ⟨dt, o, rfl⟩ := hl
      exact shown_wallLineStart h
    · by_cases hr : ∃ dt o, i = .rasterStart dt o
      · obtain ⟨dt, o, rfl⟩ := hr
        exact shown_rasterStart h
      · exact (exec_keeps (fun dt b r e => hf ⟨dt, b, r, e⟩) (fun dt o e => hl ⟨dt, o, e⟩) (fun dt o e => hr ⟨dt, o, e⟩) hb h).2

/-! ### What BAND_ROW_EMIT sends -/

/-- A head that draws emits what its state calls for (R53, R190, R207): content in LIVE alone, and DEAD in SAFE or with its unit fenced. -/
theorem emission_of_draws {u : State} {h : Nat} (hd : (u.emission h).draws = true) :
    (u.emission h = .live ∧ (u.headRt h).state = .live ∧ u.dev ≠ .safe ∧ u.isFenced (46 + h / 8) = false) ∨
    (u.emission h = .dead ∧ (u.headRt h).state ≠ .down ∧ (u.headRt h).state ≠ .training ∧ (u.dev = .safe ∨ u.isFenced (46 + h / 8) = true)) ∨
    (u.emission h = .starting ∧ (u.headRt h).state = .starting) ∨
    (u.emission h = .abort ∧ (u.headRt h).state = .aborted) := by
  have hdead : (decide (u.dev = .safe) || u.isFenced (46 + stopUnitOf h)) = true ↔ u.dev = .safe ∨ u.isFenced (46 + h / 8) = true := by
    simp [stopUnitOf]
  unfold State.emission at *
  dsimp only at *
  generalize (decide (u.dev = .safe) || u.isFenced (46 + stopUnitOf h)) = dead at *
  cases hst : (u.headRt h).state <;> rw [hst] at hd
  case down | training => cases hd
  case starting =>
    dsimp only at hd ⊢
    cases hi : (u.headRt h).idle
    · cases dead
      · exact .inr (.inr (.inl ⟨rfl, rfl⟩))
      · exact .inr (.inl ⟨rfl, by simp, by simp, hdead.1 rfl⟩)
    · rw [hi] at hd; cases hd
  case live =>
    cases dead
    · exact .inl ⟨rfl, rfl, by simpa using hdead⟩
    · exact .inr (.inl ⟨rfl, by simp, by simp, hdead.1 rfl⟩)
  case aborted =>
    cases dead
    · exact .inr (.inr (.inr ⟨rfl, rfl⟩))
    · exact .inr (.inl ⟨rfl, by simp, by simp, hdead.1 rfl⟩)

/-- Where only heads, the Stopper and counters have changed, the device state, the palette and the fences stand. -/
theorem HScFrame.dev_boot_flt {s u : State} (h : HScFrame s u) : u.dev = s.dev ∧ u.boot = s.boot ∧ u.flt = s.flt :=
  ⟨(congrArg State.dev h :), (congrArg State.boot h :), (congrArg State.flt h :)⟩

/-- The pixels of a band row that is due, drawn once an underrun of it has been noted (R205), are such as its head may send. -/
theorem maySend_of_emission {s u : State} {h j : Nat} (caps : Tab Caption) (vs : List TileView) (hf : HScFrame s u)
    (hn : (u.headRt h).n = (s.headRt h).n)
    (hst : (u.headRt h).state = if (s.headRt h).state = .live ∧ bandKey (s.headRt h).frame (s.headRt h).half j ∉ (s.headRt h).fetched then .aborted
      else (s.headRt h).state)
    (hd : (u.emission h).draws = true) :
    MaySend s h j (emittedPixel u.boot.palette h (u.headRt h) caps vs (u.emission h)) := by
  obtain ⟨hdev, hboot, hflt⟩ := hf.dev_boot_flt
  have hfen : u.isFenced (46 + h / 8) = s.isFenced (46 + h / 8) := by unfold State.isFenced; rw [hflt]
  rw [hboot]
  unfold MaySend
  rcases emission_of_draws hd with ⟨he, hl, hs, hok⟩ | ⟨he, hdn, htr, hsafe⟩ | ⟨he, hl⟩ | ⟨he, hl⟩ <;> rw [he]
  · rw [hst] at hl
    split at hl
    · cases hl
    · next hu =>
      have hin := not_not.1 fun hm => hu ⟨hl, hm⟩
      exact ⟨by simp [hl], by simp [hl], .inl ⟨hl, hin, hdev ▸ hs, hfen ▸ hok⟩⟩
  · rw [hst] at hdn htr
    refine ⟨fun h0 => hdn ?_, fun h0 => htr ?_, .inr (.inl ⟨hdev ▸ hfen ▸ hsafe, rfl⟩)⟩ <;> simp [h0]
  · rw [hst] at hl
    split at hl
    · cases hl
    · exact ⟨by simp [hl], by simp [hl], .inr (.inr (.inl ⟨hl, hn ▸ rfl⟩))⟩
  · rw [hst] at hl
    split at hl
    · next hu => exact ⟨by simp [hu.1], by simp [hu.1], .inr (.inr (.inr ⟨.inl hu.1, rfl⟩))⟩
    · exact ⟨by simp [hl], by simp [hl], .inr (.inr (.inr ⟨.inr hl, rfl⟩))⟩

/-- Sending a band row gives its head lines that it may send, and shows in every other head what was on its way. -/
theorem sendBand_shows {w : State} {h j : Nat} (o : BandObs) (hw : w.heads.wf {} = true) (hd : w.bandDue h j = true) :
    (w.sendBand h j o).heads.wf {} = true ∧ (∀ k, k ≠ h → ShownHead (w.headRt k) ((w.sendBand h j o).headRt k)) ∧
    (((w.sendBand h j o).headRt h).lit = [] ∨ ∃ p, Carries (w.headRt h).cfg j p ((w.sendBand h j o).headRt h) ∧ MaySend w h j p) := by
  obtain ⟨u, vs, hf, hwu, hother, hcfg, hn, -, hst, hdr, hk⟩ := sendBand_shape h j o w hw hd
  obtain ⟨hwv, hrest, hband, hlit⟩ := emitLines_shows h j vs u hwu
  obtain ⟨hwt, hshown⟩ := hk.shown hwv
  have hc : Carries (w.headRt h).cfg j (emittedPixel u.boot.palette h (u.headRt h) u.stop.captions vs (u.emission h))
      ((u.emitLines h j vs).headRt h) := ⟨hband, by rw [hlit, hcfg]; exact dims_refl _ _⟩
  refine ⟨hwt, fun k hne => ?_, (hc.shown (hshown h)).imp_right fun hc => ⟨_, hc, maySend_of_emission _ _ hf hn hst hdr⟩⟩
  have := hshown k
  rwa [hrest k hne, hother k hne] at this

/-- The band row that is due is the head's next one. -/
theorem eq_emitted_of_bandDue {s : State} {h j : Nat} (hd : s.bandDue h j = true) : j = (s.headRt h).emitted := by
  unfold State.bandDue at hd
  simp only [Bool.and_eq_true, decide_eq_true_eq] at hd
  obtain ⟨⟨⟨-, hj⟩, -⟩, -⟩ := hd
  exact hj

/-- BAND_ROW_EMIT shows in each head what was on its way, or gives its own head the lines of its next band row, which it may send. -/
theorem bandEmit_shows (k j : Nat) (o : BandObs) {a : State} (hw : a.heads.wf {} = true) :
    (a.bandEmit k j o).heads.wf {} = true ∧ ∀ h, ShownHead (a.headRt h) ((a.bandEmit k j o).headRt h) ∨
      (h = k ∧ ∃ u p, u = (a.ownFrame k j).passLines k ∧ j = (u.headRt k).emitted ∧ Carries (u.headRt k).cfg j p ((a.bandEmit k j o).headRt k) ∧
        MaySend u k j p) := by
  rcases State.bandEmit_cases k j o a with hk | ⟨-, hdue, he, hk⟩
  · exact (hk.shown hw).imp_right fun hs h => .inl (hs h)
  · obtain ⟨hwu, hs⟩ := hk.shown hw
    obtain ⟨hwt, hrest, hown⟩ := sendBand_shows o hwu hdue
    rw [he]
    refine ⟨hwt, fun h => ?_⟩
    by_cases hk' : h = k
    · subst hk'
      rcases hown with hnil | ⟨p, hc, hp⟩
      · exact .inl (.inl hnil)
      · exact .inr ⟨rfl, _, p, rfl, eq_emitted_of_bandDue hdue, hc, hp⟩
    · exact .inl ((hs h).trans (hrest h hk'))

/-- Settles O8: BAND_ROW_EMIT by `bandEmit_shows`, every other row by `exec_shown`. The one new band row is the head's next, and its pixels are
those that its state calls for. -/
theorem contentOnlyLive : Obligations.ContentOnlyLive := by
  intro i s t hw h
  by_cases hb : ∃ dt k j o, i = .bandRowEmit dt k j o
  · obtain ⟨dt, k, j, o, rfl⟩ := hb
    have ht : (s.advance dt).bandEmit k j o = t := by injection h
    subst ht
    obtain ⟨hwt, hs⟩ := bandEmit_shows k j o (a := s.advance dt) hw
    refine ⟨hwt, fun n => ?_⟩
    rcases hs n with (hnil | hkeep) | ⟨rfl, u, p, hu, hj, ⟨hband, hlit⟩, hdn, htr, hp⟩
    · exact .inl hnil
    · exact .inr (.inl hkeep)
    · exact .inr (.inr ⟨dt, j, o, u, u.headRt n, p, rfl, hu, rfl, hj, hband, hlit, hdn, htr, hp⟩)
  · obtain ⟨hwt, hs⟩ := exec_shown (fun dt k j o e => hb ⟨dt, k, j, o, e⟩) h hw
    exact ⟨hwt, fun k => (hs k).imp_right .inl⟩

end Sys2Proof.Machine
end

section
/-! PROOF. The address map is one to one (R290, R293, R294, O55). An address of device memory lies in the reserve window, or it has a
general-region address A_g. `place` is one to one on each part, and the channels tell the two parts apart. -/

namespace Sys2Proof.Machine

open Sys2Proof

/-- `a` lies in the general region, on one side of the reserve window or the other, and `g` is its A_g (R293). -/
def GeneralAddr (a g : Nat) : Prop := a < 0x800000000 ∧ g = a ∨ 0x8F8000000 ≤ a ∧ a < 0xF80000000 ∧ g = a - 0xF8000000

/-- A_g names one address of the general region. -/
theorem GeneralAddr.inj {a b g : Nat} (ha : GeneralAddr a g) (hb : GeneralAddr b g) : a = b := by
  unfold GeneralAddr at ha hb; omega

/-- The general region lies in device memory, outside the reserve window. -/
theorem GeneralAddr.range {a g : Nat} (h : GeneralAddr a g) : a < 0xF80000000 ∧ ¬ (0x800000000 ≤ a ∧ a < 0x8F8000000) := by
  unfold GeneralAddr at h; omega

/-- An address of device memory that is not in the reserve window is in the general region. -/
theorem window_or_generalAddr {a : Nat} (h : a < 0xF80000000) : (0x800000000 ≤ a ∧ a < 0x8F8000000) ∨ ∃ g, GeneralAddr a g := by
  rcases Nat.lt_or_ge a 0x800000000 with hlow | hlow
  · exact .inr ⟨a, .inl ⟨hlow, rfl⟩⟩
  · rcases Nat.lt_or_ge a 0x8F8000000 with hin | hhigh
    · exact .inl ⟨hlow, hin⟩
    · exact .inr ⟨_, .inr ⟨hhigh, h, rfl⟩⟩

/-! ### What `place` gives in each part -/

/-- An address of the reserve window goes by R294. -/
theorem place_of_window (m : Mem) {a : Nat} (hw : 0x800000000 ≤ a ∧ a < 0x8F8000000) : m.place a = some (m.reserve (a - 0x800000000)) := by
  rcases place_cases m a (by omega) with ⟨-, -, hp⟩ | ⟨hlow, -⟩ | ⟨hhigh, -⟩
  · exact hp
  · omega
  · omega

/-- An address of the general region goes by R293. -/
theorem place_of_generalAddr (m : Mem) {a g : Nat} (hg : GeneralAddr a g) : m.place a = some (m.general g) := by
  rcases place_cases m a hg.range.1 with ⟨hlow, hhigh, -⟩ | ⟨hlow, hp⟩ | ⟨hhigh, hp⟩
  · exact absurd ⟨hlow, hhigh⟩ hg.range.2
  · obtain ⟨-, rfl⟩ | ⟨hhigh, -, -⟩ := hg
    · exact hp
    · omega
  · obtain ⟨hlow, -⟩ | ⟨-, -, hgap⟩ := hg
    · omega
    · rw [hgap]; exact hp

/-- An address beyond 62 GiB has no place (R290). -/
theorem place_of_beyond (m : Mem) {a : Nat} (h : 0xF80000000 ≤ a) : m.place a = none := by
  simp [Mem.place, inMemory, h]

/-! ### The channels, and that no two addresses share a place -/

/-- Every address of device memory has a place: on C30 or C31 in the reserve window, on C0 to C29 elsewhere. -/
theorem place_channel (m : Mem) {a : Nat} (h : a < 0xF80000000) :
    ∃ c l, m.place a = some (c, l) ∧ (if 0x800000000 ≤ a ∧ a < 0x8F8000000 then 30 ≤ c ∧ c < 32 else c < 30) := by
  rcases window_or_generalAddr h with hw | ⟨g, hg⟩
  · exact ⟨_, _, place_of_window m hw, by rw [if_pos hw]; exact reserve_lt m _⟩
  · exact ⟨_, _, place_of_generalAddr m hg, by rw [if_neg hg.range.2]; exact general_lt m g⟩

/-- A place of the reserve window is none of the general region: their channels differ. -/
theorem reserve_ne_general (m : Mem) (r g : Nat) : m.reserve r ≠ m.general g := by
  intro h
  have hr : 30 ≤ (m.general g).1 := h ▸ (reserve_lt m r).1
  exact absurd (general_lt m g) (Nat.not_lt.mpr hr)

/-- No two addresses of device memory share a place. -/
theorem place_inj (m : Mem) {a b : Nat} (ha : a < 0xF80000000) (hb : b < 0xF80000000) (h : m.place a = m.place b) : a = b := by
  rcases window_or_generalAddr ha with hwa | ⟨ga, hga⟩ <;> rcases window_or_generalAddr hb with hwb | ⟨gb, hgb⟩
  · rw [place_of_window m hwa, place_of_window m hwb] at h
    have := reserve_inj m _ _ (Option.some.inj h)
    omega
  · rw [place_of_window m hwa, place_of_generalAddr m hgb] at h
    exact absurd (Option.some.inj h) (reserve_ne_general m _ _)
  · rw [place_of_generalAddr m hga, place_of_window m hwb] at h
    exact absurd (Option.some.inj h).symm (reserve_ne_general m _ _)
  · rw [place_of_generalAddr m hga, place_of_generalAddr m hgb] at h
    cases general_inj m _ _ (Option.some.inj h)
    exact hga.inj hgb

/-- Settles O55: what `place` gives in the window and in the general region, its channels, that it is one to one, and where it ends. -/
theorem addressMapOneToOne : Obligations.AddressMapOneToOne := by
  intro m G fold hG hfold
  -- the statement writes out the grain of R292 and the fold of R293
  obtain rfl : G = m.grainBytes := hG
  obtain rfl : fold = m.fold := hfold
  refine ⟨?window, ?general, fun a h => place_channel m h, fun a b ha hb h => place_inj m ha hb h, fun a h => place_of_beyond m h⟩
  case window =>
    rintro a k q hlow hhigh rfl rfl
    exact place_of_window m ⟨hlow, hhigh⟩
  case general =>
    rintro a g k q s hg rfl rfl rfl
    exact place_of_generalAddr m hg

end Sys2Proof.Machine
end

section
/-! PROOF. What every row keeps (O1 to O7). `exec_stays` says it of every row but FUSE_LOAD_DONE, WALL_LINE_START and RASTER_START; the laws of these three
say what they set beyond it. -/

namespace Sys2Proof.Machine

open Sys2Proof

/-! ### One row, one step -/

/-- Every row answers a next state. -/
theorem neverStops (i : Instr) : NeverStops i := by
  intro s
  cases i <;> exact ⟨_, rfl⟩

/-- A row keeps, from the state in which its ticks have passed; or it is FUSE_LOAD_DONE that takes the start on to step 3, WALL_LINE_START that takes
the raster to its next line, or RASTER_START that starts a raster that stands at line 0. -/
theorem exec_cases {i : Instr} {s t : State} (h : exec i s = .next t) :
    Stays (s.advance i.ticks) t ∨
    (s.dev = .starting ∧ Stays { s.advance i.ticks with boot := { s.boot with step := 3 } } t) ∨
    (∃ dt o, i = .wallLineStart dt o ∧ s.raster.run = true ∧
      Stays { s.advance dt with raster := { s.raster with frame := s.raster.next.1, line := s.raster.next.2 } } t) ∨
    (∃ dt o u r, i = .rasterStart dt o ∧ s.raster.run = false ∧ s.boot.step = 11 ∧ Stays (s.advance dt) u ∧ r.line = 0 ∧
      Stays { u with raster := r } t) := by
  by_cases hf : ∃ dt b r, i = .fuseLoadDone dt b r
  · obtain ⟨dt, b, r, rfl⟩ := hf
    exact (exec_keeps_fuseLoad h).imp And.left fun ⟨hd, hk⟩ => .inl ⟨hd, hk.1⟩
  by_cases hw : ∃ dt o, i = .wallLineStart dt o
  · obtain ⟨dt, o, rfl⟩ := hw
    have ht : (s.advance dt).wallLine o = t := by injection h
    subst ht
    rcases State.keeps_wallLine o (s.advance dt) with he | ⟨hrun, hk⟩
    · exact .inl (he.symm ▸ (keeps_refl _).1)
    · exact .inr (.inr (.inl ⟨dt, o, rfl, hrun, hk.1⟩))
  by_cases hr : ∃ dt o, i = .rasterStart dt o
  · obtain ⟨dt, o, rfl⟩ := hr
    have ht : (s.advance dt).rasterBegin o = t := by injection h
    subst ht
    rcases State.keeps_rasterBegin o (s.advance dt) with he | ⟨hrun, hstep, u, r, hu, hline, hk⟩
    · exact .inl (he.symm ▸ (keeps_refl _).1)
    · exact .inr (.inr (.inr ⟨dt, o, u, r, rfl, hrun, hstep, hu.1, hline, hk.1⟩))
  · exact .inl (exec_stays (fun dt b r e => hf ⟨dt, b, r, e⟩) (fun dt o e => hw ⟨dt, o, e⟩) (fun dt o e => hr ⟨dt, o, e⟩) h)

/-- A step is an idle tick, or runs the row in front on the state that holds the rest of the queue. -/
theorem step_cases {s t : State} (h : step s = .next t) :
    t = s.advance 1 ∨ ∃ (c : Instr) (rest : List Instr), exec c { s with pending := rest } = .next t := by
  unfold step at h
  split at h
  · exact .inl (by injection h with h; exact h.symm)
  · next c rest _ => exact .inr ⟨c, rest, h⟩

/-- Settles O1: a step is defined by the two forms of the queue; of an idle tick, time is all that passes. -/
theorem stepTakesFront : Obligations.StepTakesFront := by
  intro s
  refine ⟨fun c rest => rfl, fun hq => ⟨?_, advance_upTicks s 1, rfl⟩⟩
  unfold step
  rw [hq]

/-- Settles O2: every row answers, and each case of `exec_cases` keeps the queue and the ticks that have passed. -/
theorem everyRowAnswers : Obligations.EveryRowAnswers := by
  intro i
  refine ⟨neverStops i, fun s t h => ?_⟩
  rcases exec_cases h with ⟨hq, ht, -⟩ | ⟨-, hq, ht, -⟩ | ⟨dt, o, rfl, -, hq, ht, -⟩ | ⟨dt, o, u, r, rfl, -, -, ⟨hq, ht, -⟩, -, hq', ht', -⟩
  · exact ⟨hq, ht.trans (advance_upTicks s _)⟩
  · exact ⟨hq, ht.trans (advance_upTicks s _)⟩
  · exact ⟨hq, ht.trans (advance_upTicks s _)⟩
  · exact ⟨hq'.trans hq, ht'.trans (ht.trans (advance_upTicks s _))⟩

/-! ### Soundness -/

/-- Settles O3: the stores stand empty in power-on reset. -/
theorem soundAtReset : Obligations.SoundAtReset where
  opened_le := Nat.zero_le _
  staged_le _ h := absurd h List.not_mem_nil
  versions_le := Nat.zero_le _
  versions_rise := rfl
  recs_le := Nat.zero_le _
  line_lt := Nat.succ_pos _
  bytes_wf := rfl
  counters_wf := rfl
  counters_le _ h := absurd h List.not_mem_nil

/-- The line after one of 4,096 is one of 4,096 (R67). -/
theorem Raster.next_line_lt {r : Raster} (h : r.line < 4096) : r.next.2 < 4096 := by
  unfold Raster.next
  split
  · exact Nat.succ_pos _
  · dsimp only; omega

/-- Soundness depends on the raster for its line alone. -/
theorem State.Sound.of_line {s : State} (h : s.Sound) {r : Raster} (hr : r.line < 4096) : State.Sound { s with raster := r } :=
  have h : SoundParts _ _ _ _ _ _ := h
  { h with line_lt := hr }

/-- Every row keeps soundness. -/
theorem exec_sound {i : Instr} {s t : State} (hs : s.Sound) (h : exec i s = .next t) : t.Sound := by
  rcases exec_cases h with ⟨-, -, -, -, -, -, hk⟩ | ⟨-, -, -, -, -, -, -, hk⟩ | ⟨dt, o, -, -, -, -, -, -, -, -, hk⟩ |
    ⟨dt, o, u, r, -, -, -, ⟨-, -, -, -, -, -, hu⟩, hr, -, -, -, -, -, -, hk⟩
  · exact hk hs
  · exact hk hs
  · exact hk (State.Sound.of_line (s := s.advance dt) hs (Raster.next_line_lt hs.line_lt))
  · exact hk ((hu hs).of_line (by omega))

/-- Settles O4: an idle tick leaves every store as it is, and every row keeps soundness. -/
theorem soundKept : Obligations.SoundKept := by
  intro s t hs h
  rcases step_cases h with rfl | ⟨c, rest, hc⟩
  · exact hs
  · exact exec_sound (s := { s with pending := rest }) hs hc

/-! ### The wall position, fuses, and the device state -/

/-- Settles O5: WALL_LINE_START and RASTER_START are the two cases of `exec_cases` that set the position; nothing else moves it while the raster runs. -/
theorem wallPosition : Obligations.WallPosition := by
  intro i s t h hrun
  rcases exec_cases h with ⟨-, -, hk, -⟩ | ⟨-, -, -, hk, -⟩ | ⟨dt, o, rfl, hs, -, -, hk, -⟩ | ⟨dt, o, u, r, rfl, hs, -, -, hr, -, -, hk, -⟩
  · exact .inl (hk hrun)
  · exact .inl (hk hrun)
  · obtain ⟨-, hframe, hline⟩ := hk hrun
    exact .inr (.inl ⟨dt, o, rfl, hs, Prod.ext hframe hline⟩)
  · obtain ⟨-, -, hline⟩ := hk hrun
    exact .inr (.inr ⟨dt, o, rfl, hs, hline.trans hr⟩)

/-- What fuses hold for good stands from one set of fuses to the next. -/
def FusesStand (f g : Fuses) : Prop :=
  g.fieldLocked = f.fieldLocked ∧ g.dieId = f.dieId ∧ g.pinFactory = f.pinFactory ∧ g.paletteFactory = f.paletteFactory ∧
    (f.paletteProgrammed = true → g.paletteProgrammed = true)

/-- Fuses that stand twice stand throughout. -/
theorem FusesStand.trans {f g h : Fuses} (hfg : FusesStand f g) (hgh : FusesStand g h) : FusesStand f h := by
  obtain ⟨hl, hd, hp, hf, hb⟩ := hfg
  obtain ⟨kl, kd, kp, kf, kb⟩ := hgh
  exact ⟨kl.trans hl, kd.trans hd, kp.trans hp, kf.trans hf, fun h => kb (hb h)⟩

/-- Every row lets the fuses stand. -/
theorem exec_fusesStand {i : Instr} {s t : State} (h : exec i s = .next t) : FusesStand s.fuses t.fuses := by
  rcases exec_cases h with ⟨-, -, -, hk, -⟩ | ⟨-, -, -, -, hk, -⟩ | ⟨dt, o, -, -, -, -, -, hk, -⟩ | ⟨dt, o, u, r, -, -, -, ⟨-, -, -, hu, -⟩, -, -, -, -, hk, -⟩
  · exact hk
  · exact hk
  · exact hk
  · exact FusesStand.trans hu hk

/-- Settles O6: an idle tick leaves the fuses, and every row lets them stand. -/
theorem fusesLast : Obligations.FusesLast := by
  intro s t h
  rcases step_cases h with rfl | ⟨c, rest, hc⟩
  · exact ⟨rfl, rfl, rfl, rfl, id⟩
  · exact exec_fusesStand (s := { s with pending := rest }) hc

/-- From `a` to `s` a started device stays started and SAFE stays SAFE, or the start has begun anew. -/
def SettledStays (a s : State) : Prop := (s.Settled ∧ (a.dev = .safe → s.dev = .safe)) ∨ s.boot.step ≤ 2

/-- What stays settled twice stays settled throughout, where a start that has begun anew does not end. -/
theorem SettledStays.trans {a b c : State} (hab : SettledStays a b) (hstep : b.boot.step ≤ 2 → c.boot.step ≤ 2) (hbc : b.Settled → SettledStays b c) :
    SettledStays a c := by
  rcases hab with ⟨hb, hsafe⟩ | hb
  · exact (hbc hb).imp_left fun ⟨hc, hsafe'⟩ => ⟨hc, fun h => hsafe' (hsafe h)⟩
  · exact .inr (hstep hb)

/-- Every row keeps a settled device settled, or begins its start anew. -/
theorem exec_settledStays {i : Instr} {s t : State} (hs : s.Settled) (h : exec i s = .next t) : SettledStays s t := by
  rcases exec_cases h with ⟨-, -, -, -, -, hk, -⟩ | ⟨hd, -⟩ | ⟨dt, o, -, -, -, -, -, -, -, hk, -⟩ |
    ⟨dt, o, u, r, -, -, -, ⟨-, -, -, -, -, hu, -⟩, -, -, -, -, -, hstep, hk, -⟩
  · exact hk hs
  · obtain ⟨-, -, hdev⟩ := hs
    rw [hd] at hdev
    simp at hdev
  · exact hk hs
  · exact SettledStays.trans (b := u) (hu hs) hstep hk

/-- Settles O7: an idle tick leaves the device as it is, and every row keeps it settled or begins its start anew. -/
theorem safeHolds : Obligations.SafeHolds := by
  intro s t hs h
  rcases step_cases h with rfl | ⟨c, rest, hc⟩
  · exact .inl ⟨hs, id⟩
  · exact exec_settledStays (s := { s with pending := rest }) hs hc

end Sys2Proof.Machine
end

section
/-! PROOF. Commands, replies, events and counters (O9 to O13): the checks of R39 in their order, what every command row does with them, and what a reply,
an event and a count change. -/

namespace Sys2Proof.Machine

open Sys2Proof

/-! ### Admission (R39) -/

/-- The answer of the first check of a list that fails; none fails in an empty list. -/
def firstFailed (checks : List (Bool × Admit)) : Admit :=
  ((checks.find? (fun x : Bool × Admit => x.1)).map (fun x : Bool × Admit => x.2)).getD .run

/-- A check that fails answers; one that holds leaves it to those after it. -/
theorem firstFailed_cons (b : Bool) (x : Admit) (l : List (Bool × Admit)) : firstFailed ((b, x) :: l) = if b then x else firstFailed l := by
  unfold firstFailed
  cases b <;> rfl

/-- Settles O9: both sides are the same chain of conditions, but for the reserved field and the parameter, which the model takes together. -/
theorem admissionOrder : Obligations.AdmissionOrder := by
  rintro s k c bad hr ho hh hv checks rfl
  change s.admission k c bad = firstFailed _
  unfold State.admission
  simp only [firstFailed_cons, hr, ho, hh, hv, testBit_zero_eq, flagsDetail, Bool.not_true, Bool.and_false, Bool.or_false, Bool.false_eq_true, if_false,
    Bool.or_eq_true, decide_eq_true_eq]
  cases c.rsvAt <;> cases bad <;> rfl

/-- Every command row serves its command: the checks of R39 with the row's R338 entry, and a body. -/
theorem exec_serves {i : Instr} {c : CmdHdr} {k : CmdSpec} (s : State) (hc : i.header = some c) (hk : i.spec = some k) :
    ∃ bad body, exec i s = .next ((s.advance i.ticks).serve k c bad body) := by
  cases i <;> cases hc <;> cases hk <;> exact ⟨_, _, rfl⟩

/-- Settles O10: every command row serves its command, and a command that waits or is turned away does no more than `serve` says. -/
theorem refusalOnlyReplies : Obligations.RefusalOnlyReplies := by
  intro i c k s hc hk
  obtain ⟨bad, body, he⟩ := exec_serves s hc hk
  rw [he]
  refine ⟨fun hw => by rw [serve_of_wait hw], fun st d hr => ?_⟩
  obtain ⟨st', d', hst, hs⟩ := serve_of_refuse hr
  exact ⟨st', d', hst, by rw [hs]⟩

/-! ### Replies (R37, R38, R42, R44, R47) -/

/-- Writing slots records no reply of its own. -/
theorem wroteSlots_replies (n k : Nat) (bs : List Byte) (s : State) : (s.wroteSlots n k bs).out.replies = s.out.replies := by
  obtain ⟨g, m, w, h⟩ := wroteSlots_frame n k bs s
  rw [h]

/-- A reply on a ring that does not run is dropped. -/
theorem sendReply_of_stopped {r : Reply} {n : Nat} {s : State} (hc : r.ch = .ring n) (hr : (s.ring n).runs = false) : s.sendReply r = s := by
  unfold State.sendReply
  rw [hc]
  simp [hr]

/-- A reply that its ring can take is written to its slots. -/
theorem sendReply_of_room {r : Reply} {n : Nat} {s : State} (hc : r.ch = .ring n) (hr : (s.ring n).runs = true) (hh : (s.ring n).held = [])
    (hs : (s.ring n).unread + packetSlots (24 + r.len) ≤ (s.ring n).cplSlots) :
    s.sendReply r = ({ s with out := { s.out with replies := r :: s.out.replies } }).wroteSlots n (packetSlots (24 + r.len)) (replyBytes r) := by
  unfold State.sendReply
  rw [hc]
  simp [hr, hh, hs]

/-- A reply that its ring cannot take, or that has replies before it, is held. -/
theorem sendReply_of_full {r : Reply} {n : Nat} {s : State} (hc : r.ch = .ring n) (hr : (s.ring n).runs = true)
    (hs : (s.ring n).held ≠ [] ∨ (s.ring n).cplSlots < (s.ring n).unread + packetSlots (24 + r.len)) :
    s.sendReply r = s.setRing n { s.ring n with held := (s.ring n).held ++ [r], cplFull := true } := by
  unfold State.sendReply
  rw [hc]
  have : ¬ ((s.ring n).held.isEmpty && decide ((s.ring n).unread + packetSlots (24 + r.len) ≤ (s.ring n).cplSlots)) = true := by
    simp only [Bool.and_eq_true, List.isEmpty_iff, decide_eq_true_eq, not_and, not_le]
    exact fun hh => hs.resolve_left (absurd hh)
  simp [hr, this]

/-- Settles O11: the frame of a reply, QUIET, and what becomes of a reply on the UART, on a stopped ring, and on one with and without room. -/
theorem replyEffect : Obligations.ReplyEffect := by
  rintro s t op c st legal detail data len r rfl hr
  refine ⟨reply_frame s op c st legal detail data len, fun hq hst => ?_, fun hq => ?_⟩
  · unfold State.reply
    simp [hq, hst]
  have hsend : s.reply op c st legal detail data len = s.sendReply r := by
    unfold State.reply
    rw [if_neg (by rcases hq with hq | hq <;> simp [hq]), hr]
    rfl
  have hch : r.ch = c.ch := by rw [hr]
  have hlen : r.len = len := by rw [hr]
  rw [hsend]
  refine ⟨fun hc => ?uart, fun n hc => ⟨fun hrun => sendReply_of_stopped (hch.trans hc) hrun, fun hrun hheld hroom => ?room, fun hrun hfull => ?full⟩⟩
  case uart =>
    unfold State.sendReply
    rw [hch, hc]
  case room =>
    rw [sendReply_of_room (hch.trans hc) hrun hheld (by rw [hlen]; exact hroom), hlen]
    exact ⟨wroteSlots_replies _ _ _ _, wroteSlots_producer n _ _ _ (enable_of_runs hrun), fun i hi => wroteSlots_writes n _ _ _ i hi⟩
  case full =>
    rw [sendReply_of_full (hch.trans hc) hrun (by rw [hlen]; exact hfull)]
    have hring := ring_setRing_same n { s.ring n with held := (s.ring n).held ++ [r], cplFull := true } s (enable_of_runs hrun)
    exact ⟨rfl, congrArg Ring.held hring, congrArg Ring.cplFull hring⟩

/-! ### Events (R59, R60) -/

/-- Settles O12: the frame of an event, and its delivery to ring 16 or its count as lost. -/
theorem eventEffect : Obligations.EventEffect := by
  rintro s t code subject data e rfl he
  have hnext : s.nextEvent code subject data = e := by rw [he]; rfl
  obtain ⟨hframe, hrecs⟩ := event_frame code subject data s
  rw [hnext] at hrecs
  set u : State := { s with log := { s.log with next := s.log.next + 1, recs := (e :: s.log.recs).take 4096 } } with hu
  have hevent : s.event code subject data = u.deliverEvent e := by unfold State.event; rw [hnext]
  have hring : u.ring 16 = s.ring 16 := rfl
  have hlost : ¬ ((s.ring 16).runs = true ∧ (s.ring 16).unread < (s.ring 16).slots) → u.deliverEvent e =
      { u with log := { u.log with lost := u.log.lost + 1, firstLost := if u.log.lost = 0 then e.seq else u.log.firstLost } } := by
    intro hno
    unfold State.deliverEvent
    rw [hring, if_neg (by simpa using hno)]
  have hsent : (s.ring 16).runs = true → (s.ring 16).unread < (s.ring 16).slots → u.deliverEvent e =
      ({ u with out := { u.out with events := e :: u.out.events } }).wroteSlots 16 1 (eventBytes e) := by
    intro hrun hroom
    unfold State.deliverEvent
    rw [hring, if_pos (by simp [hrun, hroom])]
  rw [hevent] at hframe hrecs ⊢
  refine ⟨hframe, ?_, hrecs, fun hrun hroom => ?_, fun hno => ?_⟩
  · by_cases hs : (s.ring 16).runs = true ∧ (s.ring 16).unread < (s.ring 16).slots
    · obtain ⟨g, m, w, h⟩ := wroteSlots_frame 16 1 (eventBytes e) { u with out := { u.out with events := e :: u.out.events } }
      rw [hsent hs.1 hs.2, h]
    · rw [hlost hs]
  · have hw := wroteSlots_writes 16 1 (eventBytes e) { u with out := { u.out with events := e :: u.out.events } } 0 (Nat.succ_pos 0)
    obtain ⟨g, m, w, h⟩ := wroteSlots_frame 16 1 (eventBytes e) { u with out := { u.out with events := e :: u.out.events } }
    rw [hsent hrun hroom]
    refine ⟨by rw [h], by rw [h], hw⟩
  · rw [hlost (by rcases hno with hno | hno <;> simp [hno])]
    exact ⟨rfl, rfl, fun h0 => if_pos h0⟩

/-! ### Counters (R375) -/

/-- A counter's key names its block, unit and index. -/
theorem counterKey_inj {b i x b' i' x' : Nat} (hi : i < 65536) (hx : x < 256) (hi' : i' < 65536) (hx' : x' < 256)
    (h : counterKey b' i' x' = counterKey b i x) : (b', i', x') = (b, i, x) := by
  unfold counterKey at h
  have hb : b' = b := by omega
  have hii : i' = i := by omega
  have hxx : x' = x := by omega
  rw [hb, hii, hxx]

/-- Settles O13: the canonical table reads back the saturated sum at its key, and every other key as before. -/
theorem counterSaturates : Obligations.CounterSaturates := by
  intro s block inst idx n block' inst' idx' hs hi hx hi' hx'
  have hsorted : Tab.sortedFrom none s.counters = true := (Tab.wf_iff.1 hs.counters_wf).1
  refine ⟨Tab.get_set_same _ _ _ _ hsorted, fun hne => ?_, rfl⟩
  exact Tab.get_set_other _ (fun h => hne (counterKey_inj hi hx hi' hx' h)) _ _ hsorted

end Sys2Proof.Machine
end

section
/-! PROOF. Device, firmware and memory commands (O14 to O17). `next_of_runs` says what the row of a command that runs answers: its body, on the state in
which it executes. -/

namespace Sys2Proof.Machine

open Sys2Proof

/-- The row of a command that runs answers what its body gives. -/
theorem next_of_runs {k : CmdSpec} {c : CmdHdr} {bad : Option Nat} {dt : Nat} {s a t : State} {body : State → State} (h : Runs k c bad dt s a)
    (he : body a = t) : (.next ((s.advance dt).serve k c bad body) : Host.Outcome State Fault Refusal) = .next t := by
  rw [serve_of_runs h, he]

/-- The row that ends a background command answers its end, and Cleat goes on, while Cleat runs. -/
theorem next_of_finish {dt : Nat} {s t : State} {f : State → State} (h0 : s.procDown 0 = false) (h1 : s.procDown 1 = false)
    (he : f (s.advance dt) = t) : (.next ((s.advance dt).finish f) : Host.Outcome State Fault Refusal) = .next t.drain := by
  rw [finish_of_cleatUp (cleatUp_advance h0 h1 dt), he]

/-! ### IDENTIFY, SUMMARY, READ_LOG, CLEAR_START_COUNT -/

/-- CLEAR_START_COUNT writes a start record of count zero where flash is fitted. -/
theorem setStartCount_zero (a : State) :
    (a.setStartCount 0).bk = { a.bk with startCount := 0 } ∧
    { a.setStartCount 0 with bk := a.bk, flash := a.flash, out := a.out } = a ∧
    (a.flash.fitted = false → (a.setStartCount 0).flash = a.flash ∧ (a.setStartCount 0).out = a.out) ∧
    (a.flash.fitted = true → ∃ r : StartRec, r.count = 0 ∧ (a.setStartCount 0).flash = { a.flash with startRec := some r } ∧
      (a.setStartCount 0).out = { a.out with flash := (startRecAt r.seq, startRecBytes r) :: a.out.flash }) := by
  unfold State.setStartCount State.writeStart
  dsimp only
  cases hf : a.flash.fitted
  · exact ⟨rfl, rfl, fun _ => ⟨rfl, rfl⟩, nofun⟩
  · exact ⟨rfl, rfl, nofun, fun _ => ⟨_, rfl, rfl, rfl⟩⟩

/-- Settles O14: each command by its body; the first event's sequence by the two forms of the list. -/
theorem deviceCommands : Obligations.DeviceCommands := by
  intro dt c s a
  refine ⟨fun h => next_of_runs h rfl, fun h => ⟨fun hs => ?started, fun hs => ?standing⟩, ?log, fun h => ?clear⟩
  case started => exact next_of_runs h (by rw [if_pos hs])
  case standing => exact ⟨a.snapshot (a.generation + 1) 0 0, rfl, rfl, rfl, rfl, next_of_runs h (by simp only [hs]; rfl)⟩
  case log =>
    rintro start max recs h h1 h2 hrecs
    have hb : firstBad [(8, inRange 1 2046 max)] = none := by simp [firstBad, inRange, h1, h2]
    refine next_of_runs (runs_of_none hb h) ?_
    dsimp only
    rw [← hrecs]
    cases recs <;> rfl
  case clear =>
    obtain ⟨hbk, hframe, hout, hflash⟩ := setStartCount_zero a
    exact ⟨a.setStartCount 0, next_of_runs h rfl, hbk, hframe, hout, hflash⟩

/-! ### RESET -/

/-- Settles O15: the reply leaves all but the rings and the output, and the reset follows at once, or waits for the ring. -/
theorem resetCommand : Obligations.ResetCommand := by
  intro dt c s a h
  set u := a.ok specReset c .empty 0 with hu
  have hframe : { u with rings := a.rings, out := a.out } = a := ok_frame _ _ _ _ a
  have hfield : ∀ {α : Type} (f : State → α), f { u with rings := a.rings, out := a.out } = f a := fun f => congrArg f hframe
  have hrow : exec (.reset dt c) s = .next (u.resetAfterReply c.ch) := next_of_runs h rfl
  refine ⟨u, _, rfl, hrow, fun n hc hheld => ?_, fun hc => ?_⟩
  · unfold State.resetAfterReply
    rw [hc]
    exact if_neg (by simpa using hheld)
  have hnow : u.resetAfterReply c.ch = u.chipReset .command := by
    unfold State.resetAfterReply
    rcases hc with hc | ⟨n, hc, hheld⟩ <;> rw [hc]
    exact if_pos (by simp [hheld])
  have hbk : u.bk = a.bk := hfield State.bk
  have hlay : u.lay = a.lay := hfield State.lay
  have hfuses : u.fuses = a.fuses := hfield State.fuses
  have hret : u.ret = a.ret := hfield State.ret
  have hdev : u.dev = a.dev := hfield State.dev
  rw [hnow, ← hbk, ← hlay, ← hfuses, ← hret, ← hdev]
  refine ⟨rfl, rfl, rfl, ?_, rfl, rfl, rfl, rfl, rfl, rfl, rfl, rfl, rfl, rfl, rfl, rfl, rfl, rfl, rfl, rfl⟩
  unfold State.chipReset State.resetTo
  simp

/-! ### Firmware loads (R345) -/

/-- Settles O16: each command by its body, the time-out and the end of a block's write by their rows. -/
theorem firmwareLoad : Obligations.FirmwareLoad := by
  intro dt c s a
  refine ⟨fun size h h4 hmax => ?begins, fun offset data h => ⟨fun ho => ?noLoad, fun ho hat hfit => ?block⟩,
    fun verifies q v h => ⟨fun ho => ?noEnd, fun ho hslot hall hv => ?valid, fun ho hbad => ?void⟩, fun ho => ?timeout, fun rest h0 h1 hd => ?written⟩
  case begins =>
    have h := runs_of_none (bad := firstBad [(0, decide (size % 4 = 0) && decide (size ≤ 8388608))]) (by simp [firstBad, h4, hmax]) h
    exact ⟨fun ho => next_of_runs h (if_pos ho), fun ho => next_of_runs h (if_neg (by simp [ho]))⟩
  case noLoad => exact next_of_runs h (if_pos (by simp [ho]))
  case block =>
    refine next_of_runs h ?_
    dsimp only
    rw [if_neg (by simp [ho]), if_neg (by simp [hat, hfit]), hat]
  case noEnd => exact next_of_runs h (if_pos (by simp [ho]))
  case valid =>
    refine next_of_runs h ?_
    dsimp only
    rw [if_neg (by simp [ho]), if_pos (by simp [hall, hv]), if_neg hslot]
  case void =>
    refine next_of_runs h ?_
    dsimp only
    rw [if_neg (by simp [ho]), if_neg (by rcases hbad with hb | hb <;> simp [hb])]
  case timeout => exact congrArg Host.Outcome.next (if_pos ho)
  case written =>
    refine next_of_finish h0 h1 ?_
    unfold State.fwDataEnd
    rw [State.advance_bg, hd]

/-! ### Memory map and palette (R183, R292, R346, R347) -/

/-- Settles O17: both commands by their bodies, both ends by their rows. -/
theorem memoryAndPalette : Obligations.MemoryAndPalette := by
  intro dt c s a
  refine ⟨fun grain hash check h hg hh hc hlock => ?config, fun grain hash check h0 h1 hm => ?configEnd,
    fun words h => ⟨fun hp => ?blown, fun hp hbusy => ?busy, fun hp hv hn => ?blows⟩, fun words h0 h1 hp hbad => ?paletteEnd⟩
  case config =>
    have ha : a.fuses = s.fuses := by rw [h.2]; rfl
    have hok : (decide (check = 1) || !s.fuses.fieldLocked) = true := by rw [← ha]; rcases hlock with hl | hl <;> simp [hl]
    have h := runs_of_none (bad := firstBad [(0, inRange 0 8 grain), (1, inRange 0 1 hash),
      (2, inRange 0 1 check && (decide (check = 1) || !(s.advance dt).fuses.fieldLocked))]) (by simp [firstBad, inRange, hg, hh, hc, hok]) h
    exact ⟨fun hd => next_of_runs h (if_pos hd), fun hd => next_of_runs h (if_neg (by simp [hd]))⟩
  case configEnd =>
    refine ⟨_, next_of_finish (t := State.ok _ _ _ _ _) h0 h1 (by unfold State.memConfigEnd; rw [State.advance_bg, hm]), rfl, rfl, rfl, rfl, ?_, rfl⟩
    intro e he
    simpa using (List.mem_filter.1 he).2
  case blown => exact next_of_runs h (if_pos hp)
  case busy =>
    refine next_of_runs h ?_
    dsimp only
    rw [if_neg (by simp [hp]), if_pos (by rcases hbusy with hb | hb <;> simp [hb])]
  case blows =>
    refine next_of_runs h ?_
    dsimp only
    rw [if_neg (by simp [hp]), if_neg (by simp [hv, hn])]
  case paletteEnd =>
    refine next_of_finish h0 h1 ?_
    unfold State.paletteEnd
    rw [State.advance_bg, hp]
    dsimp only
    rw [if_neg (by simp [hbad])]
    simp [hbad]

end Sys2Proof.Machine
end

section
/-! PROOF. Transactions, commits, staging and OBJECT_READ (O18 to O21). -/

namespace Sys2Proof.Machine

open Sys2Proof

/-! ### Opening, closing, expiring -/

/-- Opening a transaction gives it the next identity, records that in retained memory, and touches no store but these and flash. -/
theorem openTxn_spec (ch : Channel) (a : State) :
    (a.openTxn ch).txns.next = a.txns.next + 1 ∧
    (a.openTxn ch).txns.open_ = a.txns.open_ ++ [{ id := a.txns.next, channel := ch, staged := [], lastFrame := a.raster.frame, lastTick := a.time.upTicks }] ∧
    (∃ r : CommitRec, (a.openTxn ch).ret.commit = some r ∧ r.txnHigh = a.txns.next) ∧
    { a.openTxn ch with txns := a.txns, ret := a.ret, flash := a.flash, out := a.out } = a := by
  obtain ⟨hframe, hnext, hopen⟩ := reserveTxn_frame a
  have hraster : a.reserveTxn.raster = a.raster := (congrArg State.raster hframe :)
  have htime : a.reserveTxn.time = a.time := (congrArg State.time hframe :)
  have hid : (a.openTxn ch).txns.next = a.txns.next + 1 := congrArg (· + 1) hnext
  refine ⟨hid, ?_, ⟨_, rfl, hnext⟩, congrArg (fun x : State => { x with ret := a.ret }) hframe⟩
  rw [← hnext, ← hopen, ← hraster, ← htime]
  rfl

/-- Settles O18: the three commands by their bodies, and the expiry of a transaction that is over its idle limit. -/
theorem transactionCommands : Obligations.TransactionCommands := by
  intro dt c s a
  refine ⟨fun h => ⟨fun hfull => next_of_runs h (if_pos hfull), fun hroom => ?opens⟩, fun frame h => next_of_runs h rfl, fun h => next_of_runs h rfl,
    fun t ht hrun hline hidle hcleat hval => ?expires⟩
  case opens => exact ⟨a.openTxn c.ch, next_of_runs h (if_neg (by omega)), openTxn_spec c.ch a⟩
  case expires =>
    have ht' : (s.advance dt).txnOf t.id = some t := ht
    have hover : (s.advance dt).idleOver t = true := by
      unfold State.idleOver
      rw [advance_upTicks]
      exact decide_eq_true hidle
    have hcleat' : (s.advance dt).cleatRuns = true := hcleat
    have hval' : (s.advance dt).validating t.id = false := hval
    refine congrArg Host.Outcome.next ?_
    unfold State.txnExpired State.expireTxn
    rw [if_pos (by simp [hrun, hline]), ht']
    simp only [hover, hcleat', hval']
    rfl

/-! ### Commits (R57, R58) -/

/-- A commit that is accepted stands in the store under its frame, alone or merged with what is scheduled there. -/
theorem mem_commitVersions (s : State) (t : Txn) (fr : Nat) :
    ∃ v ∈ s.commitVersions t fr, v.frame = fr ∧ t.id ∈ v.txns ∧ ∀ o ∈ t.staged, o.obj ∈ v.objs := by
  unfold State.commitVersions
  extract_lets objs redo first
  obtain ⟨w, hw, hframe, htxns, hobjs⟩ := mem_insertVersion first s.splice.versions
  have hfirst : w.frame = fr ∧ t.id ∈ w.txns ∧ ∀ o ∈ t.staged, o.obj ∈ w.objs :=
    ⟨hframe, htxns _ (List.mem_singleton_self _), fun o ho => hobjs _ (List.mem_append_left _ (List.mem_map_of_mem ho))⟩
  split
  · exact ⟨w, hw, hfirst⟩
  · exact ⟨w, insertVersion_keeps _ w _ hw (by rw [hframe]; exact (Nat.lt_succ_self fr).ne), hfirst⟩

/-- What the end of a validation does, by its verdict. -/
theorem endValidation_of_commit {s : State} {c : CmdHdr} {frame : Nat} {rest : List (CmdHdr × Nat)} {t : Txn} (hc : s.bg.commit = (c, frame) :: rest)
    (ht : s.txnOf c.txn = some t) (a : State) (ha : a = { s with bg := { s.bg with commit := rest } }) :
    s.endValidation = match a.validate t frame with
      | .refuse st d legal => a.reply specTxnCommit.opcode c st legal d .empty 0
      | .accept fr mask => (a.acceptCommit t fr).reply specTxnCommit.opcode c (if mask = 0 then .ok else .wBoundVoid) 0 (if mask = 0 then fr else mask)
          (.words [(fr : Int)]) 8 := by
  have ht' : a.txnOf c.txn = some t := by rw [ha]; exact ht
  unfold State.endValidation
  rw [hc]
  dsimp only
  rw [← ha, ht'] <;> rfl

/-- Settles O19: the verdict decides, and an accepted commit stands in the store. -/
theorem commitValidation : Obligations.CommitValidation := by
  intro dt frame c rest t s a h0 h1 hc ht ha
  have hend := endValidation_of_commit (s := s.advance dt) hc ht a ha
  refine ⟨fun st d legal hv => next_of_finish h0 h1 ?_, fun fr mask hv => ⟨a.acceptCommit t fr, next_of_finish h0 h1 ?_, rfl, ?_, rfl, rfl⟩⟩
  · rw [hend, hv]
    rfl
  · rw [hend, hv]
    rfl
  · exact mem_commitVersions a t fr

/-! ### Staging (R54, R350) -/

/-- Staging an object changes the transaction it names alone, and there it replaces what is staged of the same object. -/
theorem stageInto_spec (id : Nat) (o : StagedObj) (a : State) :
    (a.stageInto id o).txns.open_.map (fun t => t.id) = a.txns.open_.map (fun t => t.id) ∧
    (∀ t ∈ (a.stageInto id o).txns.open_, t.id ≠ id → t ∈ a.txns.open_) ∧
    (∀ t ∈ (a.stageInto id o).txns.open_, t.id = id → { obj := o, gen := a.generation } ∈ t.staged ∧
      ∃ u ∈ a.txns.open_, u.id = id ∧ ∀ x ∈ u.staged, stagedKey x.obj ≠ stagedKey o → x ∈ t.staged) := by
  unfold State.stageInto
  dsimp only
  refine ⟨?_, fun t ht hne => ?_, fun t ht he => ?_⟩
  · rw [List.map_map]
    refine List.map_congr_left fun t _ => ?_
    dsimp only [Function.comp]
    split <;> rfl
  · obtain ⟨u, hu, rfl⟩ := List.mem_map.1 ht
    split at hne
    · next h => exact absurd h hne
    · next h => rwa [if_neg h]
  · obtain ⟨u, hu, rfl⟩ := List.mem_map.1 ht
    split at he
    · next h =>
      rw [if_pos h]
      exact ⟨mem_putStaged _ _, u, hu, h, fun x hx hk => putStaged_keeps _ _ _ hx hk⟩
    · next h => exact absurd he h

/-- Settles O20: each of the twenty rows is `cmdStage`, and a staging that runs is refused, or staged by `stageInto_spec`. -/
theorem stagingCommands : Obligations.StagingCommands := by
  intro i c o bad s a hrow h
  have he : exec i s = .next (cmdStage c o bad (s.advance i.ticks)) := by
    rcases hrow with ⟨dt, id, ⟨x, rfl, rfl, rfl⟩ | ⟨x, rfl, rfl, rfl⟩ | ⟨x, rfl, rfl, rfl⟩ | ⟨x, rfl, rfl, rfl⟩ | ⟨x, rfl, rfl, rfl⟩ |
      ⟨x, rfl, rfl, rfl⟩ | ⟨x, rfl, rfl, rfl⟩ | ⟨x, rfl, rfl, rfl⟩ | ⟨x, rfl, rfl, rfl⟩ | ⟨x, rfl, rfl, rfl⟩ |
      ⟨x, rfl, rfl, rfl⟩ | ⟨x, rfl, rfl, rfl⟩ | ⟨x, rfl, rfl, rfl⟩ | ⟨x, rfl, rfl, rfl⟩ | ⟨x, rfl, rfl, rfl⟩ |
      ⟨x, rfl, rfl, rfl⟩ | ⟨x, rfl, rfl, rfl⟩ | ⟨x, rfl, rfl, rfl⟩ | ⟨x, rfl, rfl, rfl⟩ | ⟨x, rfl, rfl, rfl⟩⟩ <;> rfl
  rw [he]
  have hfull : a.txns.open_.any (fun t => decide (t.id = c.txn) && !roomFor o t) = true ↔
      ∃ t ∈ a.txns.open_, t.id = c.txn ∧ 4096 ≤ t.staged.length ∧ ∀ y ∈ t.staged, stagedKey y.obj ≠ stagedKey o := by
    simp [roomFor]
  refine ⟨fun hl => next_of_runs h (if_pos hl), fun hl hroom => ?_, fun hl hno => ?_⟩
  · have hno : ¬ a.txns.open_.any (fun t => decide (t.id = c.txn) && !roomFor o t) = true := by
      rw [hfull]
      rintro ⟨t, ht, hid, hlen, -⟩
      exact absurd (hroom t ht hid) (by omega)
    obtain ⟨hids, hother, hown⟩ := stageInto_spec c.txn o a
    refine ⟨a.stageInto c.txn o, next_of_runs h ?_, rfl, rfl, hids, hother, hown⟩
    rw [if_neg (by simp [hl]), if_neg hno]
  · refine next_of_runs h ?_
    rw [if_neg (by simp [hl]), if_pos (hfull.2 hno)]

/-! ### OBJECT_READ (R369) -/

/-- The parameters of OBJECT_READ that are in range pass its check. -/
theorem objectRead_params {opcode view id n : Nat} (hlo : 0x200 ≤ opcode) (hhi : opcode ≤ 0x213) (hview : view ≤ 2) (hid : objIdOk opcode id = true)
    (hn : (opcode = 0x209 ∨ opcode = 0x20B) ∧ 1 ≤ n ∧ objIdOk opcode (id + n - 1) = true ∨ opcode ≠ 0x209 ∧ opcode ≠ 0x20B ∧ n = 1) :
    firstBad [(0, inRange 0x200 0x213 opcode), (2, inRange 0 2 view), (4, objIdOk opcode id),
      (8, if opcode = 0x209 || opcode = 0x20B then decide (1 ≤ n) && objIdOk opcode (id + n - 1) else decide (n = 1))] = none := by
  have hcount : (if opcode = 0x209 || opcode = 0x20B then decide (1 ≤ n) && objIdOk opcode (id + n - 1) else decide (n = 1)) = true := by
    rcases hn with ⟨hop, h1, hlast⟩ | ⟨ha, hb, h1⟩
    · rw [if_pos (by simpa using hop)]
      simp [h1, hlast]
    · rw [if_neg (by simp [ha, hb])]
      simp [h1]
  rw [hcount]
  simp [firstBad, inRange, hlo, hhi, hview, hid]

/-- Settles O21: the view of a transaction and the two views of a set by the body; the generation is a running maximum. -/
theorem objectReadCommand : Obligations.ObjectReadCommand := by
  intro dt c opcode view id n s a h hlo hhi hview hid hn hfits
  have h := runs_of_none (objectRead_params hlo hhi hview hid hn) h
  refine ⟨fun hv => ?set, fun hv t ht => ⟨fun x hx => ?staged, fun hx => ?missing⟩⟩
  case set =>
    obtain ⟨-, hle, hmem⟩ := foldl_max_spec (fun k => a.objGen view k) (readKeys opcode id n) 0
    refine ⟨_, _, next_of_runs h ?_, rfl, hle, hmem⟩
    dsimp only
    rw [hfits, if_neg hv]
  case staged =>
    refine next_of_runs h ?_
    dsimp only
    rw [hfits, if_pos hv, ht, Option.bind_some, hx]
  case missing =>
    refine next_of_runs h ?_
    dsimp only
    rw [hfits, if_pos hv, ht, Option.bind_some, hx]

end Sys2Proof.Machine
end

section
/-! PROOF. Queries, counters, time, fault and debug commands (O22 to O26). -/

namespace Sys2Proof.Machine

open Sys2Proof

/-! ### Queries (R371 to R374, R382) -/

/-- Settles O22: each query by its body; a list that is mapped over a range is as long as the range. -/
theorem queryCommands : Obligations.QueryCommands := by
  intro dt c s a
  refine ⟨fun src n h hs h1 h8 => ?source, fun x n seals h hx h1 h8 hseals => ?encoder, fun first n recs h hf hn hrecs => ?points,
    fun h sect offset length hr hh hsect => ?head, fun first n rows h hf h1 hn hrows => ?faults⟩
  case source =>
    have h := runs_of_none (bad := firstBad [(0, inRange 0 1023 src), (2, inRange 1 8 n)]) (by simp [firstBad, inRange, hs, h1, h8]) h
    refine ⟨fun hd => next_of_runs h (if_pos (by simp [hd])), fun hd seals hseals => next_of_runs h ?_⟩
    dsimp only
    rw [if_neg (by simp [hd]), hseals]
  case encoder =>
    have h := runs_of_none (bad := firstBad [(0, inRange 0 31 x), (1, inRange 1 8 n)]) (by simp [firstBad, inRange, hx, h1, h8]) h
    exact next_of_runs h (by rw [hseals])
  case points =>
    have h := runs_of_none (bad := firstBad [(0, decide (first ≤ 8388607)), (4, decide (first + n ≤ 8388608))]) (by simp [firstBad, hf, hn]) h
    refine next_of_runs h ?_
    dsimp only
    rw [hrecs, List.length_map, List.length_range]
  case head =>
    have hr := runs_of_none (bad := firstBad [(0, inRange 0 31 h), (1, inRange 0 3 sect)]) (by simp [firstBad, inRange, hh, hsect]) hr
    refine ⟨fun h0 => next_of_runs hr (if_pos h0), fun h0 all part hall hpart => next_of_runs hr ?_⟩
    have hsection : headSection (a.headRt h) sect = all := hall.symm
    dsimp only
    rw [if_neg h0, hsection, ← hpart]
  case faults =>
    have h := runs_of_none (bad := firstBad [(0, inRange 0 255 first), (2, inRange 1 256 n)]) (by simp [firstBad, inRange, hf, h1, hn]) h
    refine next_of_runs h ?_
    dsimp only
    rw [hrows, List.length_map, List.length_range]
    rfl

/-! ### COUNTER_READ (R375) -/

/-- Clearing the counters of a unit zeroes them and no counter of another block or unit. -/
theorem clearCounters_instance {a : State} {block inst n : Nat} (ha : a.Sound) (hn : n ≤ 256) (hinst : inst < 65536) :
    { a.clearCounters block inst n with counters := a.counters } = a ∧
    (∀ i, i < n → (a.clearCounters block inst n).counter block inst i = 0) ∧
    ∀ block' inst' i', inst' < 65536 → i' < 256 → (block', inst') ≠ (block, inst) →
      (a.clearCounters block inst n).counter block' inst' i' = a.counter block' inst' i' := by
  obtain ⟨-, hframe, hread⟩ := clearCounters_spec block inst (List.range n) a ha
  refine ⟨hframe, fun i hi => (hread block inst i).trans (if_pos ⟨i, List.mem_range.2 hi, rfl⟩), fun block' inst' i' hinst' hi' hne => ?_⟩
  refine (hread block' inst' i').trans (if_neg ?_)
  rintro ⟨x, hx, hk⟩
  have hx := List.mem_range.1 hx
  exact hne (congrArg (fun p : Nat × Nat × Nat => (p.1, p.2.1)) (counterKey_inj hinst (by omega) hinst' hi' hk))

/-- Settles O23: the words are read before the clear, which CLEAR alone asks for. -/
theorem counterReadCommand : Obligations.CounterReadCommand := by
  intro dt c block flags inst n lo hi s a h hs hf hb hlo hhi
  have ha : a.Sound := by
    rw [h.2]
    exact (State.keeps_touchTxn (keeps_refl (s.advance dt))).1.2.2.2.2.2.2 (sound_advance hs)
  have h := runs_of_none (bad := counterBad block flags inst) (by simp [counterBad, firstBad, inRange, hb, hf, hlo, hhi]) h
  have hn : ((counterBlock block).map (fun x => x.1)).getD 0 = n := by rw [hb]; rfl
  obtain ⟨hn13, hhi'⟩ := counterBlock_bounds hb
  obtain ⟨hframe, hzero, hother⟩ := clearCounters_instance (a := a) (block := block) (inst := inst) (n := n) ha (by omega) (by omega)
  rcases Nat.le_one_iff_eq_zero_or_eq_one.1 hf with rfl | rfl
  · exact ⟨a, next_of_runs h (by dsimp only; rw [hn]; rfl), rfl, fun _ => rfl, nofun⟩
  · exact ⟨_, next_of_runs h (by dsimp only; rw [hn]; rfl), hframe, nofun, fun _ => ⟨hzero, hother⟩⟩

/-! ### Time (R258, R260, R263, R264, R376, R377) -/

/-- States that agree but for time and counters agree whatever these are set to. -/
theorem with_time_counters {v u : State} (h : { v with time := u.time, counters := u.counters } = u) (t : Time) (k : Tab Nat) :
    { v with time := t, counters := k } = { u with time := t, counters := k } :=
  congrArg (fun x : State => { x with time := t, counters := k }) h

/-- Stepping a domain by an offset that keeps its counter from below zero moves that counter, pulses and their counts, and nothing else. -/
theorem stepped_spec {a : State} {d : Nat} {offset : Int} (h : 0 ≤ ((a.time.domain d).units : Int) + offset * 4294967296) :
    let b := (a.stepDomain d offset).tpoStepped d
    ((b.time.domain d).units : Int) = (a.time.domain d).units + offset * 4294967296 ∧ b.time.resid = a.time.resid ∧
    b.time.active = a.time.active ∧ (d ≤ 1 → ∀ e, e ≤ 1 → e ≠ d → b.time.domain e = a.time.domain e) ∧
    { b with time := a.time, counters := a.counters } = a := by
  rw [stepDomain_of_nonneg d offset a h]
  set u := a.modDomain d (fun x => { x with units := (((a.time.domain d).units : Int) + offset * 4294967296).toNat }) with hu
  obtain ⟨hframe, hdomain, hresid, hactive⟩ := tpoStepped_frame d u
  obtain ⟨hr, ha⟩ := modDomain_time_frame d (fun x => { x with units := (((a.time.domain d).units : Int) + offset * 4294967296).toNat }) a
  refine ⟨?_, hresid.trans hr, hactive.trans ha, fun hd e he hne => ?_, ?_⟩
  · rw [hdomain, hu, domain_modDomain_same]
    exact Int.toNat_of_nonneg h
  · rw [hdomain, hu]
    exact domain_modDomain_other d e _ a hd he hne.symm
  · rw [with_time_counters hframe]
    rfl

/-- Where a step of the active domain does not re-anchor, TIME_ADJUST steps the domain and adds the offset to the residual. -/
theorem adjust_of_active {a : State} {d : Nat} {offset : Int} (hne : offset ≠ 0) (hd : d = a.time.active) (hag : a.reanchors d offset = false)
    (h : 0 ≤ ((a.time.domain d).units : Int) + offset * 4294967296) :
    (a.adjust d 0 0 offset).time.wallUnits = a.time.wallUnits ∧ (a.adjust d 0 0 offset).time.resid = a.time.resid + offset * 4294967296 ∧
    { a.adjust d 0 0 offset with time := a.time, counters := a.counters } = a := by
  obtain ⟨hunits, hresid, hactive, -, hframe⟩ := stepped_spec h
  generalize hb : (a.stepDomain d offset).tpoStepped d = b at *
  have he : a.adjust d 0 0 offset = { b with time := { b.time with resid := b.time.resid + offset * nsUnit } } := by
    unfold State.adjust
    dsimp only
    rw [if_neg hne, hag, if_neg Nat.zero_ne_one, if_neg Bool.false_ne_true, hb, if_pos (hd.trans hactive.symm)]
  have hres : b.time.resid + offset * nsUnit = a.time.resid + offset * 4294967296 := by rw [hresid]; rfl
  rw [he]
  refine ⟨?_, hres, hframe⟩
  change ((b.time.domain b.time.active).units : Int) - (b.time.resid + offset * nsUnit) = (a.time.domain a.time.active).units - a.time.resid
  rw [hres, hactive, ← hd, hunits]
  omega

/-- Settles O24: TIME_STATUS by its sections, TIME_ADJUST by the domain it names, TIME_SWITCH by the domain and what it would leave in the residual. -/
theorem timeCommands : Obligations.TimeCommands := by
  refine ⟨fun dt c sel start s a h => ⟨fun d0 d1 h0 h1 => ?status, fun hsel xs hxs => ?samples, fun hsel xs hxs => ?inputs⟩,
    fun dt c d incr offset s a h hd hlo hhi => ⟨fun h0 hfree => ?incr, fun hne hd' hpos => ?inactive, fun hne hd' hag hpos => ?active⟩,
    fun dt c d s a h hd => ?switch⟩
  case status =>
    refine next_of_runs (runs_of_none (by simp [firstBad, inRange]) h) ?_
    dsimp only
    rw [if_pos rfl, h0, h1]
    rfl
  case samples =>
    refine next_of_runs (runs_of_none (by simp [firstBad, inRange, hsel]) h) ?_
    dsimp only
    rw [if_neg (by decide), if_pos rfl, hxs]
  case inputs =>
    refine next_of_runs (runs_of_none (by simp [firstBad, inRange, hsel]) h) ?_
    dsimp only
    rw [if_neg (by decide), if_neg (by decide), hxs]
  case incr =>
    have h := runs_of_none (bad := adjustBad d 1 incr) (by simp [adjustBad, firstBad, inRange, hd, hlo, hhi]) h
    have hok : a.adjustRefused d 1 incr 0 = none := by
      unfold State.adjustRefused
      rcases hfree with hd' | hoff
      · rw [if_pos hd']
      · by_cases hd' : d = a.time.active <;> simp [hd', hoff]
    refine next_of_runs h ?_
    rw [hok]
    rfl
  case inactive =>
    have h := runs_of_none (bad := adjustBad d 0 0) (by simp [adjustBad, firstBad, inRange, hd]) h
    have hok : a.adjustRefused d 0 0 offset = none := if_pos hd'
    obtain ⟨hunits, hresid, hactive, hother, hframe⟩ := stepped_spec hpos
    have he : a.adjust d 0 0 offset = (a.stepDomain d offset).tpoStepped d := by
      unfold State.adjust
      dsimp only
      rw [if_neg hne, if_neg Nat.zero_ne_one, if_neg (by simp [State.reanchors, hd']), if_neg (by rw [hactive]; exact hd')]
    refine ⟨_, next_of_runs h ?_, hunits, hresid, hactive, hother hd, hframe⟩
    rw [hok, he]
  case active =>
    have h := runs_of_none (bad := adjustBad d 0 0) (by simp [adjustBad, firstBad, inRange, hd]) h
    have hag : a.reanchors d offset = false := by rcases hag with hg | hg <;> simp [State.reanchors, hg]
    have href := adjustRefused_active a d offset hd' hne hag
    refine ⟨fun hbig => next_of_runs h ?_, fun hfits => ?_⟩
    · rw [href, if_pos hbig]
    · refine ⟨_, next_of_runs h ?_, adjust_of_active hne hd' hag hpos⟩
      rw [href, if_neg (by omega)]
  case switch =>
    have h := runs_of_none (bad := firstBad [(0, inRange 0 1 d)]) (by simp [firstBad, inRange, hd]) h
    refine ⟨fun hact => next_of_runs h (if_pos hact), fun hact r hr => ?_⟩
    have hbad : a.time.switchRefused d = true ↔ (a.time.domain d).state = .absent ∨ 1000000000 * 4294967296 < r.natAbs := by
      have hres : a.time.residAfter d = r := hr.symm
      unfold Time.switchRefused
      rw [hres, residBad_eq]
      simp
    refine ⟨fun hb => next_of_runs h ?_, fun hs hle => next_of_runs h ?_⟩
    · rw [if_neg hact, if_pos (hbad.2 hb)]
    · rw [if_neg hact, if_neg (by rw [hbad]; rintro (hb | hb) <;> [exact hs hb; omega])]

/-! ### Faults (R383, R406 to R410) -/

/-- FAULT_REARM empties what its classes hold, keeps the latches of the others, and zeroes counts where bit 7 asks. -/
theorem rearm_spec (m : Nat) (a : State) :
    { a.rearm m with flt := a.flt } = a ∧
    (∀ k, k < 3 → m.testBit k = true → (a.rearm m).flt.first.find? k = none ∧ k ∉ (a.rearm m).flt.latchClasses) ∧
    (∀ k, m.testBit k = false → (k ∈ a.flt.latchClasses → k ∈ (a.rearm m).flt.latchClasses)) ∧
    (m.testBit 7 = false → (a.rearm m).flt.srcs = a.flt.srcs) ∧
    (m.testBit 7 = true → ∀ e ∈ (a.rearm m).flt.srcs, m.testBit (srcInfo e.1).cls = true → e.2.count = 0) := by
  refine ⟨rfl, fun k _ hk => ⟨find?_filter_none k _ _ hk, fun hmem => ?_⟩, fun k hk hmem => ?_, fun h7 => ?_, fun h7 e he hc => ?_⟩
  · have := (List.mem_filter.1 hmem).2
    simp [hk] at this
  · exact List.mem_filter.2 ⟨hmem, by simp [hk]⟩
  · exact if_neg (by simp [h7])
  · unfold State.rearm at he
    dsimp only at he
    rw [if_pos h7] at he
    obtain ⟨x, -, rfl⟩ := List.mem_map.1 (List.mem_filter.1 he).1
    split at hc
    · next hx => rw [if_pos hx]
    · next hx => exact absurd hc hx

/-- A mask that clears a fixed reaction of its source is not allowed (R406). -/
theorem maskOk_of_clears {n m : Nat} (h : m &&& (srcInfo n).fixed ≠ (srcInfo n).fixed) : maskOk n m = false := by
  simp [maskOk, h]

/-- Settles O25: each command by its body, and the end of a unit's test by its outcome. -/
theorem faultCommands : Obligations.FaultCommands := by
  intro dt c s a
  refine ⟨fun n m h => next_of_runs h rfl, fun n m hn hm => ?fixed, fun m h hm => ⟨a.rearm m, ?rearm, rearm_spec m a⟩, fun u h hu => ?restore,
    fun u rest ht hrest hres => ?test⟩
  case fixed => simp [firstBad, inRange, hn, maskOk_of_clears hm]
  case rearm => exact next_of_runs (runs_of_none (by simp [firstBad, hm]) h) rfl
  case restore =>
    have h := runs_of_none (bad := firstBad [(0, inRange 0 127 u)]) (by simp [firstBad, inRange, hu]) h
    refine ⟨fun hf => next_of_runs h (if_pos (by simp [hf])), fun hf hr => next_of_runs h ?_, fun hf hr hu => next_of_runs h ?_⟩
    · rw [if_neg (by simp [hf]), if_pos (by simp [hr])]
    · rw [if_neg (by simp [hf]), if_neg (by simp [hr]; omega), if_neg (by simp [inRange]; omega)]
  case test =>
    have ht' : List.find? (fun x : Nat × Bool => decide (x.1 = u)) (s.advance dt).flt.tests = some (u, true) := ht
    refine ⟨congrArg Host.Outcome.next ?_, congrArg Host.Outcome.next ?_⟩ <;> unfold State.unitTestDone <;> rw [ht'] <;> dsimp only <;> rw [hrest]
    · exact if_pos (by simp [hres])
    · exact if_neg (by simp)

/-! ### The debug unlock (R384) -/

/-- Settles O26: each command by its body, both expiries by their rows. -/
theorem debugUnlocking : Obligations.DebugUnlocking := by
  intro dt c s a
  refine ⟨fun h => ⟨a.takeFree.1, next_of_runs h rfl⟩,
    fun v h => ⟨fun hl => next_of_runs h (if_pos (by simp [hl])), fun hl ho => next_of_runs h ?locked, fun hl ho hv hc => next_of_runs h ?unlocks,
      fun hl ho hbad => next_of_runs h ?fails⟩, rfl, rfl⟩
  case locked => rw [if_neg (by simp [hl]), if_pos ho]
  case unlocks => rw [if_neg (by simp [hl]), if_neg (by simp [ho]), if_pos (by simp [hv, hc])]
  case fails =>
    rw [if_neg (by simp [hl]), if_neg (by simp [ho]), if_neg (by rcases hbad with hb | hb <;> simp [hb])]
    simp

end Sys2Proof.Machine
end

section
/-! PROOF. Host surfaces and checks (O27, O28). -/

namespace Sys2Proof.Machine

open Sys2Proof

/-! ### SURFACE_PUBLISH (R101, R103, R370) -/

/-- Settles O27: the start by the checks of its body, and the end of a copy by the outcome of the host's reads. -/
theorem surfaceCommands : Obligations.SurfaceCommands := by
  intro dt c src s a
  refine ⟨fun flags pitch addr capture b cap h hs hk hf hp haddr hb hno hcap hlate => ?starts,
    fun k lines t h0 h1 hk hw hl ht => next_of_finish h0 h1 ?ends, fun k lines h0 h1 hk hw => next_of_finish h0 h1 ?fails⟩
  case starts =>
    have hlay : a.lay = s.lay := by rw [h.2]; rfl
    have hkind : isSurface a.lay src = true := by simp [isSurface, hs, hk]
    have h := runs_of_none (bad := (s.advance dt).surfaceBad src flags pitch addr) (by
      have hkind' : isSurface s.lay src = true := hlay ▸ hkind
      have hp' : 4 * (s.lay.source src).surfWidth ≤ pitch := hlay ▸ hp
      simp [State.surfaceBad, firstBad, inRange, hf, haddr, hp', show src ≤ 1023 by omega]) h
    have hc : surfaceCapture flags capture a.wallNs = cap := by
      rw [hcap]
      unfold surfaceCapture
      congr 1
      simp only [Bool.and_eq_true, decide_eq_true_eq]
      exact propext (and_congr_left' (by omega))
    have hearly : ((a.srcRt src).seals.head?.map (fun x => decide (cap.1 < x.capture))).getD false = false := by
      cases hh : (a.srcRt src).seals.head? with
      | none => rfl
      | some x => simpa using hlate x hh
    have hcopies : a.ing.copies.any (fun k => decide (k.source = src)) = false := by simpa using hno
    refine ⟨a.startCopy c src b cap, next_of_runs h ?_, rfl, rfl⟩
    simp only [hkind, hc, hearly, hb, hcopies, Bool.not_true, Bool.false_eq_true, if_false]
  case ends =>
    have hk' : (s.advance dt).ing.copies.find? (fun x => decide (x.source = src)) = some k := hk
    have hw' : (s.advance dt).writersRun = true := hw
    have hl' : linesOk (((s.advance dt).srcRt src).bufs.get {} k.buf).format (((s.advance dt).srcRt src).bufs.get {} k.buf).width
      (((s.advance dt).srcRt src).bufs.get {} k.buf).height lines = true := hl
    unfold State.endCopy
    rw [hk']
    simp only [hw', hl', Bool.not_true, Bool.false_eq_true, if_false]
    rw [ht]
    rfl
  case fails =>
    have hk' : (s.advance dt).ing.copies.find? (fun x => decide (x.source = src)) = some k := hk
    have hw' : (s.advance dt).writersRun = true := hw
    unfold State.endCopy
    rw [hk']
    simp only [hw', Bool.not_true, Bool.not_false, Bool.false_eq_true, if_false, if_true]
    rfl

/-! ### WHIP_SET, PROBE_SET, LANE_TEST and the end of a check (R191, R378 to R380) -/

/-- A probe that has been given new settings reads them back. -/
theorem probe_next (sigs : Tab SigUnit) (g p : Nat) (cfg : ProbeCfg) :
    ((sigs.modify {} g (fun u => { u with probes := u.probes.modify {} p (fun q => { q with next := some cfg }) })).get {} g).probes.get {} p =
      { (sigs.get {} g).probes.get {} p with next := some cfg } := by
  have hprobe : ∀ t : Tab Probe, (t.modify {} p (fun q => { q with next := some cfg })).get {} p = { t.get {} p with next := some cfg } := by
    intro t
    rw [tab_get_modify, if_pos rfl]
    intro h
    exact absurd (congrArg Probe.next h) (by simp)
  rw [tab_get_modify, if_pos rfl, hprobe]
  intro h
  have hq := congrArg (fun u : SigUnit => (u.probes.get {} p).next) h
  dsimp only at hq
  rw [hprobe] at hq
  cases hq

/-- The end of a Whipping unit's check whose reads were taken: it agrees, or it counts a mismatch and fires the unit's source. -/
theorem whipDone_of_read {a b : State} {u : Nat} {x : Option Seal} {rest : List (Option Seal)} (hx : (a.whip u).checking = x :: rest)
    (hd : a.dev ≠ .safe) (hread : State.whipRead (chunksOf (a.whipRegion (a.whip u) x).1 (a.whipRegion (a.whip u) x).2) a = (true, b)) :
    (b.whipValue (a.whip u) x = whipExpect (a.whip u) x → a.whipDone u true = b.modWhip u (fun w => { w with
      checking := rest, checks := w.checks + 1, value := (b.whipValue (a.whip u) x).toNat })) ∧
    (b.whipValue (a.whip u) x ≠ whipExpect (a.whip u) x → a.whipDone u true = State.fireSrc (104 + u) 0xFFFF
      (x.elim 0xFFFF (fun y => y.source)) (b.modWhip u (fun w => { w with
        checking := if (a.whip u).cfg.stop then [] else rest, stopped := w.stopped || (a.whip u).cfg.stop, checks := w.checks + 1,
        value := (b.whipValue (a.whip u) x).toNat, mismatches := w.mismatches + 1 }))) := by
  simp only [State.whipDone, hx, hread, if_neg hd]
  refine ⟨fun he => ?_, fun hne => ?_⟩
  · simp [he]
  · simp [hne]

/-- Settles O28: the three commands by their bodies, the end of a check by `whipDone_of_read`. -/
theorem checkCommands : Obligations.CheckCommands := by
  intro dt c s a
  refine ⟨fun p h => ⟨_, next_of_runs h rfl, fun hq => if_pos hq, fun hq => if_neg hq⟩,
    fun p q h hq => ?probe,
    fun lane flags ctrl h => ⟨fun hb => next_of_runs h (if_pos hb), fun hb hl => next_of_runs h ?locked, fun hb hl => ⟨_, rfl, next_of_runs h ?tests⟩⟩,
    fun u x rest b hx hd hread => ?check⟩
  case probe =>
    subst hq
    refine ⟨_, next_of_runs h rfl, ?_, ?_⟩
    · exact probe_next a.stop.sigs p.group p.probe _
    · rfl
  case locked => rw [if_neg (by simp [hb]), if_pos hl]
  case tests => rw [if_neg (by simp [hb]), if_neg (by simp [hl])]
  case check =>
    obtain ⟨hagree, hdiffer⟩ := whipDone_of_read (a := s.advance dt) hx hd hread
    refine ⟨fun he => congrArg Host.Outcome.next (hagree he), fun hne => (congrArg Host.Outcome.next (hdiffer hne)).trans ?_⟩
    cases x <;> rfl

end Sys2Proof.Machine
end

section
/-! PROOF. Rings, interrupts and the service UART (O29 to O31). -/

namespace Sys2Proof.Machine

open Sys2Proof

/-! ### Doorbells (R43 to R45) -/

/-- Time passes without a change to the rings. -/
theorem ring_advance (s : State) (dt n : Nat) : (s.advance dt).ring n = s.ring n := rfl

/-- A command ring without held replies, and without a reset that waits for it, takes its next packets once slots are released. -/
theorem doorConsumer_of_empty {n index : Nat} {s : State} (hrun : (s.ring n).runs = true) (hn : n < 16) (hi : index < 4294967296)
    (hle : idxDiff index (s.ring n).released ≤ idxDiff (s.ring n).wbProducer (s.ring n).released) (hheld : (s.ring n).held = [])
    (hdue : s.bg.resetDue ≠ some n) :
    s.doorConsumer n index = (s.setRing n { s.ring n with released := index, held := [], cplFull := false }).drain := by
  have hen := enable_of_runs hrun
  unfold State.doorConsumer
  dsimp only
  rw [Nat.mod_eq_of_lt hi, if_neg (by simp [hrun]; omega), if_neg (by omega), if_neg (by omega), if_neg (by omega),
    ring_setRing_same n { s.ring n with released := index } s hen]
  dsimp only
  rw [hheld]
  unfold State.writeHeld State.resetIfDue
  rw [ring_setRing_same n { s.ring n with released := index, held := [] } s hen,
    setRing_setRing n { s.ring n with released := index, held := [] } { s.ring n with released := index, held := [], cplFull := false } s hen hen,
    if_neg (by simp [hdue])]

/-- Ring 16, where no event is lost, is full or not by the slots that are released. -/
theorem doorConsumer_events {index : Nat} {s : State} (hrun : (s.ring 16).runs = true) (hi : index < 4294967296)
    (hle : idxDiff index (s.ring 16).released ≤ idxDiff (s.ring 16).wbProducer (s.ring 16).released) (hlost : s.log.lost = 0) :
    s.doorConsumer 16 index = s.setRing 16 { s.ring 16 with
      released := index, cplFull := decide ((s.ring 16).slots ≤ idxDiff (s.ring 16).wbProducer index) } := by
  have hen := enable_of_runs hrun
  unfold State.doorConsumer
  dsimp only
  rw [Nat.mod_eq_of_lt hi, if_neg (by simp [hrun]), if_neg (by omega), if_pos rfl, ring_setRing_same 16 { s.ring 16 with released := index } s hen,
    setRing_setRing 16 { s.ring 16 with released := index } (Ring.markFull { s.ring 16 with released := index }) s hen hen]
  unfold State.eventsLost
  exact if_neg (by simp [hlost])

/-- Settles O29: each doorbell by the checks of its index, in their order. -/
theorem ringDoorbells : Obligations.RingDoorbells := by
  rintro dt n index packets s r rfl hi
  have hmod := Nat.mod_eq_of_lt hi
  refine ⟨fun hrun => ⟨congrArg Host.Outcome.next (if_pos ?_), congrArg Host.Outcome.next (if_pos ?_)⟩, fun hrun h16 h17 h19 => ?producer,
    fun hrun h18 => ⟨fun hahead => ?ahead, fun hle hn hheld hdue => ?released, fun hle hn hlost => ?events⟩, fun h => drain_of_none_waiting s h⟩
  · simp [ring_advance, hrun]
  · simp [ring_advance, hrun]
  case producer =>
    have hgo : ¬ (!(s.ring n).runs || decide (n = 16) || decide (n = 17) || decide (19 ≤ n)) = true := by simp [hrun, h16, h17]; omega
    refine ⟨fun hbad => congrArg Host.Outcome.next ?_, fun hle hge => ⟨fun hn => congrArg Host.Outcome.next ?_, fun hn => congrArg Host.Outcome.next ?_⟩⟩ <;>
      unfold State.doorProducer <;> dsimp only <;> rw [hmod, ring_advance, if_neg hgo]
    · rw [if_pos (by simpa [badIndex] using hbad)]
      rfl
    · rw [if_neg (by simp [badIndex]; omega), if_pos hn]
    · rw [if_neg (by simp [badIndex]; omega), if_neg (by omega)]
      rfl
  case ahead =>
    refine congrArg Host.Outcome.next ?_
    unfold State.doorConsumer
    dsimp only
    rw [hmod, ring_advance, if_neg (by simp [hrun]; omega), if_pos hahead]
    rfl
  case released => exact congrArg Host.Outcome.next (doorConsumer_of_empty (s := s.advance dt) hrun hn hi hle hheld hdue)
  case events =>
    subst hn
    exact congrArg Host.Outcome.next (doorConsumer_events (s := s.advance dt) hrun hi hle hlost)

/-! ### Ring registers and interrupts (R43, R46) -/

/-- A ring that is stopped with a cause other than zero stands in error with it, and its RING_FAULT event is the newest. -/
theorem ringFault_spec (n cause : Nat) (s : State) :
    ((s.ringFault n cause).ring n).ringErr = true ∧ ((s.ringFault n cause).ring n).errCause = cause ∧
    (s.ringFault n cause).log.recs.head?.map (fun e => (e.code, e.subject, e.data)) = some (0x000E, n, cause) := by
  have hread : (s.setRing n ((s.ring n).stop cause)).ring n = (s.ring n).stop cause := by
    unfold State.ring State.setRing
    exact tab_get_set_same _ _ _ _ fun h => absurd (congrArg Ring.ringErr h) (Bool.noConfusion ·)
  have hring : (s.ringFault n cause).ring n = (s.ring n).stop cause := by
    unfold State.ringFault
    refine (event_ring 0x000E n cause n _ ?_).trans hread
    by_cases h16 : n = 16
    · subst h16
      exact .inr (by rw [hread]; simp [Ring.runs, Ring.stop])
    · exact .inl h16
  refine ⟨congrArg Ring.ringErr hring, congrArg Ring.errCause hring, ?_⟩
  unfold State.ringFault
  rw [event_recs]
  rfl

/-- Enabling a ring that stands disabled without an error, with sound sizes, starts it afresh and writes its write-back block. -/
theorem ringEnable_of_sizes {n : Nat} {f : CtrlFields} {s : State} (hn : n < 19) (hbar : s.barUp = true) (hoff : (s.ring n).enable = false)
    (herr : (s.ring n).ringErr = false) (hsize : f.size ≤ 10) (hcpl : f.cplSize ≤ 10) (h16 : n ≠ 16) (h17 : n ≠ 17) :
    s.ringEnable n f = ((s.setRing n (((s.ring n).withCtrl f).fresh s.snap.generation)).orphanAll n).hostWrite (s.ring n).wbAddr
      (writeBackBytes (((s.ring n).withCtrl f).fresh s.snap.generation)) := by
  unfold State.ringEnable
  dsimp only
  rw [if_neg (by simp [hbar, hoff, herr]; omega), if_neg (by simp; omega), if_neg h16, if_neg h17]

/-- Enabling a ring touches the rings, what leaves the device, and the background commands that it orphans. -/
theorem enabled_frame {n addr : Nat} {q : Ring} {bs : List Byte} {s t : State} (ht : t = ((s.setRing n q).orphanAll n).hostWrite addr bs) :
    { t with rings := s.rings, bg := s.bg, ing := { t.ing with copies := s.ing.copies }, desks := s.desks, out := s.out } = s := by
  subst ht
  unfold State.hostWrite State.orphanAll State.setRing
  rfl

/-- A size code above 10 stops the ring that is enabled (R43). -/
theorem ringEnable_of_badSize {n : Nat} {f : CtrlFields} {s : State} (hn : n < 19) (hbar : s.barUp = true) (hoff : (s.ring n).enable = false)
    (herr : (s.ring n).ringErr = false) (hbad : 10 < f.size ∨ 10 < f.cplSize) : ∃ u : State, s.ringEnable n f = u.ringFault n 1 := by
  unfold State.ringEnable
  dsimp only
  rw [if_neg (by simp [hbar, hoff, herr]; omega), if_pos (by simpa using hbad)]
  exact ⟨_, rfl⟩

/-- The offset, base and write-back registers of a ring that is not enabled take a write. -/
theorem writeReg_of_disabled {n : Nat} {s : State} (hn : n < 19) (hbar : s.barUp = true) (hoff : (s.ring n).enable = false) (reg v : Nat)
    (h8 : reg ≠ 0x08) (hC : reg ≠ 0x0C) :
    s.writeReg n reg v = (if reg = 0x00 then s.setRing n { s.ring n with base := v % 18446744073709551616 / 4096 * 4096 }
      else if reg = 0x10 then s.setRing n { s.ring n with cplBase := v % 18446744073709551616 / 4096 * 4096 }
      else if reg = 0x18 then s.setRing n { s.ring n with wbAddr := v % 18446744073709551616 / 64 * 64 }
      else s) := by
  unfold State.writeReg
  dsimp only
  rw [if_neg (by simp [hbar]; omega), if_neg h8, if_neg hC, if_neg (by simp [hoff])]

/-- Settles O30: each register write by the state of its ring, the end of an interval by whether an interrupt is held, PERST_N by its row. -/
theorem ringControl : Obligations.RingControl := by
  rintro dt n size cpl vec mod reg v s r rfl
  refine ⟨fun hn hbar hoff herr => ⟨fun hsize hcpl h16 h17 => ?enable, fun hbad => ?badSize⟩, fun hon => congrArg Host.Outcome.next (if_pos ?ignored),
    fun hon hdue => congrArg Host.Outcome.next ?disable, fun herr h16 h17 => congrArg Host.Outcome.next ?clear, fun hn hbar hoff => ?registers,
    fun hon h8 hC => congrArg Host.Outcome.next ?locked, fun hheld => congrArg Host.Outcome.next (if_pos hheld),
    fun hheld => congrArg Host.Outcome.next (if_neg (by simp [ring_advance, hheld])), rfl⟩
  case enable =>
    have he := ringEnable_of_sizes (s := s.advance dt) (f := { size := size, cplSize := cpl, msixVec := vec, modUs := mod }) hn hbar hoff herr hsize hcpl h16 h17
    refine ⟨_, congrArg Host.Outcome.next he, ?_, fun m hm => ?_, ?_, enabled_frame (s := s.advance dt) rfl⟩
    · exact ring_setRing_same n _ (s.advance dt) rfl
    · exact ring_setRing_other n m _ (s.advance dt) rfl hm
    · have hring := ring_setRing_same n (((s.ring n).withCtrl { size := size, cplSize := cpl, msixVec := vec, modUs := mod }).fresh s.snap.generation)
        (s.advance dt) rfl
      exact congrArg (fun q => ({ s.out with hostWrites := ((s.ring n).wbAddr, writeBackBytes q) :: s.out.hostWrites } : Out)) hring.symm
  case badSize =>
    obtain ⟨u, he⟩ := ringEnable_of_badSize (s := s.advance dt) (f := { size := size, cplSize := cpl, msixVec := vec, modUs := mod }) hn hbar hoff herr hbad
    exact ⟨_, congrArg Host.Outcome.next he, ringFault_spec n 1 u⟩
  case ignored => rcases hon with hon | hon <;> simp [ring_advance, hon]
  case disable =>
    unfold State.ringDisable State.resetIfDue
    rw [ring_advance, if_pos hon, if_neg (by simp [hdue])]
  case clear =>
    unfold State.ringErrClear
    dsimp only
    rw [ring_advance, if_pos herr, if_neg h16, if_neg (by simp [h17])]
  case registers =>
    have hw := writeReg_of_disabled (s := s.advance dt) hn hbar hoff
    refine ⟨congrArg Host.Outcome.next ?_, congrArg Host.Outcome.next ?_, congrArg Host.Outcome.next ?_⟩
    · rw [hw 0x00 _ (by decide) (by decide), if_pos rfl, ring_advance, show 4096 * v % 18446744073709551616 / 4096 * 4096 = 4096 * v % 18446744073709551616 by omega]
    · rw [hw 0x10 _ (by decide) (by decide), if_neg (by decide), if_pos rfl, ring_advance,
        show 4096 * v % 18446744073709551616 / 4096 * 4096 = 4096 * v % 18446744073709551616 by omega]
    · rw [hw 0x18 _ (by decide) (by decide), if_neg (by decide), if_neg (by decide), if_pos rfl, ring_advance,
        show 64 * v % 18446744073709551616 / 64 * 64 = 64 * v % 18446744073709551616 by omega]
  case locked =>
    unfold State.writeReg
    dsimp only
    rw [ring_advance, if_neg h8, if_neg hC, if_pos hon]
    exact ite_self _

/-! ### The service UART, and stray writes (R41, R47, R48) -/

/-- Settles O31: a frame by its escapes, its length and the state of the device. -/
theorem uartAndStray : Obligations.UartAndStray := by
  rintro dt addr raw bs s d rfl
  have hframe : ∀ {t : State}, (s.advance dt).uartFrame raw = t → exec (.uartFrameRx dt raw) s = .next t := congrArg Host.Outcome.next
  refine ⟨fun hraw => hframe ?_, fun hraw => ⟨fun hlen => hframe ?_, fun hup hrec => hframe ?_, fun hlen hup => hframe ?_⟩, rfl,
    fun hmap hbar => congrArg Host.Outcome.next (if_neg ?_), fun hmap => congrArg Host.Outcome.next (if_pos ?_)⟩
  · unfold State.uartFrame
    rw [hraw]
    rfl
  · unfold State.uartFrame
    rw [hraw]
    exact if_pos (by simp [hlen])
  · unfold State.uartFrame
    rw [hraw]
    exact if_pos (by simp [hup, hrec])
  · unfold State.uartFrame
    rw [hraw]
    exact if_neg (by rcases hup with hup | hup <;> simp [hup] <;> omega)
  · have hbar' : (s.advance dt).barUp = true := hbar
    simp [hmap, hbar']
  · simp [hmap]

end Sys2Proof.Machine
end

section
/-! PROOF. The wall raster, time, and Ethernet frames (O32 to O37). -/

namespace Sys2Proof.Machine

open Sys2Proof

/-! ### Wall lines (R66, R67) -/

/-- A quotient rounded up: the least multiple of the divisor that is not below the dividend. -/
theorem ceilDiv_bounds {N P : Nat} (hP : 0 < P) : N ≤ (N + (P - 1)) / P * P ∧ (N + (P - 1)) / P * P < N + P := by
  have hdiv := Nat.div_add_mod (N + (P - 1)) P
  have hmod := Nat.mod_lt (N + (P - 1)) hP
  rw [Nat.mul_comm] at hdiv
  omega

/-- A later dividend, later by more than the divisor, gives a larger quotient. -/
theorem ceilDiv_lt {N N' P : Nat} (hP : 0 < P) (h : N + P ≤ N') : (N + (P - 1)) / P < (N' + (P - 1)) / P := by
  have hlt : (N + (P - 1)) / P * P < (N' + (P - 1)) / P * P :=
    calc (N + (P - 1)) / P * P < N + P := (ceilDiv_bounds hP).2
      _ ≤ N' := h
      _ ≤ (N' + (P - 1)) / P * P := (ceilDiv_bounds hP).1
  exact Nat.lt_of_mul_lt_mul_right hlt

/-- Settles O32: a wall line's start is a quotient rounded up, and two lines lie more than a nanosecond apart. -/
theorem wallLineTimes : Obligations.WallLineTimes := by
  rintro rate n w num den t hhz rfl
  obtain ⟨hnum, hden, hlong⟩ := wallRateHz_pos rate
  rw [← hhz] at hnum hden hlong
  dsimp only at hnum hden hlong
  have hstart : ∀ n w, lineStartNs rate n w = ((4096 * n + w) * (1000000000 * den) + (4096 * num - 1)) / (4096 * num) := by
    intro n w
    unfold lineStartNs
    rw [← hhz, ← Nat.mul_assoc]
  have hP : 0 < 4096 * num := by omega
  rw [hstart]
  refine ⟨hnum, hden, (ceilDiv_bounds hP).1, (ceilDiv_bounds hP).2, fun n' w' h => ?_⟩
  rw [hstart]
  refine ceilDiv_lt hP ?_
  calc (4096 * n + w) * (1000000000 * den) + 4096 * num ≤ (4096 * n + w) * (1000000000 * den) + 1000000000 * den := by omega
    _ = (4096 * n + w + 1) * (1000000000 * den) := (Nat.succ_mul _ _).symm
    _ ≤ (4096 * n' + w') * (1000000000 * den) := Nat.mul_le_mul_right _ h

/-! ### Time counters (R68, R253, R261) -/

/-- A residual slews towards zero and not past it. -/
theorem slew_spec (r : Int) (d : Nat) : (0 ≤ r → 0 ≤ slew r d ∧ slew r d ≤ r) ∧ (r ≤ 0 → r ≤ slew r d ∧ slew r d ≤ 0) := by
  unfold slew
  split <;> omega

/-- While TIME is clocked both counters tick and the residual slews. -/
theorem advance_of_clocked {dt : Nat} {s : State} (h : s.timeRuns = true) :
    (s.advance dt).time = { s.time with
      td0 := s.time.td0.tick dt
      td1 := s.time.td1.tick dt
      resid := slew s.time.resid (dt * (s.time.domain s.time.active).incr * s.lay.dev.tdSlewPpm / 1000000)
      upTicks := s.time.upTicks + dt } := if_pos h

/-- While TIME is not clocked the counters stand, and the ticks are counted alone. -/
theorem advance_of_unclocked {dt : Nat} {s : State} (h : s.timeRuns = false) : (s.advance dt).time = { s.time with upTicks := s.time.upTicks + dt } :=
  if_neg (by rw [h]; exact Bool.false_ne_true)

/-- Settles O33: what a tick does to each counter and to the residual, while the domain is clocked and while it is not. -/
theorem timeCounters : Obligations.TimeCounters := by
  rintro dt d s t rfl hd
  have hruns : s.timeRuns = decide (8 ≤ s.boot.step) := rfl
  refine ⟨fun h8 => ?clocked, fun h8 => ?unclocked, ⟨_, _, _, rfl, rfl, rfl, ?parts⟩, fun h0 => ?above, fun h0 => ?below, rfl, rfl⟩
  case clocked =>
    rw [advance_of_clocked (hruns.trans (decide_eq_true h8))]
    unfold Time.domain
    split <;> rfl
  case unclocked =>
    rw [advance_of_unclocked (hruns.trans (decide_eq_false (Nat.not_le.2 h8)))]
    exact ⟨rfl, rfl⟩
  case parts =>
    unfold Domain.ns nsUnit
    omega
  case above =>
    cases hr : s.timeRuns
    · rw [advance_of_unclocked hr]
      exact ⟨h0, le_refl _⟩
    · rw [advance_of_clocked hr]
      exact (slew_spec _ _).1 h0
  case below =>
    cases hr : s.timeRuns
    · rw [advance_of_unclocked hr]
      exact ⟨le_refl _, h0⟩
    · rw [advance_of_clocked hr]
      exact (slew_spec _ _).2 h0

/-! ### WALL_LINE_START and RASTER_START (R67, R69, R70, R78) -/

/-- Settles O34: the row's condition, and the two forms of the next line. -/
theorem wallLineRow : Obligations.WallLineRow := by
  rintro dt o s a rfl
  refine ⟨fun hno => congrArg Host.Outcome.next (if_pos ?_), fun hrun hdue => ?_⟩
  · rcases hno with hno | hno
    · rw [hno]; rfl
    · simp only [decide_eq_true hno, Bool.or_true]
  · have hgo : ¬ (!(s.advance dt).raster.run || decide ((s.advance dt).wallNs < lineStartNs (s.advance dt).lay.dev.wallRate (s.advance dt).raster.next.1
        (s.advance dt).raster.next.2)) = true := by
      rw [hrun, decide_eq_false (Nat.not_lt.2 hdue)]
      decide
    refine ⟨fun hline => congrArg Host.Outcome.next ?_, fun hline => congrArg Host.Outcome.next ?_⟩
    · have hnext : (s.advance dt).raster.next = ((s.advance dt).raster.frame, (s.advance dt).raster.line + 1) := if_neg hline
      unfold State.wallLine
      rw [hnext] at hgo ⊢
      dsimp only at hgo ⊢
      rw [if_neg hgo, if_neg (Nat.succ_ne_zero _)]
    · have hnext : (s.advance dt).raster.next = ((s.advance dt).raster.frame + 1, 0) := if_pos hline
      unfold State.wallLine
      rw [hnext] at hgo ⊢
      dsimp only at hgo ⊢
      rw [if_neg hgo, if_pos rfl]

/-- The raster is ready to start in a settled device, where it stands and its clock has not failed. -/
theorem rasterReady_of_settled {s : State} (hs : s.Settled) (hrun : s.raster.run = false) (hclk : Clock.pllTime ∉ s.clk.onFio) : s.rasterReady = true := by
  obtain ⟨hstep, -, hdev⟩ := hs
  have hany : s.clk.onFio.any (fun k => decide (k = .pllTime)) = false := by
    rw [List.any_eq_false]
    intro k hk he
    exact hclk (of_decide_eq_true he ▸ hk)
  unfold State.rasterReady
  rw [hrun, hstep, hany]
  rcases hdev with hdev | hdev | hdev | hdev <;> rw [hdev] <;> rfl

/-- A raster that runs, a device that is not settled, or a clock that has failed keeps the raster from starting. -/
theorem not_rasterReady {s : State} (h : s.raster.run = true ∨ s.boot.step ≠ 11 ∨ s.dev = .off ∨ s.dev = .starting ∨ s.dev = .recovery ∨
    Clock.pllTime ∈ s.clk.onFio) : s.rasterReady = false := by
  unfold State.rasterReady
  rcases h with h | h | h | h | h | h
  · simp [h]
  · simp [h]
  · simp [h]
  · simp [h]
  · simp [h]
  · have hany : s.clk.onFio.any (fun k => decide (k = .pllTime)) = true := by simpa using h
    simp [hany]

/-- Settles O35: the row's condition by the two lemmas before. -/
theorem rasterStartRow : Obligations.RasterStartRow := by
  rintro dt o s a rfl
  refine ⟨fun hno => congrArg Host.Outcome.next (if_pos ?_), fun u hu hs hrun hclk hdue => congrArg Host.Outcome.next ?_⟩
  · rcases hno with h | h | h | h | h | h | h
    · rw [not_rasterReady (.inl h)]; rfl
    · rw [not_rasterReady (.inr (.inl h))]; rfl
    · rw [not_rasterReady (.inr (.inr (.inl h)))]; rfl
    · rw [not_rasterReady (.inr (.inr (.inr (.inl h))))]; rfl
    · rw [not_rasterReady (.inr (.inr (.inr (.inr (.inl h)))))]; rfl
    · rw [not_rasterReady (.inr (.inr (.inr (.inr (.inr h)))))]; rfl
    · rw [decide_eq_true h, Bool.or_true]
  · unfold State.rasterBegin
    dsimp only
    rw [if_neg (by rw [rasterReady_of_settled hs hrun hclk, decide_eq_false (Nat.not_lt.2 hdue)]; decide), ← hu]

/-- Settles O36: Cleat's work at wall line 0 is the heartbeat and the snapshot. -/
theorem snapshotAtLineZero : Obligations.SnapshotAtLineZero := by
  rintro s t h0 h1 rfl
  have hup : s.cleatUp = true := by unfold State.cleatUp; rw [h0, h1]; rfl
  have he : s.cleatLine0 = ({ s with mirror := { s.mirror with heartbeat := (s.mirror.heartbeat + 1) % 4294967296 } }).wallSnapshot := if_pos hup
  rw [he]
  refine ⟨rfl, rfl, rfl, rfl, rfl, rfl, rfl, fun hsame => if_pos hsame, fun hother => if_neg hother, rfl⟩

/-! ### Ethernet frames (R89 to R92, R97) -/

/-- A frame of sound length that passes its check, at a live MAC, is dealt with by what it holds. -/
theorem ethFrame_of_sound {mac vlan length : Nat} {kind : EthKind} {a : State} (hlive : a.macLive mac = true) (hlen : length ≤ 9216) :
    a.ethFrame mac kind vlan length true = match kind with
      | .ptp => a
      | .udp port dst src ssrc => if !ptpPort port && a.writersRun && (matchFlow a.lay mac vlan dst port src ssrc).isNone then a.count 0x17 mac 0 1 else a
      | .other => a
      | _ => if a.procDown 8 then a else a.fixedRule mac kind := by
  unfold State.ethFrame
  rw [if_neg (by simp [hlive]), if_neg (by decide), if_neg (by omega)] <;> cases kind <;> rfl

/-- Settles O37: the two discards by their checks, every other frame by `ethFrame_of_sound`. -/
theorem ethernetFrames : Obligations.EthernetFrames := by
  intro dt mac vlan length kind s a ha hlive
  have hrow : ∀ {ok : Bool} {k : EthKind} {t : State}, a.ethFrame mac k vlan length ok = t → exec (.ethFrameRx dt mac k vlan length ok) s = .next t := by
    rw [ha]
    exact congrArg Host.Outcome.next
  refine ⟨hrow ?badCheck, fun hlen => hrow ?tooLong, fun hlen => ⟨fun hk => hrow ?noFlow, fun port dst src ssrc hk hw => hrow ?udp, fun t hproc hown => ?own⟩⟩
  case badCheck =>
    unfold State.ethFrame
    rw [if_neg (by simp [hlive])]
    rfl
  case tooLong =>
    unfold State.ethFrame
    rw [if_neg (by simp [hlive]), if_neg (by decide), if_pos hlen]
  case noFlow =>
    rw [ethFrame_of_sound hlive hlen]
    rcases hk with rfl | rfl <;> rfl
  case udp =>
    rw [ethFrame_of_sound hlive hlen, hk]
    simp [hw, ptpPort, and_assoc]
  case own =>
    refine ⟨fun hip hk => hrow ?_, fun hip hk => hrow ?_, fun hk => hrow ?_⟩ <;> rw [ethFrame_of_sound hlive hlen, hk] <;> dsimp only <;>
      rw [if_neg (by simp [hproc])]
    · exact if_pos (by simp [hown, hip])
    · exact if_pos (by simp [hown, hip])
    · exact if_pos hown

end Sys2Proof.Machine
end

section
/-! PROOF. RTP packets, the time-outs of flows, and seals (O38 to O40). -/

namespace Sys2Proof.Machine

open Sys2Proof

/-! ### RTP packets (R91, R93, R94, R98) -/

/-- A number that is in a list is found there. -/
theorem hasNat_iff {k : Nat} {l : List Nat} : hasNat k l = true ↔ k ∈ l := by
  rw [hasNat_eq_decide, decide_eq_true_eq]

/-- A count for a flow that is not one of a pair counts once. -/
theorem countFlow_of_unpaired {c : FlowCfg} (hc : c.pair = 0xFFFF) (k i n : Nat) (s : State) : s.countFlow c k i n = s.count 0x01 k i n := by
  unfold State.countFlow isPair
  rw [hc]
  rfl

/-- A packet of an uncompressed flow that is not one of a pair, without a discontinuity, is counted and takes its place in the flow's numbers. -/
theorem rtpPacket_of_match {p : RtpPacket} {a : State} {f : Nat} {c : FlowCfg} (hlive : a.macLive p.mac = true) (hw : a.writersRun = true)
    (hm : matchFlow a.lay p.mac p.vlan p.dst p.dstPort p.src p.ssrc = some (f, c)) (h3 : c.type = 3) (hp : c.pair = 0xFFFF)
    (hb : breaks c (a.flowRt f) p = false) : a.rtpPacket p = (a.count 0x01 f 0 1).sequence f c 0 p := by
  have hkey : flowKey c f = f := if_pos hp
  have hb' : breaks c ((a.count 0x01 f 0 1).flowRt f) p = false := hb
  unfold State.rtpPacket
  rw [if_neg (by simp [hlive, hw]), hm]
  dsimp only
  have hcoded : (decide (c.type < 3) && !payloadOk c.type p.payload) = false := by simp [h3]
  rw [hkey, if_neg (show ¬ c.type = 4 by omega), hcoded, if_neg Bool.false_ne_true, hb', if_neg Bool.false_ne_true, if_pos rfl]

/-- Of a flow that has started, a number that is not above the highest is a duplicate, or fills a hole, or is late. -/
theorem sequence_of_old {k q : Nat} {c : FlowCfg} {p : RtpPacket} {s : State} (hp : c.pair = 0xFFFF) (hs : (s.flowRt k).started = true)
    (hq : q = (unwrapSeq c (s.flowRt k) p.seq).toNat) (hle : q ≤ (s.flowRt k).highest) :
    (q ∈ (s.flowRt k).seen → s.sequence k c 0 p = s.count 0x01 k 1 1) ∧
    (q ∉ (s.flowRt k).seen → (∀ h ∈ (s.flowRt k).holes, h.seq ≠ q) → s.sequence k c 0 p = s.count 0x01 k 2 1) := by
  have hpair : isPair c = false := by simp [isPair, hp]
  unfold State.sequence
  simp only [hs, hpair, if_true, ← hq, Bool.false_eq_true, if_false, Bool.not_true, countFlow_of_unpaired hp, if_neg (Nat.not_lt.2 hle)]
  refine ⟨fun hin => if_pos (hasNat_iff.2 hin), fun hout hno => ?_⟩
  rw [if_neg (by rw [hasNat_iff]; exact hout), if_neg (by simpa using hno)]

/-- A frame of an uncompressed flow that takes its capture time from the arrival opens in a free buffer. -/
theorem openFrame_of_free {k ts b : Nat} {c : FlowCfg} {s : State} (h3 : c.type = 3) (h2 : c.tsMode = 2) (hb : s.freeSrcBuf c.target = some b) :
    ∃ fb, s.openFrame k c ts = (s.modBuf c.target b (fun _ => fb)).modFlow k (fun fl => { fl with frames := fl.frames ++
      [{ ts := ts, buf := some b, arrival := s.wallNs, capture := s.wallNs, captSrc := 1, cls := (s.lay.source c.target).cls, openedAt := s.time.upTicks }] }) := by
  have hcap : s.captureOf c ts = ((s.wallNs, 1), s) := by
    unfold State.captureOf
    exact if_pos (by simp [h2])
  unfold State.openFrame
  rw [hcap]
  dsimp only
  rw [if_neg (show ¬ (1 : Nat) = 3 by decide), if_neg (not_not.2 h3), hb, if_pos h3]
  exact ⟨_, rfl⟩

/-- A packet without pixels and marker joins the one frame of its timestamp with its number alone. -/
theorem joinFrame_of_empty {k q b : Nat} {c : FlowCfg} {p : RtpPacket} {s : State} {x : FlowRt} {g : OpenFrame} (hx : s.flowRt k = x)
    (hf : x.frames = [g]) (hts : g.ts = p.ts) (hb : g.buf = some b) (h3 : c.type = 3) (hm : p.marker = false) (hseg : p.segments = []) :
    ∃ e, s.joinFrame k c p q = (s.modBuf c.target b e).modFlow k (fun fl => { fl with frames := fl.frames.map (fun f =>
      if f.ts = p.ts then { f with seqs := q :: f.seqs, floor := frameFloor fl { f with seqs := q :: f.seqs } } else f) }) := by
  have hfind : (List.find? (fun (f : OpenFrame) => decide (f.ts = p.ts)) (s.flowRt k).frames).bind (fun f => f.buf) = some b := by
    rw [hx, hf]
    simp [hts, hb]
  unfold State.joinFrame
  dsimp only
  rw [hfind, hm, hseg]
  simp only [h3, Nat.lt_irrefl, if_false, Bool.false_eq_true]
  exact ⟨_, rfl⟩

/-- Where no frame of a flow has its marker, none closes. -/
theorem closeMarked_of_unmarked {k : Nat} {c : FlowCfg} {s : State} (h : ∀ f ∈ (s.flowRt k).frames, closable (s.flowRt k) f = false) : s.closeMarked k c = s := by
  unfold State.closeMarked
  rw [List.filter_eq_nil_iff.2 fun f hf => by rw [h f hf]; exact Bool.false_ne_true]
  rfl

/-- The flow's first packet: the flow has started, and its number is the highest and the only one. -/
theorem take_of_default (q ssrc : Nat) : FlowRt.take q ssrc {} = { started := true, highest := q, ssrc := ssrc, seen := [q] } := by
  simp [FlowRt.take]

/-- The frame of the packet `p` that opens in the buffer `b` at the state `s`, before the packet has joined it. -/
def openedFrame (c : FlowCfg) (p : RtpPacket) (b : Nat) (s : State) : OpenFrame :=
  { ts := p.ts, buf := some b, arrival := s.wallNs, capture := s.wallNs, captSrc := 1, cls := (s.lay.source c.target).cls, openedAt := s.time.upTicks }

/-- The flow after its first packet `p`, whose number is `q`. -/
def startedFlow (p : RtpPacket) (q : Nat) (frames : List OpenFrame) : FlowRt :=
  { started := true, highest := q, ssrc := p.ssrc, seen := [q], frames := frames }

/-- A flow that has started has left the state of reset. -/
theorem startedFlow_ne (p : RtpPacket) (q : Nat) (frames : List OpenFrame) : startedFlow p q frames ≠ {} :=
  fun h => Bool.noConfusion (congrArg FlowRt.started h)

/-- The change of a flow to a value of a started one reads back. -/
theorem flowRt_of_started {k q : Nat} {p : RtpPacket} {l : List OpenFrame} {g : FlowRt → FlowRt} {s : State} (h : g (s.flowRt k) = startedFlow p q l) :
    (s.modFlow k g).flowRt k = startedFlow p q l :=
  (flowRt_modFlow k g s (h.trans_ne (startedFlow_ne p q l))).trans h

/-- The state `t` differs from `s` in its flows and sources alone. -/
def sameButFlows (s t : State) : Prop := { t with ing := { t.ing with flows := s.ing.flows, sources := s.ing.sources } } = s

/-- Changes of flows and sources add up. -/
theorem sameButFlows_trans {s t u : State} (h : sameButFlows s t) (h' : sameButFlows t u) : sameButFlows s u := by
  unfold sameButFlows at *
  exact (congrArg (fun x : State => { x with ing := { x.ing with flows := s.ing.flows, sources := s.ing.sources } }) h').trans h

/-- A change of a flow. -/
theorem sameButFlows_modFlow (k : Nat) (g : FlowRt → FlowRt) (s : State) : sameButFlows s (s.modFlow k g) := rfl

/-- A change of a frame buffer. -/
theorem sameButFlows_modBuf (i b : Nat) (g : FrameBuf → FrameBuf) (s : State) : sameButFlows s (s.modBuf i b g) := rfl

/-- The instant of a later timestamp, noted in the flow's open frames. -/
def noteLater (p : RtpPacket) (s : State) (fl : FlowRt) : FlowRt :=
  { fl with frames := fl.frames.map (fun f => if f.laterAt.isNone && decide (0 < tsDiff p.ts f.ts) then { f with laterAt := some s.time.upTicks } else f) }

/-- The packet's number, noted in the open frame of its timestamp. -/
def noteNumber (p : RtpPacket) (q : Nat) (fl : FlowRt) : FlowRt :=
  { fl with frames := fl.frames.map (fun f =>
      if f.ts = p.ts then { f with seqs := q :: f.seqs, floor := frameFloor fl { f with seqs := q :: f.seqs } } else f) }

/-- The packet's number enters the one open frame, which no number before it bounds. -/
theorem noteNumber_of_opened (c : FlowCfg) (p : RtpPacket) (q b : Nat) (s : State) :
    noteNumber p q (startedFlow p q [openedFrame c p b s]) = startedFlow p q [{ openedFrame c p b s with seqs := [q] }] := by
  simp [noteNumber, startedFlow, openedFrame, frameFloor]

/-- The first packet of a flow, without pixels and marker, opens the flow's frame and joins it. -/
theorem framePacket_of_first {k b q : Nat} {c : FlowCfg} {p : RtpPacket} {s : State} (h3 : c.type = 3) (h2 : c.tsMode = 2)
    (hx : s.flowRt k = startedFlow p q []) (hm : p.marker = false) (hseg : p.segments = []) (hb : s.freeSrcBuf c.target = some b) :
    (s.framePacket k c p q false).flowRt k = startedFlow p q [{ openedFrame c p b s with seqs := [q] }] ∧ sameButFlows s (s.framePacket k c p q false) := by
  have hstep : s.framePacket k c p q false = (((s.modFlow k (noteLater p s)).openFrame k c p.ts).joinFrame k c p q).closeMarked k c := by
    unfold State.framePacket
    rw [hx]
    rfl
  have h1 : (s.modFlow k (noteLater p s)).flowRt k = startedFlow p q [] := flowRt_of_started (by rw [hx]; rfl)
  obtain ⟨fb, hopen⟩ := openFrame_of_free (k := k) (ts := p.ts) (s := s.modFlow k (noteLater p s)) h3 h2 hb
  have hopened : ((s.modFlow k (noteLater p s)).openFrame k c p.ts).flowRt k = startedFlow p q [openedFrame c p b s] := by
    rw [hopen]
    refine flowRt_of_started ?_
    change (fun fl : FlowRt => ({ fl with frames := fl.frames ++ [openedFrame c p b s] } : FlowRt)) ((s.modFlow k (noteLater p s)).flowRt k) = _
    rw [h1]
    rfl
  obtain ⟨e, hjoin⟩ := joinFrame_of_empty (q := q) hopened rfl rfl rfl h3 hm hseg
  have hjoined : (((s.modFlow k (noteLater p s)).openFrame k c p.ts).joinFrame k c p q).flowRt k = startedFlow p q [{ openedFrame c p b s with seqs := [q] }] := by
    rw [hjoin]
    refine flowRt_of_started ?_
    change noteNumber p q (((s.modFlow k (noteLater p s)).openFrame k c p.ts).flowRt k) = _
    rw [hopened, noteNumber_of_opened]
  have hclose := closeMarked_of_unmarked (c := c) (k := k) fun f hf => by
    rw [hjoined] at hf ⊢
    rw [List.mem_singleton.1 hf]
    rfl
  rw [hstep, hclose]
  refine ⟨hjoined, ?_⟩
  rw [hjoin, hopen]
  exact sameButFlows_trans (sameButFlows_modFlow _ _ _) <| sameButFlows_trans (sameButFlows_modBuf _ _ _ _) <|
    sameButFlows_trans (sameButFlows_modFlow _ _ _) <| sameButFlows_trans (sameButFlows_modBuf _ _ _ _) (sameButFlows_modFlow _ _ _)

/-- The first packet of a flow, without pixels and marker, starts the flow and opens its one frame. -/
theorem sequence_of_first {k b q : Nat} {c : FlowCfg} {p : RtpPacket} {s : State} (h3 : c.type = 3) (h2 : c.tsMode = 2) (hp : c.pair = 0xFFFF)
    (hq : q = firstSeq p.seq) (hnew : s.flowRt k = {}) (hm : p.marker = false) (hseg : p.segments = []) (hb : s.freeSrcBuf c.target = some b) :
    (s.sequence k c 0 p).flowRt k = startedFlow p q [{ openedFrame c p b s with seqs := [q] }] ∧ sameButFlows s (s.sequence k c 0 p) := by
  have hpair : isPair c = false := by simp [isPair, hp]
  have htake : (s.modFlow k (FlowRt.take q p.ssrc)).flowRt k = startedFlow p q [] := flowRt_of_started (by rw [hnew]; exact take_of_default q p.ssrc)
  have hseq : s.sequence k c 0 p = (s.modFlow k (FlowRt.take q p.ssrc)).framePacket k c p q false := by
    unfold State.sequence
    simp [hpair, hnew, hq]
  obtain ⟨hflow, hframe⟩ := framePacket_of_first h3 h2 htake hm hseg hb
  rw [hseq]
  exact ⟨hflow, sameButFlows_trans (sameButFlows_modFlow _ _ _) hframe⟩

/-- Settles O38: a packet of no flow, one with an old number, and the first of a flow. -/
theorem rtpPackets : Obligations.RtpPackets := by
  intro dt p s a ha hlive hw
  have hrow : ∀ {t : State}, a.rtpPacket p = t → exec (.rtpPacketRx dt p) s = .next t := by
    rw [ha]
    exact congrArg Host.Outcome.next
  refine ⟨fun hm => hrow ?none, fun f c q hm h3 hp hs hb hq hle => ?old, fun f c b hm h3 hp hnew hmark hseg h2 hb => ?first⟩
  case none =>
    unfold State.rtpPacket
    rw [if_neg (by simp [hlive, hw]), hm]
  case old =>
    obtain ⟨hdup, hlate⟩ := sequence_of_old (s := a.count 0x01 f 0 1) hp hs hq hle
    exact ⟨fun hin => hrow ((rtpPacket_of_match hlive hw hm h3 hp hb).trans (hdup hin)),
      fun hout hno => hrow ((rtpPacket_of_match hlive hw hm h3 hp hb).trans (hlate hout hno))⟩
  case first =>
    have hbreaks : breaks c (a.flowRt f) p = false := by rw [hnew]; rfl
    obtain ⟨hflow, hframe⟩ := sequence_of_first (s := a.count 0x01 f 0 1) h3 h2 hp rfl hnew hmark hseg hb
    refine ⟨_, hrow (rtpPacket_of_match hlive hw hm h3 hp hbreaks), hflow, (congrArg State.counters hframe :), ?_⟩
    exact congrArg (fun x : State => { x with counters := a.counters }) hframe

/-! ### The time-outs of a flow (R94, R95, R98, R99) -/

/-- A flow is one of a pair exactly where it names another. -/
theorem isPair_iff {c : FlowCfg} : isPair c = true ↔ c.pair ≠ 0xFFFF := by simp [isPair]

/-- A count for a flow of a pair counts for both. -/
theorem countFlow_of_paired {c : FlowCfg} (hc : c.pair ≠ 0xFFFF) {i : Nat} (h4 : i ≠ 4) (h5 : i ≠ 5) (k n : Nat) (s : State) :
    s.countFlow c k i n = (s.count 0x01 k i n).count 0x01 (s.lay.flows.get {} k).pair i n := by
  unfold State.countFlow
  rw [if_pos (isPair_iff.2 hc), if_neg h4, if_neg h5]

/-- A hole that no number matches stands. -/
theorem holeClose_of_none {f k q m : Nat} {c : FlowCfg} {s : State} (hc : s.lay.flows.get {} f = c) (hk : k = flowKey c f)
    (hm : m = (if c.type = 3 then 4294967296 else 65536)) (h : ∀ y ∈ (s.flowRt k).holes, y.seq % m ≠ q % m) : s.holeClose f q = s := by
  have hfind : List.find? (fun (y : Hole) => decide (y.seq % m = q % m)) (s.flowRt k).holes = none :=
    List.find?_eq_none.2 fun y hy => by simpa using h y hy
  unfold State.holeClose
  dsimp only
  rw [hc, ← hk, ← hm, hfind]

/-- A hole closes. -/
theorem holeClose_of_some {f k q m : Nat} {c : FlowCfg} {s : State} {y : Hole} (hc : s.lay.flows.get {} f = c) (hk : k = flowKey c f)
    (hm : m = (if c.type = 3 then 4294967296 else 65536)) (hw : s.writersRun = true)
    (h : (s.flowRt k).holes.find? (fun y => decide (y.seq % m = q % m)) = some y) (b : State)
    (hb : b = (fun u : State => if c.pair = 0xFFFF then u else u.settled c k y.seq) ((s.countFlow c k 3 1).modFlow k (FlowRt.lose y.seq))) :
    s.holeClose f q = ((b.flowRt k).frames.foldl (fun u g => u.fillGap k c y.seq g) b).closeMarked k c := by
  have hpair : b = if isPair c then ((s.countFlow c k 3 1).modFlow k (FlowRt.lose y.seq)).settled c k y.seq
      else (s.countFlow c k 3 1).modFlow k (FlowRt.lose y.seq) := by
    rw [hb]
    by_cases hp : c.pair = 0xFFFF <;> simp [isPair, hp]
  unfold State.holeClose
  dsimp only
  rw [hc, ← hk, ← hm, h]
  dsimp only
  rw [hw, if_neg (by decide), ← hpair]

/-- Where no window has passed, no frame closes. -/
theorem frameTimeout_of_none {f k : Nat} {c : FlowCfg} {s : State} (hc : s.lay.flows.get {} f = c) (hk : k = flowKey c f)
    (h : ∀ g ∈ (s.flowRt k).frames, s.windowPassed c (s.flowRt k) g = false) : s.frameTimeout f = s := by
  have hfind : List.find? (fun (g : OpenFrame) => s.windowPassed c (s.flowRt k) g) (s.flowRt k).frames = none :=
    List.find?_eq_none.2 fun g hg => by rw [h g hg]; exact Bool.false_ne_true
  unfold State.frameTimeout
  dsimp only
  rw [hc, ← hk, hfind]

/-- The oldest frame whose window has passed closes. -/
theorem frameTimeout_of_some {f k : Nat} {c : FlowCfg} {s : State} {g : OpenFrame} (hc : s.lay.flows.get {} f = c) (hk : k = flowKey c f)
    (hw : s.writersRun = true) (h : (s.flowRt k).frames.find? (fun y => s.windowPassed c (s.flowRt k) y) = some g) :
    s.frameTimeout f = (s.closeFrame k c g.ts).closeMarked k c := by
  unfold State.frameTimeout
  dsimp only
  rw [hc, ← hk, h]
  exact if_pos hw

/-- What a frame's close leaves of its flow. -/
def FlowRt.closed (ts : Nat) (fl : FlowRt) : FlowRt :=
  { fl with frames := fl.frames.filter (fun g => decide (g.ts ≠ ts)), closedTs := (ts :: fl.closedTs).take 1100 }

/-- Concealing keeps the frame one that is being written. -/
theorem concealSpans_writing (ref : Option FrameBuf) (gaps : List (Nat × Nat)) (fb : FrameBuf) :
    (gaps.foldl (fun fb r => concealSpan ref r.1 r.2 fb) fb).writing = fb.writing := by
  induction gaps generalizing fb with
  | nil => rfl
  | cons r t ih => exact ih (concealSpan ref r.1 r.2 fb)

/-- A source reads back a changed buffer. -/
theorem srcRt_modBuf {i b : Nat} {g : FrameBuf → FrameBuf} {s : State} (h : g ((s.srcRt i).bufs.get {} b) ≠ {}) :
    (s.modBuf i b g).srcRt i = { s.srcRt i with bufs := (s.srcRt i).bufs.modify {} b g } := by
  refine srcRt_modSrc i _ s fun hd => h ?_
  have hget : ((s.srcRt i).bufs.modify {} b g).get {} b = g ((s.srcRt i).bufs.get {} b) := tab_get_set_same _ _ _ _ h
  have hnil : (s.srcRt i).bufs.modify {} b g = [] := congrArg SourceRt.bufs hd
  rw [← hget, hnil]
  rfl

/-- A frame that is being written and closes goes behind those that wait for their seal. -/
theorem closeType3_ready {k b missing : Nat} {c : FlowCfg} {g : OpenFrame} {fb : FrameBuf} {s : State} (hbuf : g.buf = some b)
    (hfb : fb = (s.srcRt c.target).bufs.get {} b) (hwr : fb.writing = true)
    (hmiss : missing = ((uncoveredRuns (fb.width * fb.height) 0 g.runs).map (fun r => r.2 - r.1)).sum) :
    ((s.closeType3 k c g).srcRt c.target).ready = (s.srcRt c.target).ready ++
      [{ buf := b, capture := g.capture, captSrc := g.captSrc, arrival := g.arrival, concealedPixels := missing, concealed := decide (0 < missing),
         origin := k, cls := g.cls, flow := some k }] := by
  have hsum : missing = (uncoveredRuns (fb.width * fb.height) 0 g.runs).foldl (fun a r => a + (r.2 - r.1)) 0 := by
    rw [hmiss, List.sum_eq_foldl, List.foldl_map]
  have hconceal : ((s.concealRuns c.target b 0 (fb.width * fb.height) g).srcRt c.target).ready = (s.srcRt c.target).ready := by
    unfold State.concealRuns
    rw [srcRt_modBuf fun h => ?_]
    have hset := congrArg FrameBuf.writing h
    rw [concealSpans_writing, ← hfb, hwr] at hset
    exact Bool.noConfusion hset
  unfold State.closeType3
  rw [hbuf]
  dsimp only
  rw [← hfb, ← hsum]
  unfold State.makeReady
  rw [srcRt_modSrc _ _ _ (fun h => List.append_ne_nil_of_right_ne_nil _ (List.cons_ne_nil _ _) (congrArg SourceRt.ready h)), hconceal]

/-- The close of a frame of an uncompressed flow, where no other frame may close with it. -/
theorem closeFrame_of_type3 {k b missing : Nat} {c : FlowCfg} {x : FlowRt} {g : OpenFrame} {fb : FrameBuf} {s : State} (hx : x = s.flowRt k) (hg : g ∈ x.frames)
    (h3 : c.type = 3) (hbuf : g.buf = some b) (hdrop : g.dropped = false) (hfb : fb = (s.srcRt c.target).bufs.get {} b) (hwr : fb.writing = true)
    (hone : ∀ y ∈ x.frames, y.ts = g.ts → y = g) (hothers : ∀ y ∈ x.frames, y.ts ≠ g.ts → closable x y = false)
    (hmiss : missing = ((uncoveredRuns (fb.width * fb.height) 0 g.runs).map (fun r => r.2 - r.1)).sum) :
    ∃ t, (s.closeFrame k c g.ts).closeMarked k c = t ∧ t.flowRt k = x.closed g.ts ∧ (t.srcRt c.target).ready = (s.srcRt c.target).ready ++
      [{ buf := b, capture := g.capture, captSrc := g.captSrc, arrival := g.arrival, concealedPixels := missing, concealed := decide (0 < missing),
         origin := k, cls := g.cls, flow := some k }] ∧ sameButFlows s t := by
  have hfind : List.find? (fun (y : OpenFrame) => decide (y.ts = g.ts)) (s.flowRt k).frames = some g := by
    cases hf : List.find? (fun (y : OpenFrame) => decide (y.ts = g.ts)) (s.flowRt k).frames with
    | none => exact absurd (List.find?_eq_none.1 hf g (hx ▸ hg)) (by simp)
    | some y => rw [hone y (hx ▸ List.mem_of_find?_eq_some hf) (by simpa using List.find?_some hf)]
  have hclose : s.closeFrame k c g.ts = (s.modFlow k (FlowRt.closed g.ts)).closeType3 k c g := by
    unfold State.closeFrame
    dsimp only
    rw [hfind]
    dsimp only
    rw [hdrop, if_neg Bool.false_ne_true, if_pos h3]
    rfl
  obtain ⟨srcs, hsrcs⟩ := closeType3_frame k c g (s.modFlow k (FlowRt.closed g.ts))
  have hflow : ((s.modFlow k (FlowRt.closed g.ts)).closeType3 k c g).flowRt k = x.closed g.ts := by
    rw [hsrcs, hx]
    exact flowRt_modFlow k _ s fun h => List.cons_ne_nil _ _ (congrArg FlowRt.closedTs h)
  have hmarked : ((s.modFlow k (FlowRt.closed g.ts)).closeType3 k c g).closeMarked k c = (s.modFlow k (FlowRt.closed g.ts)).closeType3 k c g := by
    refine closeMarked_of_unmarked fun y hy => ?_
    rw [hflow] at hy ⊢
    obtain ⟨hy, hts⟩ := List.mem_filter.1 hy
    exact hothers y hy (by simpa using hts)
  refine ⟨_, rfl, ?_⟩
  rw [hclose, hmarked]
  refine ⟨hflow, closeType3_ready hbuf hfb hwr hmiss, ?_⟩
  rw [hsrcs]
  rfl

/-- A path of a pair whose other path delivers goes down, with its count for both flows. -/
theorem pathDown_of_delivered {f k path : Nat} {c : FlowCfg} {x : FlowRt} {s : State} (hc : s.lay.flows.get {} f = c) (hk : k = flowKey c f) (hx : x = s.flowRt k)
    (hw : s.writersRun = true) (hp : c.pair ≠ 0xFFFF) (hen : c.enable = true) (hpath : path < 2)
    (hother : (if path = 0 then x.arrivalB else x.arrivalA).isSome = true) (hdown : (if path = 0 then x.downA else x.downB) = false) :
    s.pathDown f path = ((s.count 0x01 k 6 1).count 0x01 (s.lay.flows.get {} k).pair 6 1).modFlow k (fun y =>
      if path = 0 then { y with downA := true } else { y with downB := true }) := by
  unfold State.pathDown
  dsimp only
  rw [hc, ← hk, ← hx, hother, hdown, hw, hen, isPair_iff.2 hp, decide_eq_true hpath, countFlow_of_paired hp (by decide) (by decide)]
  rfl

/-- Settles O39: holes, windows and paths, each with the case in which nothing is due. -/
theorem flowTimeouts : Obligations.FlowTimeouts := by
  intro dt f k c x s a ha hw hc hk hx
  subst hx
  have hhole : ∀ {q : Nat} {t : State}, a.holeClose f q = t → exec (.holeClose dt f q) s = .next t := by
    rw [ha]
    exact congrArg Host.Outcome.next
  have htime : ∀ {t : State}, a.frameTimeout f = t → exec (.frameCloseTimeout dt f) s = .next t := by
    rw [ha]
    exact congrArg Host.Outcome.next
  have hpath : ∀ {p : Nat} {t : State}, a.pathDown f p = t → exec (.pathDown dt f p) s = .next t := by
    rw [ha]
    exact congrArg Host.Outcome.next
  refine ⟨fun q m hm => ⟨fun h => hhole (holeClose_of_none hc hk hm h), fun y b h hb => hhole (holeClose_of_some hc hk hm hw h b hb)⟩,
    fun h => htime (frameTimeout_of_none hc hk h), fun g h => ⟨htime (frameTimeout_of_some hc hk hw h), ?_⟩,
    fun p hp hen hlt hother hdown => hpath (pathDown_of_delivered hc hk rfl hw hp hen hlt hother hdown)⟩
  intro b missing fb h3 hbuf hdrop hfb hwr hone hothers hmiss
  obtain ⟨t, ht, hflow, hready, hframe⟩ := closeFrame_of_type3 rfl (List.mem_of_find?_eq_some h) h3 hbuf hdrop hfb hwr hone hothers hmiss
  exact ⟨t, htime ((frameTimeout_of_some hc hk hw h).trans ht), congrArg FlowRt.frames hflow, congrArg FlowRt.closedTs hflow, hready, hframe⟩

/-! ### Seals (R105 to R111) -/

/-- The state of a source with the seal `x` of frame `f` in its buffer `b`, before buffers are released. -/
def SourceRt.sealed (now : Nat) (f : ReadyFrame) (b : FrameBuf) (x : Seal) (rt : SourceRt) : SourceRt :=
  { rt with seals := (x :: rt.seals).take 8
            nextSeq := some ((x.seq + 1) % 4294967296)
            status := { latestSeq := x.seq, lastAdvance := now, flags := sealFlags x }
            bufs := rt.bufs.set {} f.buf { b with sealSeq := some x.seq, writing := false } }

/-- Releasing buffers leaves a source that has a seal its seals, status, next number and waiting frames. -/
theorem srcRt_releaseBufs {i : Nat} {s : State} (h : (s.srcRt i).seals ≠ []) : ∃ bufs, (s.releaseBufs i).srcRt i = { s.srcRt i with bufs := bufs } :=
  ⟨_, srcRt_modSrc i (fun rt => { rt with bufs := rt.bufs.filter (fun e => e.2.writing || e.2.sealSeq.isNone || s.held i e.2) }) s
    fun hd => h (congrArg SourceRt.seals hd)⟩

/-- A written seal and what it counts, before buffers are released and the Braid hears of it. -/
def State.withSeal (i : Nat) (f : ReadyFrame) (b : FrameBuf) (c : Tab Nat) (st : Stop) (pt : Points) (s : State) : State :=
  { s.modSrc i (SourceRt.sealed s.wallNs f b (s.mkSeal i f b)) with counters := c, stop := st, pts := pt }

/-- A seal is written, then buffers are released and the Braid hears of it. -/
theorem putSeal_eq (i : Nat) (f : ReadyFrame) (b : FrameBuf) (s : State) : ∃ c st pt,
    s.putSeal i f b = ((s.withSeal i f b c st pt).releaseBufs i).sealArrived i (decide (f.cls = 0)) (f.drawn.map (fun d => (d.1, d.2.1))) := by
  obtain ⟨c, st, pt, htail⟩ := sealTail_frame i f.flow (s.mkSeal i f b) f.drawn (s.modSrc i (SourceRt.sealed s.wallNs f b (s.mkSeal i f b)))
  refine ⟨c, st, pt, ?_⟩
  unfold State.withSeal
  rw [← htail]
  rfl

/-- A written seal heads its source's seals and stands in its status entry. -/
theorem srcRt_putSeal (i : Nat) (f : ReadyFrame) (b : FrameBuf) (s : State) :
    ∃ bufs, (s.putSeal i f b).srcRt i = { (s.srcRt i).sealed s.wallNs f b (s.mkSeal i f b) with bufs := bufs } := by
  obtain ⟨c, st, pt, hput⟩ := putSeal_eq i f b s
  have hnew : (s.withSeal i f b c st pt).srcRt i = (s.srcRt i).sealed s.wallNs f b (s.mkSeal i f b) :=
    srcRt_modSrc i (SourceRt.sealed s.wallNs f b (s.mkSeal i f b)) s fun h => List.cons_ne_nil _ _ (congrArg SourceRt.seals h)
  obtain ⟨bufs, hrel⟩ := srcRt_releaseBufs (i := i) (s := s.withSeal i f b c st pt) (by rw [hnew]; exact List.cons_ne_nil _ _)
  have hing := congrArg (fun u : State => u.srcRt i)
    (sealArrived_keeps i (decide (f.cls = 0)) (f.drawn.map (fun d => (d.1, d.2.1))) ((s.withSeal i f b c st pt).releaseBufs i))
  exact ⟨bufs, by rw [hput, ← hnew, ← hrel]; exact hing⟩

/-- Where no strand is to take the hold back, a seal touches ingest, counters, the Stopper, the points and the Braid. -/
theorem putSeal_frame (i : Nat) (f : ReadyFrame) (b : FrameBuf) (s : State) (h : s.braid.takeBack = false) :
    { s.putSeal i f b with ing := s.ing, counters := s.counters, pts := s.pts, stop := s.stop, braid := s.braid } = s := by
  obtain ⟨c, st, pt, hput⟩ := putSeal_eq i f b s
  obtain ⟨g, harr⟩ := sealArrived_frame i (decide (f.cls = 0)) (f.drawn.map (fun d => (d.1, d.2.1))) ((s.withSeal i f b c st pt).releaseBufs i) h
  rw [hput, harr]
  unfold State.releaseBufs State.withSeal State.modSrc
  rfl

/-- Settles O40: the front frame is dropped where its capture time steps back, and sealed otherwise. -/
theorem sealWritten : Obligations.SealWritten := by
  intro dt i f rest lines s a b ha hw hready hbufs hb
  have hrow : ∀ {t : State}, a.frameSeal i lines = t → exec (.frameSeal dt i lines) s = .next t := by
    rw [ha]
    exact congrArg Host.Outcome.next
  have hseal : a.frameSeal i lines = ((a.modSrc i (fun rt => { rt with ready := rest })).sealFrame i f).sentPic i f := by
    unfold State.frameSeal
    rw [hw, hready]
    rfl
  have hsrc : (a.modSrc i (fun rt => { rt with ready := rest })).srcRt i = { a.srcRt i with ready := rest } :=
    srcRt_modSrc _ _ _ fun h => hbufs (congrArg SourceRt.bufs h)
  refine ⟨fun x hx hlt => hrow ?_, fun hle => ?_⟩
  · have hback : (a.modSrc i (fun rt => { rt with ready := rest })).stepsBack i f = true := by
      unfold State.stepsBack
      rw [hsrc]
      dsimp only
      rw [hx]
      exact decide_eq_true hlt
    rw [hseal]
    unfold State.sealFrame
    rw [if_pos hback]
  · have hback : (a.modSrc i (fun rt => { rt with ready := rest })).stepsBack i f = false := by
      unfold State.stepsBack
      rw [hsrc]
      cases hx : (a.srcRt i).seals.head? with
      | none => simp
      | some x => simpa [hx] using hle x hx
    have hmk : (a.modSrc i (fun rt => { rt with ready := rest })).mkSeal i f b = a.mkSeal i f b := by
      unfold State.mkSeal State.nextSealSeq
      rw [hsrc]
      rfl
    have hput : (a.modSrc i (fun rt => { rt with ready := rest })).sealFrame i f = (a.modSrc i (fun rt => { rt with ready := rest })).putSeal i f b := by
      unfold State.sealFrame
      rw [if_neg (by rw [hback]; exact Bool.false_ne_true), hsrc, hb]
    obtain ⟨d, hsent⟩ := sentPic_frame i f ((a.modSrc i (fun rt => { rt with ready := rest })).putSeal i f b)
    obtain ⟨bufs, hrt⟩ := srcRt_putSeal i f b (a.modSrc i (fun rt => { rt with ready := rest }))
    rw [hsrc, hmk] at hrt
    have hrt' := (congrArg (fun u : State => u.srcRt i) hsent).trans hrt
    refine ⟨_, a.mkSeal i f b, hrow (hseal.trans (by rw [hput])), congrArg SourceRt.seals hrt', congrArg SourceRt.status hrt', rfl, rfl,
      congrArg SourceRt.nextSeq hrt', congrArg SourceRt.ready hrt', rfl, rfl, rfl, rfl, rfl, rfl, rfl, rfl, rfl, rfl, rfl, rfl, ?_, ?_, ?_, fun ht => ?_⟩
    · rfl
    · simp [State.mkSeal]
    · cases hx : (a.srcRt i).seals.head? <;> simp [State.mkSeal, hx]
    · rw [hsent]
      exact congrArg (fun x : State => { x with ing := a.ing, dec := a.dec }) (putSeal_frame i f b (a.modSrc i (fun rt => { rt with ready := rest })) ht)

end Sys2Proof.Machine
end

section
/-! PROOF. Captured screens and link bring-up (O41). -/

namespace Sys2Proof.Machine

open Sys2Proof

/-- A number joins a sorted list alone. -/
theorem mem_insertSorted {k j : Nat} {l : List Nat} : j ∈ insertSorted k l ↔ j = k ∨ j ∈ l := by
  induction l with
  | nil => simp [insertSorted]
  | cons x t ih =>
    unfold insertSorted
    split
    · next h => simp [h]
    · split
      · simp
      · simp only [List.mem_cons, ih]
        tauto

/-- A port that is between frames has nothing to discard. -/
theorem dprxDiscard_of_idle {p : Nat} {s : State} (h : (s.ing.dprx.get {} p).inFrame = false) : s.dprxDiscard p = s := by
  unfold State.dprxDiscard
  dsimp only
  rw [h, if_neg Bool.false_ne_true]

/-- A frame in a format that no port stores is counted and dropped. -/
theorem dprxStart_of_unsupported {p i width height format : Nat} {s : State} (hl : s.dprxLive p = true) (hw : s.writersRun = true)
    (hidle : (s.ing.dprx.get {} p).inFrame = false) (hsrc : sourceOfPort s.lay p = some i) (hf : dprxFormatOk format = false) :
    s.dprxStart p width height format = (s.count 0x18 p 0 1).count 0x16 i 1 1 := by
  unfold State.dprxStart
  rw [if_neg (by simp [hl, hw]), dprxDiscard_of_idle hidle]
  dsimp only
  rw [hsrc, hf]
  rfl

/-- A frame in a format that ports store takes a free buffer, or is counted as dropped. -/
theorem dprxStart_of_supported {p i width height format : Nat} {s : State} (hl : s.dprxLive p = true) (hw : s.writersRun = true)
    (hidle : (s.ing.dprx.get {} p).inFrame = false) (hsrc : sourceOfPort s.lay p = some i) (hf : dprxFormatOk format = true) :
    (s.freeSrcBuf i = none → s.dprxStart p width height format = s.count 0x16 i 1 1) ∧
    (∀ b, s.freeSrcBuf i = some b → s.dprxStart p width height format = State.modDprx p (fun r =>
        { r with inFrame := true, frameBuf := some b, width := width, height := height, format := format, arrival := s.wallNs, origCls := (s.lay.source i).cls })
      (s.modBuf i b (fun _ => { addr := s.bufAddr i b, pitchUp := (s.srcRt i).pitchUp, width := width, height := height, format := format, writing := true }))) := by
  unfold State.dprxStart
  rw [if_neg (by simp [hl, hw]), dprxDiscard_of_idle hidle]
  dsimp only
  rw [hsrc, hf]
  dsimp only
  rw [if_neg (by decide)]
  exact ⟨fun hb => by rw [hb], fun b hb => by rw [hb]⟩

/-- A port's link that goes down between frames lets its lanes rest and counts. -/
theorem dprxLost_of_idle {p : Nat} {s : State} (hup : (s.ing.dprx.get {} p).up = true) (hidle : (s.ing.dprx.get {} p).inFrame = false) :
    s.dprxLost p = State.restLanes ((List.range (s.lay.dprxs.get {} p).lanes).map (fun i => (s.lay.dprxs.get {} p).lane0 + i))
      (State.count 0x18 p 2 1 (s.modDprx p (fun r => { r with up := false }))) := by
  unfold State.dprxLost State.dprxDown
  rw [hup, if_neg (by decide), dprxDiscard_of_idle hidle]
  rfl

/-- Symbol lock brings a port's link up, and clock recovery follows. -/
theorem dprxUp_of_locked {p : Nat} {s : State} (hen : (s.lay.dprxs.get {} p).enable = true) (hf : s.isFenced (104 + p) = false)
    (hpll : s.pll (quadOf (s.lay.dprxs.get {} p).lane0) = .locked)
    (hlanes : ∀ j, j < (s.lay.dprxs.get {} p).lanes → (s.lane ((s.lay.dprxs.get {} p).lane0 + j)).rest = false) :
    ((s.dprxUp p).ing.dprx.get {} p).up = true ∧ { s.dprxUp p with ing := { (s.dprxUp p).ing with dprx := s.ing.dprx }, lanes := s.lanes } = s := by
  have hall : ((List.range (s.lay.dprxs.get {} p).lanes).map (fun i => (s.lay.dprxs.get {} p).lane0 + i)).all (fun ln => !(s.lane ln).rest) = true := by
    simpa using hlanes
  unfold State.dprxUp
  dsimp only
  rw [hen, hf, hall, if_pos (by simp [hpll])]
  obtain ⟨hframe, hing⟩ := setCdr_frame ((List.range (s.lay.dprxs.get {} p).lanes).map (fun i => (s.lay.dprxs.get {} p).lane0 + i)) true
    (s.modDprx p (fun r => { r with up := true }))
  refine ⟨?_, ?_⟩
  · have hget : ((s.modDprx p (fun r => { r with up := true })).ing.dprx.get {} p) = { s.ing.dprx.get {} p with up := true } :=
      tab_get_set_same {} p { s.ing.dprx.get {} p with up := true } s.ing.dprx fun h => Bool.noConfusion (congrArg DprxRt.up h)
    exact congrArg DprxRt.up ((congrArg (fun g : Ingest => g.dprx.get {} p) hing).trans hget)
  · exact congrArg (fun x : State => { x with ing := { x.ing with dprx := s.ing.dprx } }) hframe

/-- A port whose HPD is high answers an AUX read from its EDID. -/
theorem dprxAux_of_high {p : Nat} {s : State} (offset length : Nat) (hen : (s.lay.dprxs.get {} p).enable = true) (hf : s.isFenced (104 + p) = false)
    (hh : (s.ing.dprx.get {} p).hpdLow = false) : s.dprxAux p offset length = { s with out := { s.out with
      dprxAux := (p, (((s.lay.dprxs.get {} p).edid.take (s.lay.dprxs.get {} p).edidLen).drop offset).take length) :: s.out.dprxAux } } :=
  if_pos (by simp [hen, hf, hh])

/-- Block lock brings an enabled MAC up on a locked quad. -/
theorem ethUp_of_locked {m : Nat} {s : State} (hen : (s.lay.macs.get {} m).enable = true) (hf : s.isFenced (120 + m) = false)
    (hpll : s.pll (quadOf (s.lay.macs.get {} m).lane) = .locked) :
    (s.ethUp m).ing.macUp = insertSorted m s.ing.macUp ∧ { s.ethUp m with ing := { (s.ethUp m).ing with macUp := s.ing.macUp }, lanes := s.lanes } = s := by
  unfold State.ethUp
  dsimp only
  rw [hen, hf, if_pos (by simp [hpll])]
  obtain ⟨hframe, hing⟩ := setCdr_frame (macLanes s.lay (s.lay.macs.get {} m)) true { s with ing := { s.ing with macUp := insertSorted m s.ing.macUp } }
  exact ⟨congrArg Ingest.macUp hing, congrArg (fun x : State => { x with ing := { x.ing with macUp := s.ing.macUp } }) hframe⟩

/-- The loss of block lock takes a MAC down. -/
theorem ethDown_of_up {m : Nat} {s : State} (hen : (s.lay.macs.get {} m).enable = true) (hup : m ∈ s.ing.macUp) :
    (s.ethDown m).ing.macUp = removeNat m s.ing.macUp ∧ { s.ethDown m with ing := { (s.ethDown m).ing with macUp := s.ing.macUp }, lanes := s.lanes } = s := by
  unfold State.ethDown
  dsimp only
  rw [hen, hasNat_iff.2 hup, if_pos (by decide)]
  obtain ⟨hframe, hing⟩ := setCdr_frame (macLanes s.lay (s.lay.macs.get {} m)) false (s.macDown m)
  exact ⟨congrArg Ingest.macUp hing, congrArg (fun x : State => { x with ing := { x.ing with macUp := s.ing.macUp } }) hframe⟩

/-- Settles O41: the rows of a port and of a MAC, each by its own lemma. -/
theorem portsAndLinks : Obligations.PortsAndLinks := by
  refine ⟨fun dt p width height format s a ha => ⟨fun hl hw hidle => ⟨fun hf i hi => ?_, fun hf i hi => ?_⟩, fun hup hidle => ?_, ?_, fun hen hf hpll hl => ?_,
    fun offset length hen hf hh => ?_⟩, fun dt m s a ha hen => ⟨fun hf hpll => ?_, fun hup => ?_⟩⟩ <;> subst ha
  · exact congrArg Host.Outcome.next (dprxStart_of_unsupported hl hw hidle hi hf)
  · obtain ⟨hnone, hsome⟩ := dprxStart_of_supported (width := width) (height := height) hl hw hidle hi hf
    exact ⟨fun hb => congrArg Host.Outcome.next (hnone hb), fun b hb => congrArg Host.Outcome.next (hsome b hb)⟩
  · exact congrArg Host.Outcome.next (dprxLost_of_idle hup hidle)
  · rfl
  · exact ⟨_, rfl, dprxUp_of_locked hen hf hpll hl⟩
  · exact congrArg Host.Outcome.next (dprxAux_of_high offset length hen hf hh)
  · obtain ⟨hmac, hframe⟩ := ethUp_of_locked hen hf hpll
    exact ⟨_, rfl, hmac ▸ mem_insertSorted.2 (.inl rfl), fun k hk => by rw [hmac, mem_insertSorted]; simp [hk], hframe⟩
  · obtain ⟨hmac, hframe⟩ := ethDown_of_up hen hup
    exact ⟨_, rfl, by simp [hmac, removeNat], fun k hk => by simp [hmac, removeNat, hk], hframe⟩

end Sys2Proof.Machine
end

section
/-! PROOF. The Thimble link, touch frames and baselines (O42 to O44). -/

namespace Sys2Proof.Machine

open Sys2Proof

/-! ### The link (R270, R271, R287) -/

/-- A sample instant of a desk that listens; a failed check and a missing instant spoil the touch frame. -/
theorem sampleInstant_of_listening {d crc : Nat} {s : State} (count : Nat) (data : List Byte) (hst : (s.desk d).state = .starting ∨ (s.desk d).state = .active)
    (hl : (s.desk d).locked = true) (ok : Bool) (hok : ok = decide ((foldCrc 0 (count % 16777216) d data).toNat = crc)) :
    s.sampleInstant d count data crc = State.modDesk d (fun x =>
        { x with sampleCount := count % 16777216, bad := x.bad || !ok || decide (count % 16777216 ≠ (x.sampleCount + 1) % 16777216) })
      (if ok then s else s.count 0x10 d 3 1) := by
  have hlisten : ¬ (!decide ((s.desk d).state = .starting) && !decide ((s.desk d).state = .active) || !(s.desk d).locked) = true := by
    rcases hst with h | h <;> simp [h, hl]
  unfold State.sampleInstant
  dsimp only
  rw [if_neg (by simpa using hlisten), ← hok]
  cases ok <;> rfl

/-- A message at a locked link is kept, passed over, or counted. -/
theorem thimbleMessage_of_locked {d : Nat} {s : State} (block payload : Nat) (hst : (s.desk d).state ≠ .off) (hl : (s.desk d).locked = true) :
    s.thimbleMessage d block payload = if block = 0xB4 then s.modDesk d (fun x => { x with messages := x.messages ++ [payload % 2 ^ 56] })
      else if block = 0xD2 ∨ block = 0x96 then s else s.count 0x10 d 2 1 := by
  unfold State.thimbleMessage
  dsimp only
  rw [if_neg (by simp [hst, hl])]
  simp only [Bool.or_eq_true, decide_eq_true_eq]

/-- Block lock at a desk whose link is down begins ALIGN and the read of the info memory. -/
theorem deskBlockLock_of_down {d : Nat} {s : State} (hst : (s.desk d).state = .linkDown) (hl : (s.desk d).locked = false) :
    s.deskBlockLock d = State.sendDesk d [.align 0, .read 0 (infoBytes (s.desk d).cfg)]
      (State.modLane (s.desk d).cfg.lane (fun x => { x with cdrLocked := true }) (s.modDesk d (fun x => { x with locked := true, messages := [] }))) := by
  unfold State.deskBlockLock
  exact if_neg (by simp [hst, hl])

/-- An info memory that passes its check and fits the panel takes the desk to STARTING. -/
theorem infoRead_of_sound {d : Nat} {info : HeadInfo} {s : State} (hst : (s.desk d).state = .linkDown) (hl : (s.desk d).locked = true)
    (hs : infoSound info = true) (hd : info.driveN = (s.desk d).cfg.driveN) (he : info.senseN = (s.desk d).cfg.senseN) :
    s.infoRead d info = (s.modDesk d (fun x => { x with info := info, restarts := 0, messages := [], sampleCount := 0 })).deskState d .starting := by
  unfold State.infoRead
  dsimp only
  rw [if_neg (by simp [hst, hl]), if_neg (by simp [hs, hd, he])]

/-- Any other info memory takes the desk to FAULT. -/
theorem infoRead_of_unsound {d : Nat} {info : HeadInfo} {s : State} (hst : (s.desk d).state = .linkDown) (hl : (s.desk d).locked = true)
    (hbad : infoSound info = false ∨ info.driveN ≠ (s.desk d).cfg.driveN ∨ info.senseN ≠ (s.desk d).cfg.senseN) :
    s.infoRead d info = State.fireSrc 61 0xFFFF d (State.deskState d .fault (s.modDesk d (fun x => { x with messages := [] }))) := by
  unfold State.infoRead
  dsimp only
  rw [if_neg (by simp [hst, hl]), if_pos (by rcases hbad with h | h | h <;> simp [h])]
  rfl

/-- A head that does not come up is restarted up to three times. -/
theorem deskTimeout_of_locked {d : Nat} {s : State} (hst : (s.desk d).state = .linkDown) (hl : (s.desk d).locked = true) :
    s.deskTimeout d = if 3 ≤ (s.desk d).restarts then State.fireSrc 61 0xFFFF d (s.deskState d .fault)
      else s.modDesk d (fun x => { x with locked := false, restarts := x.restarts + 1, messages := [] }) := by
  unfold State.deskTimeout
  exact if_neg (by simp [hst, hl])

/-- The state in which a locked desk has lost block lock, before the desk's own state changes. -/
def State.unlocked (d : Nat) (s : State) : State :=
  State.modLane (s.desk d).cfg.lane (fun x => { x with cdrLocked := false }) (State.modDesk d (fun x => { x with locked := false }) (s.count 0x10 d 4 1))

/-- Lost lock touches the desk, its lane and a counter. -/
theorem unlocked_frame (d : Nat) (s : State) : { s.unlocked d with desks := s.desks, counters := s.counters, lanes := s.lanes } = s := by
  unfold State.unlocked State.modLane State.modDesk
  rfl

/-- What follows lost lock at a desk, added to what lost lock itself touches. -/
theorem frame_after_unlocked {s u t : State} (hu : { u with desks := s.desks, counters := s.counters, lanes := s.lanes } = s)
    (ht : { t with desks := u.desks, counters := u.counters, rings := u.rings, out := u.out, free := u.free } = u) :
    { t with desks := s.desks, counters := s.counters, rings := s.rings, out := s.out, free := s.free, lanes := s.lanes } = s := by
  have hrings : u.rings = s.rings := (congrArg State.rings hu :)
  have hout : u.out = s.out := (congrArg State.out hu :)
  have hfree : u.free = s.free := (congrArg State.free hu :)
  rw [← hrings, ← hout, ← hfree]
  exact (congrArg (fun x : State => { x with desks := s.desks, counters := s.counters, lanes := s.lanes }) ht).trans hu

/-- The desk has lost its lock and keeps everything else. -/
theorem desk_unlocked_same {d : Nat} {s : State} (h : (s.desk d).state ≠ .off) : (s.unlocked d).desk d = { s.desk d with locked := false } :=
  desk_modDesk_same d (fun x => { x with locked := false }) (s.count 0x10 d 4 1) (desk_ne_default h)

/-- The other desks have not changed. -/
theorem desk_unlocked_other {d e : Nat} {s : State} (h : (s.desk d).state ≠ .off) (he : e ≠ d) : (s.unlocked d).desk e = s.desk e :=
  desk_modDesk_other d e (fun x => { x with locked := false }) (s.count 0x10 d 4 1) (desk_ne_default h) he

/-- Lost lock begins no save. -/
theorem noSave_unlocked {d : Nat} {s : State} (h : NoSave s) : NoSave (s.unlocked d) :=
  noSave_mod (s := s.count 0x10 d 4 1) h d (fun x => { x with locked := false }) (noSave_get h d)

/-- Losing block lock takes a desk that runs to LINK_DOWN. -/
theorem deskLoss_of_locked {d : Nat} {s : State} (hl : (s.desk d).locked = true) :
    s.deskLoss d = if (s.desk d).state = .starting ∨ (s.desk d).state = .active then (s.unlocked d).deskState d .linkDown else s.unlocked d := by
  unfold State.deskLoss
  dsimp only
  rw [hl, if_neg (by decide)]
  simp only [Bool.or_eq_true, decide_eq_true_eq]
  rfl

/-- A desk that has read its info memory, before its state changes. -/
def DeskRt.withInfo (info : HeadInfo) (k : DeskRt) : DeskRt := { k with info := info, restarts := 0, messages := [], sampleCount := 0 }

/-- The desk that starts: what it has read, the state, and its report. -/
theorem infoRead_starts {d : Nat} {info : HeadInfo} {s : State} (hst : (s.desk d).state = .linkDown) (hl : (s.desk d).locked = true)
    (hs : infoSound info = true) (hd : info.driveN = (s.desk d).cfg.driveN) (he : info.senseN = (s.desk d).cfg.senseN) :
    { (s.infoRead d info).desk d with held := (s.desk d).held } =
      { (s.desk d).withInfo info with state := .starting, inFrame := false, discardRun := 0, reportSeq := (s.desk d).reportSeq + 1 } ∧
    (∀ e, e ≠ d → (s.infoRead d info).desk e = s.desk e) ∧
    { s.infoRead d info with desks := s.desks, counters := s.counters, rings := s.rings, out := s.out, free := s.free } = s := by
  have hne : (s.desk d).withInfo info ≠ {} := desk_ne_default (by rw [DeskRt.withInfo, hst]; decide)
  have hsame : (s.modDesk d (DeskRt.withInfo info)).desk d = (s.desk d).withInfo info := desk_modDesk_same d _ s hne
  have hst' : ((s.modDesk d (DeskRt.withInfo info)).desk d).state = .linkDown := by rw [hsame]; exact hst
  obtain ⟨hoth, -, -, -, -, -, -, -, hframe, -, hdesk⟩ :=
    deskState_spec (d := d) (s.modDesk d (DeskRt.withInfo info)) .starting (by rw [hst']; decide) (by decide) (by rw [hst']; decide)
  have heq : s.infoRead d info = (s.modDesk d (DeskRt.withInfo info)).deskState d .starting := infoRead_of_sound hst hl hs hd he
  rw [heq]
  refine ⟨?_, fun e he => (hoth e he).trans (desk_modDesk_other d e _ s hne he), congrArg (fun x : State => { x with desks := s.desks }) hframe⟩
  rw [hsame] at hdesk
  exact hdesk (by rw [DeskRt.withInfo, hst]; decide) (by decide)

/-- A desk that runs loses its contacts and stands at LINK_DOWN. -/
theorem deskLoss_of_running {d : Nat} {s : State} (hl : (s.desk d).locked = true) (hst : (s.desk d).state = .starting ∨ (s.desk d).state = .active) (hno : NoSave s) :
    ((s.deskLoss d).desk d).state = .linkDown ∧ ((s.deskLoss d).desk d).locked = false ∧
    ((s.deskLoss d).desk d).contacts = (if (s.desk d).state = .active then [] else (s.desk d).contacts) ∧
    (∀ e, e ≠ d → (s.deskLoss d).desk e = s.desk e) ∧ NoSave (s.deskLoss d) ∧
    { s.deskLoss d with desks := s.desks, counters := s.counters, rings := s.rings, out := s.out, free := s.free, lanes := s.lanes } = s := by
  have hoff : (s.desk d).state ≠ .off := by rcases hst with h | h <;> rw [h] <;> decide
  have hdown : (s.desk d).state ≠ .linkDown := by rcases hst with h | h <;> rw [h] <;> decide
  have hsame : (s.unlocked d).desk d = { s.desk d with locked := false } := desk_unlocked_same hoff
  obtain ⟨hoth, hstate, -, -, -, -, hlock, hnos, hframe, hcont, -⟩ :=
    deskState_spec (d := d) (s.unlocked d) .linkDown (by rw [hsame]; exact hoff) (by decide) (by rw [hsame]; exact hdown)
  rw [deskLoss_of_locked hl, if_pos hst]
  refine ⟨hstate, by rw [hlock, hsame], by rw [hcont, hsame], fun e he => (hoth e he).trans (desk_unlocked_other hoff he), hnos (noSave_unlocked hno), ?_⟩
  exact frame_after_unlocked (unlocked_frame d s) hframe

/-- Settles O42: the rows of the link, each from the lemma about its operation. -/
theorem touchLink : Obligations.TouchLink := by
  intro dt d s a k ha hk
  subst hk ha
  refine ⟨fun count data crc ok hok hst hl => congrArg Host.Outcome.next (sampleInstant_of_listening count data hst hl ok hok),
    fun block payload hst hl => congrArg Host.Outcome.next (thimbleMessage_of_locked block payload hst hl),
    fun hst hl => congrArg Host.Outcome.next (deskBlockLock_of_down hst hl),
    fun hst hl => ⟨fun info hs hd he => ⟨_, rfl, infoRead_starts hst hl hs hd he⟩,
      fun info hbad => congrArg Host.Outcome.next (infoRead_of_unsound hst hl hbad),
      fun hr => congrArg Host.Outcome.next ((deskTimeout_of_locked hst hl).trans (if_neg (Nat.not_le.2 hr))),
      fun hr => congrArg Host.Outcome.next ((deskTimeout_of_locked hst hl).trans (if_pos hr))⟩,
    fun hl hno => ⟨fun hst => ?_, fun hst => ?_⟩⟩
  · have hloss := (deskLoss_of_locked hl).trans (if_neg (by simp [hst]))
    have hend : ((s.advance dt).deskLoss d).endSaves = (s.advance dt).unlocked d := by
      rw [hloss]
      exact endSaves_of_noSave (noSave_unlocked hno)
    exact congrArg Host.Outcome.next hend
  · obtain ⟨hstate, hlock, hcont, hoth, hnos, hframe⟩ := deskLoss_of_running hl hst hno
    exact ⟨_, congrArg Host.Outcome.next (endSaves_of_noSave hnos), hstate, hlock, hcont, hoth, hframe⟩

/-! ### Touch frames (R272, R273, R287) -/

/-- The state `u` differs from `s` in desk `d`, and in counters, rings and what the host receives. -/
structure OnlyDesk (d : Nat) (s u : State) : Prop where
  oth : ∀ e, e ≠ d → u.desk e = s.desk e
  frame : { u with desks := s.desks, counters := s.counters, rings := s.rings, out := s.out, free := s.free } = s

/-- Changes of one desk add up. -/
theorem OnlyDesk.trans {d : Nat} {s u v : State} (h : OnlyDesk d s u) (h' : OnlyDesk d u v) : OnlyDesk d s v :=
  ⟨fun e he => (h'.oth e he).trans (h.oth e he),
   (congrArg (fun x : State => { x with desks := s.desks, counters := s.counters, rings := s.rings, out := s.out, free := s.free }) h'.frame).trans h.frame⟩

/-- A count touches no desk. -/
theorem OnlyDesk.count (d b i j n : Nat) (s : State) : OnlyDesk d s (s.count b i j n) := ⟨fun _ _ => rfl, rfl⟩

/-- A change of the desk that leaves it in use. -/
theorem OnlyDesk.mod {d : Nat} {g : DeskRt → DeskRt} {s : State} (h : (g (s.desk d)).state ≠ .off) : OnlyDesk d s (s.modDesk d g) :=
  ⟨fun e he => desk_modDesk_other d e g s (desk_ne_default h) he, rfl⟩

/-- A step on the desk. -/
theorem OnlyDesk.of_step {d : Nat} {s u : State} (h : DeskStep d s u) : OnlyDesk d s u :=
  ⟨h.oth, congrArg (fun x : State => { x with free := s.free }) h.frame⟩

/-- A change of the desk's state. -/
theorem OnlyDesk.state {d : Nat} {st : DeskState} {s : State} (hs : (s.desk d).state ≠ .off) (hst : st ≠ .off) (hne : (s.desk d).state ≠ st) :
    OnlyDesk d s (s.deskState d st) := by
  obtain ⟨hoth, -, -, -, -, -, -, -, hframe, -, -⟩ := deskState_spec s st hs hst hne
  exact ⟨hoth, hframe⟩

/-- Listening for a quieter plan changes what the search keeps, and nothing else of the desk. -/
theorem listen_keeps (noise other : Nat) (k : DeskRt) : ∃ q h r o, k.listen noise other = { k with scan := q, noise := h, noisyRun := r, hopTo := o } := by
  unfold DeskRt.listen
  dsimp only
  split
  · exact ⟨k.scan, k.noise, k.noisyRun, k.hopTo, rfl⟩
  · split
    · exact ⟨_, _, k.noisyRun, k.hopTo, rfl⟩
    · exact ⟨_, _, _, _, rfl⟩

/-- A desk whose touch frame has been measured. -/
def DeskRt.measured (noise next : Nat) (k : DeskRt) : DeskRt := { k.listen noise next with inFrame := false, discardRun := 0 }

/-- The state after the measurement of a touch frame that counts, before its values are filtered. -/
def State.afterMeasure (d noise next : Nat) (s : State) : State := (s.count 0x10 d 0 1).modDesk d (DeskRt.measured noise next)

/-- What a measurement keeps of a desk, and that it ends the frame. -/
theorem measured_keeps (noise next : Nat) (k : DeskRt) :
    (k.measured noise next).state = k.state ∧ (k.measured noise next).inFrame = false ∧ (k.measured noise next).discardRun = 0 ∧
    (k.measured noise next).cfg = k.cfg ∧ (k.measured noise next).info = k.info ∧ (k.measured noise next).plan = k.plan ∧
    (k.measured noise next).nodes = k.nodes ∧ (k.measured noise next).baseOp = k.baseOp := by
  obtain ⟨q, h, r, o, hk⟩ := listen_keeps noise next k
  unfold DeskRt.measured
  rw [hk]
  exact ⟨rfl, rfl, rfl, rfl, rfl, rfl, rfl, rfl⟩

/-- The desk reads back its measurement. -/
theorem desk_afterMeasure {d noise next : Nat} {s : State} (h : (s.desk d).state ≠ .off) :
    (s.afterMeasure d noise next).desk d = (s.desk d).measured noise next :=
  desk_modDesk_same d (DeskRt.measured noise next) (s.count 0x10 d 0 1) (desk_ne_default (by rw [(measured_keeps noise next _).1]; exact h))

/-- A measurement touches its desk. -/
theorem onlyDesk_afterMeasure {d noise next : Nat} {s : State} (h : (s.desk d).state ≠ .off) : OnlyDesk d s (s.afterMeasure d noise next) :=
  (OnlyDesk.count d 0x10 d 0 1 s).trans (.mod (by rw [(measured_keeps noise next _).1]; exact h))

/-- What a touch frame leaves: the desk ACTIVE and between frames, without a save, its nodes with the values `ys`. -/
structure FrameDone (d : Nat) (ys : List (List Int × Int)) (s u : State) : Prop where
  st : (u.desk d).state = .active
  inf : (u.desk d).inFrame = false
  run : (u.desk d).discardRun = 0
  base : (u.desk d).baseOp = none
  nodes : (u.desk d).nodes.map (fun n => (n.ms, n.y)) = ys
  only : OnlyDesk d s u

/-- The frame's own work keeps all that. -/
theorem FrameDone.runFrame {d : Nat} {ys : List (List Int × Int)} {s u : State} (h : FrameDone d ys s u) (b : Bool) : FrameDone d ys s (u.runFrame d b) := by
  have hstep := DeskStep.runFrame (d := d) (s := u) (by rw [h.st]; decide) b
  exact ⟨hstep.st.trans h.st, hstep.inf.trans h.inf, hstep.run.trans h.run, hstep.base.trans h.base, hstep.nodes.trans h.nodes, h.only.trans (.of_step hstep)⟩

/-- A desk whose nodes have taken the values of a frame. -/
def DeskRt.filtered (values : List Int) (k : DeskRt) : DeskRt :=
  { k with nodes := k.nodes.mapIdx (fun i n => n.filter k.cfg (nodeValue k.cfg k.info k.plan i (valueAt values i))) }

/-- A frame of an ACTIVE desk filters every node. -/
theorem touchMeasured_of_active {d noise next : Nat} {values : List Int} {s : State} (hin : (s.desk d).inFrame = true) (hbad : (s.desk d).bad = false)
    (hno : (s.desk d).baseOp = none) (hst : (s.desk d).state = .active) :
    FrameDone d (((s.desk d).nodes.mapIdx (fun i n => n.filter (s.desk d).cfg
      (nodeValue (s.desk d).cfg (s.desk d).info (s.desk d).plan i (valueAt values i)))).map (fun n => (n.ms, n.y))) s (s.touchMeasured d values noise next) := by
  have hoff : (s.desk d).state ≠ .off := by rw [hst]; decide
  obtain ⟨mst, minf, mrun, mcfg, minfo, mplan, mnodes, mbase⟩ := measured_keeps noise next (s.desk d)
  have hm := desk_afterMeasure (noise := noise) (next := next) hoff
  have hstep : s.touchMeasured d values noise next = ((s.afterMeasure d noise next).modDesk d (DeskRt.filtered values)).runFrame d false := by
    unfold State.touchMeasured
    dsimp only
    rw [if_neg (by simp [hin, hst]), if_neg (by simp [hbad]), if_neg (by simp [hst])]
    rfl
  have hf : ((s.afterMeasure d noise next).modDesk d (DeskRt.filtered values)).desk d = ((s.desk d).measured noise next).filtered values := by
    rw [← hm]
    exact desk_modDesk_same _ _ _ (desk_ne_default (by rw [hm]; exact ne_of_eq_of_ne mst hoff))
  rw [hstep]
  refine FrameDone.runFrame ⟨by rw [hf]; exact mst.trans hst, by rw [hf]; exact minf, by rw [hf]; exact mrun, by rw [hf]; exact mbase.trans hno, ?_,
    (onlyDesk_afterMeasure hoff).trans (.mod (by rw [hm]; exact ne_of_eq_of_ne mst hoff))⟩ false
  rw [hf, DeskRt.filtered, mcfg, minfo, mplan, mnodes]

/-- The first frame after STARTING fills every node's filter. -/
theorem touchMeasured_of_starting {d noise next : Nat} {values : List Int} {s : State} (hin : (s.desk d).inFrame = true) (hbad : (s.desk d).bad = false)
    (hno : (s.desk d).baseOp = none) (hst : (s.desk d).state = .starting) :
    FrameDone d ((List.range (panelSize (s.desk d).cfg)).map (fun i => (List.replicate 5 (nodeValue (s.desk d).cfg (s.desk d).info (s.desk d).plan i (valueAt values i)),
      nodeValue (s.desk d).cfg (s.desk d).info (s.desk d).plan i (valueAt values i)))) s (s.touchMeasured d values noise next) := by
  have hoff : (s.desk d).state ≠ .off := by rw [hst]; decide
  obtain ⟨mst, minf, mrun, mcfg, minfo, mplan, mnodes, mbase⟩ := measured_keeps noise next (s.desk d)
  have hm := desk_afterMeasure (noise := noise) (next := next) hoff
  have hstep : s.touchMeasured d values noise next = (s.afterMeasure d noise next).firstFrame d values := by
    unfold State.touchMeasured
    dsimp only
    rw [if_neg (by simp [hin, hst]), if_neg (by simp [hbad]), if_pos hst]
    rfl
  have hmst : ((s.afterMeasure d noise next).desk d).state = .starting := by rw [hm]; exact mst.trans hst
  obtain ⟨hoth, tst, tinf, trun, -, tbase, -, -, tframe, -, -⟩ :=
    deskState_spec (d := d) (s.afterMeasure d noise next) .active (by rw [hmst]; decide) (by decide) (by rw [hmst]; decide)
  rw [hstep]
  unfold State.firstFrame
  dsimp only
  refine FrameDone.runFrame ?_ true
  have hset : ∀ ns : List Node, FrameDone d (ns.map (fun n => (n.ms, n.y))) s
      (((s.afterMeasure d noise next).deskState d .active).modDesk d (fun k => { k with nodes := ns, masks := [] })) := fun ns => by
    have hf : (((s.afterMeasure d noise next).deskState d .active).modDesk d (fun k => { k with nodes := ns, masks := [] })).desk d = _ :=
      desk_modDesk_same _ _ _ (desk_ne_default (ne_of_eq_of_ne tst (by decide)))
    exact ⟨by rw [hf]; exact tst, by rw [hf]; exact tinf, by rw [hf]; exact trun, by rw [hf, tbase, hm]; exact mbase.trans hno, by rw [hf],
      ((onlyDesk_afterMeasure hoff).trans ⟨hoth, tframe⟩).trans (.mod (ne_of_eq_of_ne tst (by decide)))⟩
  convert hset _ using 1
  rw [map_mapIdx_eq _ _ _ (fun i n => by split <;> rfl), hm, mcfg, minfo, mplan, List.map_map]
  rfl

/-- A measured frame without a save ends before or after Cleat takes the packets that it can now. -/
theorem touchStep_of_noSave {d noise next : Nat} {values : List Int} {s : State} (h : ((s.touchMeasured d values noise next).desk d).baseOp = none) :
    s.touchStep d values noise next = s.touchMeasured d values noise next ∨ s.touchStep d values noise next = (s.touchMeasured d values noise next).drain := by
  have hsave : (s.touchMeasured d values noise next).saveStep d = s.touchMeasured d values noise next := by
    unfold State.saveStep
    dsimp only
    rw [h]
  unfold State.touchStep State.finish
  dsimp only
  rw [hsave]
  split
  · split
    · exact .inr rfl
    · exact .inl rfl
  · exact .inl rfl

/-- A bad frame of an ACTIVE desk is discarded whole; the twelfth in a row is another matter. -/
theorem touchStep_of_bad {d noise next : Nat} {values : List Int} {s : State} (hin : (s.desk d).inFrame = true) (hbad : (s.desk d).bad = true)
    (hst : (s.desk d).state = .active) (hrun : (s.desk d).discardRun < 11) : s.touchStep d values noise next =
      State.modDesk d (fun x => { x with inFrame := false, bad := false, discardRun := (s.desk d).discardRun + 1 }) (s.count 0x10 d 1 1) := by
  have hmeas : s.touchMeasured d values noise next =
      State.modDesk d (fun x => { x with inFrame := false, bad := false, discardRun := (s.desk d).discardRun + 1 }) (s.count 0x10 d 1 1) := by
    unfold State.touchMeasured
    dsimp only
    rw [if_neg (by simp [hin, hst]), if_pos hbad]
    exact if_neg (by omega)
  have hstate : ((s.touchMeasured d values noise next).desk d).state = .active := by
    rw [hmeas]
    exact (congrArg DeskRt.state (desk_modDesk_same d _ (s.count 0x10 d 1 1) (desk_ne_default (by exact ne_of_eq_of_ne hst (by decide))))).trans hst
  have hnot : (s.desk d).measures = false := by simp [DeskRt.measures, hbad]
  unfold State.touchStep
  dsimp only
  rw [hnot, hstate, if_neg (by decide), hmeas]

/-- Settles O43: the bad frame, and the frame that counts in both states. -/
theorem touchFrames : Obligations.TouchFrames := by
  intro dt d noise next values s a k v ha hk hin hv
  subst hk
  refine ⟨fun hst hbad hrun => by rw [ha] at *; exact congrArg Host.Outcome.next (touchStep_of_bad hin hbad hst hrun), fun hst hbad hno => ?_⟩
  have hvalue : ∀ i, nodeValue (a.desk d).cfg (a.desk d).info (a.desk d).plan i (valueAt values i) = v i := fun i => by rw [hv]; rfl
  have hdone : FrameDone d (if (a.desk d).state = .starting then (List.range ((a.desk d).cfg.driveN * (a.desk d).cfg.senseN)).map (fun i =>
        (List.replicate 5 (v i), v i))
      else (a.desk d).nodes.mapIdx (fun i n =>
        ((v i :: n.ms).take 5, n.y + (median ((v i :: n.ms).take 5) - n.y) * (a.desk d).cfg.filtK / 256))) a (a.touchMeasured d values noise next) := by
    rcases hst with hst | hst
    · rw [if_pos hst]
      simpa only [hvalue, panelSize] using touchMeasured_of_starting (noise := noise) (next := next) (values := values) hin hbad hno hst
    · rw [if_neg (by rw [hst]; decide)]
      have hactive := touchMeasured_of_active (noise := noise) (next := next) (values := values) hin hbad hno hst
      have hnodes := List.ext_getElem (l₁ := ((a.desk d).nodes.mapIdx (fun i n => n.filter (a.desk d).cfg (v i))).map (fun n => (n.ms, n.y)))
        (l₂ := (a.desk d).nodes.mapIdx (fun i n =>
          ((v i :: n.ms).take 5, n.y + (median ((v i :: n.ms).take 5) - n.y) * (a.desk d).cfg.filtK / 256))) (by simp) (by simp [Node.filter])
      simp only [hvalue] at hactive
      exact hnodes ▸ hactive
  exact ⟨_, _, by rw [ha]; rfl, touchStep_of_noSave hdone.base, hdone.st, hdone.inf, hdone.run, hdone.nodes, hdone.only.oth, hdone.only.frame⟩

/-! ### Baselines (R283, R381, R439) -/

/-- The copy that a write of offsets leaves. -/
def Flash.nextCal (d : Nat) (us : List Int) (f : Flash) : CalCopy :=
  { valid := true, seq := (f.newestCal.getD {}).seq + 1, offsets := (f.newestCal.getD {}).offsets.set [] d us }

/-- A write of offsets takes the place of the older copy. -/
theorem writeCal_of_fitted {f : Flash} (d : Nat) (us : List Int) (h : f.fitted = true) :
    f.writeCal d us = if f.newestIsA then { f with calB := f.nextCal d us } else { f with calA := f.nextCal d us } :=
  if_neg (by simp [h])

/-- The copy that a write leaves is the newest one. -/
theorem newestCal_writeCal {f : Flash} (d : Nat) (us : List Int) (h : f.fitted = true) : (f.writeCal d us).newestCal = some (f.nextCal d us) := by
  rw [writeCal_of_fitted d us h]
  by_cases hA : f.newestIsA = true
  · have hnew : f.newestCal = some f.calA := if_pos hA
    rw [if_pos hA]
    have hseq : (f.nextCal d us).seq = f.calA.seq + 1 := by rw [Flash.nextCal, hnew]; rfl
    have hnotA : ({ f with calB := f.nextCal d us } : Flash).newestIsA = false := by
      simp only [Flash.newestIsA, hseq]
      simp [Flash.nextCal]
    exact (if_neg (by rw [hnotA]; decide)).trans (if_pos rfl)
  · have hnew : f.newestCal = if f.calB.valid then some f.calB else none := if_neg hA
    rw [if_neg hA]
    have hlater : f.calB.valid = true → f.calB.seq ≤ (f.nextCal d us).seq := fun hB => by simp [Flash.nextCal, hnew, hB]
    have hisA : ({ f with calA := f.nextCal d us } : Flash).newestIsA = true := by
      cases hB : f.calB.valid
      · simp [Flash.newestIsA, Flash.nextCal, hB]
      · simpa [Flash.newestIsA, hB, show (f.nextCal d us).valid = true from rfl] using hlater hB
    exact if_pos hisA

/-- The sequence number of the newest copy after a write. -/
theorem newestSeq_writeCal (d : Nat) (us : List Int) (f : Flash) : ((f.writeCal d us).newestCal.map (fun x => (x.seq : Int))).getD 0 =
    if f.fitted then (((f.newestCal.map (fun x => x.seq)).getD 0 : Nat) : Int) + 1 else (f.newestCal.map (fun x => (x.seq : Int))).getD 0 := by
  cases h : f.fitted
  · have : f.writeCal d us = f := if_pos (by simp [h])
    rw [this]
    rfl
  · rw [newestCal_writeCal d us h]
    cases hc : f.newestCal <;> simp [Flash.nextCal, hc]

/-- A desk after the write of its offsets. -/
def DeskRt.rebased (us : List Int) (k : DeskRt) : DeskRt :=
  { k with baseWrite := none
           nodes := k.nodes.mapIdx (fun i n =>
             { n with b := ((k.info.factory.getD i 0 : Nat) : Int) + valueAt us i, b0 := ((k.info.factory.getD i 0 : Nat) : Int) + valueAt us i }) }

/-- The end of a flash write: the offsets stand, the desk's nodes follow, and the reply carries sequence number and clamps. -/
theorem writeDone_of_pending {d n : Nat} {c : CmdHdr} {us : List Int} {s : State} (h : (s.desk d).baseWrite = some (c, us, n)) :
    s.writeDone d = State.ok specTouchBaseline c (.words [if s.flash.fitted then (((s.flash.newestCal.map (fun x => x.seq)).getD 0 : Nat) : Int) + 1
        else (s.flash.newestCal.map (fun x => (x.seq : Int))).getD 0, n]) 8
      (({ s with flash := s.flash.writeCal d us } : State).modDesk d (DeskRt.rebased us)) := by
  unfold State.writeDone
  rw [h, ← newestSeq_writeCal d us s.flash]
  rfl

/-- Settles O44: the command by the state of desk and flash, and the end of its write. -/
theorem baselineCommand : Obligations.BaselineCommand := by
  intro dt c s a d op hd hop
  have hb : firstBad [(0, inRange 0 15 d), (1, inRange 0 1 op)] = none := by simp [firstBad, inRange, Nat.le_of_lt_succ hd, Nat.le_of_lt_succ hop]
  refine ⟨fun h => ⟨fun hst hcon hmask hsave hcal => next_of_runs (runs_of_none hb h) ?_, fun hbusy => next_of_runs (runs_of_none hb h) ?_⟩,
    fun us n ha hw h0 h1 => ⟨({ a with flash := a.flash.writeCal d us } : State).modDesk d (DeskRt.rebased us), ?_, rfl, ?_⟩⟩
  · have hfree : a.calBusy = false := by simpa [State.calBusy] using hcal
    dsimp only
    rw [if_neg (by simp [hst, hcon, hmask, hsave, hfree])]
    rfl
  · dsimp only
    refine if_pos ?_
    simp only [State.calBusy, Bool.or_eq_true, decide_eq_true_eq, Bool.not_eq_true', List.isEmpty_eq_false_iff, List.any_eq_true]
    tauto
  · subst ha
    exact next_of_finish h0 h1 (writeDone_of_pending hw)
  · cases hf : a.flash.fitted
    · exact if_pos (by simp [hf])
    · exact writeCal_of_fitted d us hf

end Sys2Proof.Machine
end

section
/-! PROOF. Decoding rows (O45). -/

namespace Sys2Proof.Machine

open Sys2Proof

/-- A picture that its engine completes ends whole, unless its save record read back wrong. -/
theorem decodeComplete_of_busy {e c : Nat} {p : CodedPic} {r : DecodeResult} {s : State} (hw : s.writersRun = true) (hf : s.isFenced (32 + e) = false)
    (hpic : (s.dec.engines.get {} e).pic = some (c, p)) :
    s.decodeComplete e r = if s.restoreBad e c r then s.restoreFail e c p else s.pictureDone e c ((s.ctxRt c).writing.getD 0) p true r := by
  unfold State.decodeComplete
  rw [hpic]
  exact if_neg (by simp [hw, hf])

/-- A picture that is stopped at its picture time ends with what it has. -/
theorem decodeOverrun_of_busy {e c : Nat} {p : CodedPic} {r : DecodeResult} {s : State} (hw : s.writersRun = true) (hf : s.isFenced (32 + e) = false)
    (hpic : (s.dec.engines.get {} e).pic = some (c, p)) : s.decodeOverrun e r = s.pictureDone e c ((s.ctxRt c).writing.getD 0) p false r := by
  unfold State.decodeOverrun
  rw [hpic]
  exact if_neg (by simp [hw, hf])

/-- An enabled context whose settings stand needs no settling. -/
theorem ctxSettle_of_settled {c : Nat} {s : State} (hen : (s.lay.contexts.get {} c).enable = true) (hc : (s.ctxRt c).cfg = s.lay.contexts.get {} c) :
    s.ctxSettle c = s := by
  unfold State.ctxSettle
  dsimp only
  rw [hc, if_neg (by simp [hen]), if_neg (by simp [redefined])]

/-- A save record that reads back wrong belongs to an engine that came from another context. -/
theorem switched_of_restoreBad {e c : Nat} {r : DecodeResult} {s : State} (h : s.restoreBad e c r = true) : (s.dec.engines.get {} e).switched = true :=
  (Bool.and_eq_true_iff.1 h).1

/-- A picture that goes back leaves its context without a written buffer, and stands in the queue or is lost. -/
theorem unreadPic_spec {c : Nat} {p : CodedPic} {s : State} (hen : (s.ctxRt c).cfg.enable = true) :
    ((s.unreadPic c p).ctxRt c).cfg = (s.ctxRt c).cfg ∧ ((s.unreadPic c p).ctxRt c).writing = none ∧
    (∀ q ∈ ((s.unreadPic c p).ctxRt c).queue, q ∈ p :: (s.ctxRt c).queue) ∧
    { s.unreadPic c p with dec := { (s.unreadPic c p).dec with ctxs := s.dec.ctxs }, counters := s.counters } = s := by
  have h1 : (s.modCtx c (fun rt => { rt with writing := none })).ctxRt c = { s.ctxRt c with writing := none } := ctxRt_modCtx _ _ _ (ctxRt_ne_default hen)
  unfold State.unreadPic
  dsimp only
  split
  · exact ⟨(congrArg CtxRt.cfg h1 :), (congrArg CtxRt.writing h1 :), fun q hq => List.mem_cons_of_mem _ ((congrArg (q ∈ CtxRt.queue ·) h1).mp hq), rfl⟩
  · have h2 := ctxRt_modCtx c (fun rt => { rt with queue := p :: rt.queue }) (s.modCtx c (fun rt => { rt with writing := none }))
      (ctxRt_ne_default (by rw [h1]; exact hen))
    rw [h1] at h2
    exact ⟨(congrArg CtxRt.cfg h2 :), (congrArg CtxRt.writing h2 :), fun q hq => (congrArg (q ∈ CtxRt.queue ·) h2).mp hq, rfl⟩

/-- A picture that was not decoded for its save record: its engine is free, and its context resynchronises. -/
theorem restoreFail_spec {e c : Nat} {p : CodedPic} {s : State} (hen : (s.lay.contexts.get {} c).enable = true)
    (hc : (s.ctxRt c).cfg = s.lay.contexts.get {} c) (hsw : (s.dec.engines.get {} e).switched = true) (hcls : s.ctxClass c ≠ 0) :
    ∃ u : State, s.restoreFail e c p = u.dispatch.fireSrc 76 0xFFFF c ∧ u.dec.engines.get {} e = { (s.dec.engines.get {} e) with pic := none, last := none } ∧
      (u.ctxRt c).dpb = [] ∧ (u.ctxRt c).picCount = 0 ∧ (u.ctxRt c).writing = none ∧ (u.ctxRt c).resync = false ∧
      ((s.lay.contexts.get {} c).codec ≠ 2 → (∀ q ∈ p :: (s.ctxRt c).queue, q.noEntry (s.lay.contexts.get {} c).codec) →
        (u.ctxRt c).state = .waitIrap ∧ (u.ctxRt c).queue = []) := by
  have hctx : (s.ctxRt c).cfg.enable = true := by rw [hc]; exact hen
  obtain ⟨b, hb⟩ : ∃ b : State, b = (s.modEngine e (fun en => { en with pic := none, last := none })).count 0x02 c 8 1 := ⟨_, rfl⟩
  have hbctx : b.ctxRt c = s.ctxRt c := by rw [hb]; rfl
  have hblay : b.lay = s.lay := by rw [hb]; rfl
  have hbeng : b.dec.engines.get {} e = { (s.dec.engines.get {} e) with pic := none, last := none } := by
    rw [hb]
    refine tab_get_set_same ({} : EngineRt) e { (s.dec.engines.get {} e) with pic := none, last := none } s.dec.engines fun h => ?_
    have hfree : (s.dec.engines.get {} e).switched = false := congrArg EngineRt.switched h
    exact absurd (hsw.symm.trans hfree) (by decide)
  obtain ⟨ucfg, uwr, uq, uframe⟩ := unreadPic_spec (p := p) (s := b) (c := c) (by rw [hbctx]; exact hctx)
  obtain ⟨wcfg, wdpb, wpic, wwr, wres, wframe, wwait⟩ := ctxWaitIrap_spec (b.unreadPic c p) (c := c) (by rw [ucfg, hbctx]; exact hctx)
  have hulay : (b.unreadPic c p).lay = s.lay := (congrArg State.lay uframe).trans hblay
  have hwlay : ((b.unreadPic c p).ctxWaitIrap c).lay = s.lay := (congrArg State.lay wframe).trans hulay
  have hsettle : ((b.unreadPic c p).ctxWaitIrap c).ctxSettle c = (b.unreadPic c p).ctxWaitIrap c :=
    ctxSettle_of_settled (by rw [hwlay]; exact hen) (by rw [hwlay, wcfg, ucfg, hbctx]; exact hc)
  have hwcls : ((b.unreadPic c p).ctxWaitIrap c).ctxClass c = s.ctxClass c := by unfold State.ctxClass; rw [hwlay]
  obtain ⟨-, actx, aeng⟩ := alarmUpdate_frame ((b.unreadPic c p).ctxWaitIrap c)
  have hactx : (alarmUpdate ((b.unreadPic c p).ctxWaitIrap c)).ctxRt c = ((b.unreadPic c p).ctxWaitIrap c).ctxRt c := by unfold State.ctxRt; rw [actx]
  refine ⟨alarmUpdate ((b.unreadPic c p).ctxWaitIrap c), ?_, ?_, ?_, ?_, ?_, ?_, ?_⟩
  · unfold State.restoreFail
    rw [← hb]
    dsimp only
    rw [hsettle, if_neg (by rw [hwcls]; exact hcls)]
  · rw [aeng, ← hbeng]
    exact (congrArg (fun x : State => x.dec.engines.get {} e) wframe).trans (congrArg (fun x : State => x.dec.engines.get {} e) uframe)
  · rw [hactx]; exact wdpb
  · rw [hactx]; exact wpic
  · rw [hactx, wwr]; exact uwr
  · rw [hactx]; exact wres
  · intro hcodec hno
    rw [hactx]
    exact wwait (by rw [hulay]; exact hcodec) fun q hq => by rw [hulay]; exact hno q (hbctx ▸ uq q hq)

/-- Settles O45: the two ends of a picture, the record that reads back wrong, and the freed buffer. -/
theorem decodingRows : Obligations.DecodingRows := by
  intro dt e c p r s a ha hw hf hpic hcfg hen
  have hctx : (a.ctxRt c).cfg.enable = true := by rw [hcfg]; exact hen
  have hrow : ∀ {t : State}, a.decodeComplete e r = t → exec (.decodePictureComplete dt e r) s = .next t := by
    rw [ha]
    exact congrArg Host.Outcome.next
  have hstop : ∀ {t : State}, a.decodeOverrun e r = t → exec (.decodeOverrun dt e r) s = .next t := by
    rw [ha]
    exact congrArg Host.Outcome.next
  have hfree : ∀ {t : State}, a.poolFreed c = t → exec (.poolBufferFreed dt c) s = .next t := by
    rw [ha]
    exact congrArg Host.Outcome.next
  refine ⟨fun hgood => ?_, fun hbad hcls _ => ?_, fun b hb => ⟨hfree ?_, fun hle => ?_⟩⟩
  · obtain ⟨u, hu, hus⟩ := pictureDone_spec a hctx hcfg e ((a.ctxRt c).writing.getD 0) p true r
    obtain ⟨v, hv, hvs⟩ := pictureDone_spec a hctx hcfg e ((a.ctxRt c).writing.getD 0) p false r
    refine ⟨u, v, hrow ?_, hstop ?_, fun x hx => ?_⟩
    · rw [decodeComplete_of_busy hw hf hpic, hgood, if_neg Bool.false_ne_true, hu]
    · rw [decodeOverrun_of_busy hw hf hpic, hv]
    · rcases hx with rfl | rfl
      · exact hus
      · exact hvs
  · obtain ⟨u, hu, hus⟩ := restoreFail_spec (p := p) hen hcfg (switched_of_restoreBad hbad) hcls
    refine ⟨u, hrow ?_, hus⟩
    rw [decodeComplete_of_busy hw hf hpic, hbad, if_pos rfl, hu]
  · unfold State.poolFreed
    rw [if_neg (by simp [hw]), hb]
  · rw [hb]
    cases (a.ctxRt c).dpb.length with
    | zero => rfl
    | succ n => exact if_pos hle

end Sys2Proof.Machine
end

section
/-! PROOF. The rows of the Braid (O46). -/

namespace Sys2Proof.Machine

open Sys2Proof

/-- What the arbiter's decision about a tile does: the table of R164, with the flags of the holder and of the other strand. -/
theorem applyVerdict_judged {b0 : Braid} {k col : Nat} {errs : List Nat} {both mismatch fa fb hf of : Bool} {b : State} (hhf : hf = (if b0.hold = 0 then fa else fb))
    (hof : of = (if b0.hold = 0 then fb else fa)) :
    b.applyVerdict k col errs both (if both then b0.judge mismatch fa fb else b0.judgeSingle fa fb) =
      if hf ∧ (of ∨ both = false) then (if b.braid.retry = some (k, col) then b.abandonPass k else { b with braid := { b.braid with retry := some (k, col) } })
      else if both ∧ (hf ∨ (of = false ∧ mismatch ∧ (b0.strand (otherStrand b0.hold)).onProbation = false)) then
        State.strandLeave b0.hold { b with braid := { b.braid with switching := some (otherStrand b0.hold), rework := some (k, col), retry := none } }
      else if both ∧ (of ∨ mismatch) then State.strandLeave (otherStrand b0.hold) (b.writeTile k col errs both)
      else b.writeTile k col errs both := by
  unfold Braid.judge Braid.judgeSingle
  dsimp only
  rw [← hhf, ← hof]
  cases both
  · cases hf <;> simp [State.applyVerdict]
  · cases hf
    · cases of
      · cases mismatch
        · simp [State.applyVerdict]
        · cases (b0.strand (otherStrand b0.hold)).onProbation <;> simp [State.applyVerdict]
      · simp [State.applyVerdict]
    · cases of <;> simp [State.applyVerdict]

/-- The front tile of a running pass is judged, charged and decided. -/
theorem tileComputed_of_front {h row col na nb : Nat} {mismatch fa fb : Bool} {errs rest : List Nat} {p : Pass} {s b : State} {both : Bool} {n : Nat} (hw : s.writersRun = true)
    (hcur : s.braid.current = some (rowKey h row)) (hrun : (s.row (rowKey h row)).running = some p) (htodo : p.todo = col :: rest)
    (hsw : s.braid.switching = none) (hhold : s.braid.strand s.braid.hold ≠ .fenced) (hboth : both = (s.braid.strandA.compares && s.braid.strandB.compares))
    (hn : n = s.braid.troubles both mismatch fa fb)
    (hb : b = State.count 0x04 0 0 n { s with braid := { s.braid.noteCorrected both na nb with disagreed := s.braid.disagreed || decide (n ≠ 0) } }) :
    s.tileComputed h row mismatch fa fb na nb errs = ((b.applyVerdict (rowKey h row) col errs both
      (if both then s.braid.judge mismatch fa fb else s.braid.judgeSingle fa fb)).reportStrands (s.braid.charged both mismatch fa fb)).tileBoundary := by
  unfold State.tileComputed
  dsimp only
  rw [if_neg (by simp [hw, hcur, hsw, hhold]), hrun]
  simp only [Option.map_some, Option.getD_some]
  rw [htodo]
  dsimp only
  rw [← hboth, ← hn, hb]
  rfl

/-- A row with the tile `t` of column `col` written to `slot`. -/
def RowRt.withTile (slot col : Nat) (t : TileResult) (p : Pass) (r : RowRt) : RowRt :=
  { r with slot0 := if slot = 0 then r.slot0.put col t else r.slot0
           slot1 := if slot = 0 then r.slot1 else r.slot1.put col t
           running := some { p with todo := p.todo.tail, wrote := p.wrote ++ [(slot, col)] } }

/-- A written tile stands in its row, and no tile is to be computed again. -/
theorem writeTile_of_running {k col : Nat} {errs : List Nat} {p : Pass} {s : State} (both : Bool) (hrun : (s.row k).running = some p) :
    ∃ t x c, s.writeTile k col errs both = { s.modRow k (RowRt.withTile ((s.row k).writeSlot col) col t p) with
      braid := { (s.modRow k (RowRt.withTile ((s.row k).writeSlot col) col t p)).braid with retry := none, rework := x }, counters := c } := by
  unfold State.writeTile
  dsimp only
  rw [hrun]
  cases both
  · exact ⟨_, _, _, rfl⟩
  · exact ⟨_, _, s.counters, rfl⟩

/-- The holder's write of the front tile. -/
theorem writeTile_spec {k col : Nat} {errs rest : List Nat} {p : Pass} {s : State} (both : Bool) (hrun : (s.row k).running = some p) (htodo : p.todo = col :: rest) :
    ((s.writeTile k col errs both).row k).running = some { p with todo := rest, wrote := p.wrote ++ [((s.row k).writeSlot col, col)] } ∧
    (s.writeTile k col errs both).braid.retry = none ∧ { s.writeTile k col errs both with braid := s.braid, counters := s.counters } = s := by
  obtain ⟨t, x, c, hwrite⟩ := writeTile_of_running (col := col) (errs := errs) both hrun
  have hrow : (s.modRow k (RowRt.withTile ((s.row k).writeSlot col) col t p)).row k = (s.row k).withTile ((s.row k).writeSlot col) col t p :=
    row_modRow k _ s fun h => Option.some_ne_none _ (congrArg RowRt.running h)
  rw [hwrite]
  refine ⟨(congrArg RowRt.running hrow).trans ?_, rfl, rfl⟩
  rw [RowRt.withTile, htodo]
  rfl

/-- A pass whose tiles are all written counts, and the Braid goes on. -/
theorem passComplete_of_written {h row : Nat} {p : Pass} {s : State} (hw : s.writersRun = true) (hcur : s.braid.current = some (rowKey h row))
    (hrun : (s.row (rowKey h row)).running = some p) (htodo : p.todo = []) :
    s.passComplete h row = State.schedule (State.releaseAll ((fun u : State => { u with braid := { u.braid with current := none } })
      ((fun u : State => if p.first then u else u.count 0x03 h 1 1) (State.modRow (rowKey h row) (RowRt.complete p) (s.count 0x03 h 0 1))))) := by
  unfold State.passComplete
  dsimp only
  rw [if_neg (by simp [hcur, hw]), hrun]
  exact if_neg (by simp [htodo])

/-- The move of the hold completes. -/
theorem strandSwitch_of_moving {x : Nat} {s : State} (h : s.braid.switching = some x) :
    s.strandSwitch = State.event 0x0009 x s.raster.frame (State.count 0x04 0 1 1 { s with braid := { s.braid with hold := x, switching := none } }) := by
  unfold State.strandSwitch
  rw [h]

/-- Settles O46: the front tile by `applyVerdict_judged`, the other rows by the lemma about each. -/
theorem compositionRows : Obligations.CompositionRows := by
  intro dt h row col x na nb mismatch fa fb errs p rest s a b u b0 ha hw hb0 hcur hrun
  subst hb0
  have hrow : ∀ {t : State}, a.tileComputed h row mismatch fa fb na nb errs = t →
      exec (.tileComputed dt h row mismatch ⟨fa, na⟩ ⟨fb, nb⟩ errs) s = .next t := by
    rw [ha]
    exact congrArg Host.Outcome.next
  refine ⟨fun htodo hsw hhold both n hf of hboth hn hhf hof hb hu => hrow ?_, fun both htodo => ⟨_, rfl, writeTile_spec both hrun htodo⟩,
    fun htodo => ?_, fun hsw => ?_, fun hst => ?_⟩
  · have hretry : b.braid.retry = a.braid.retry := by rw [hb]; rfl
    rw [tileComputed_of_front hw hcur hrun htodo hsw hhold hboth hn hb, applyVerdict_judged hhf hof, hretry, ← hu]
  · subst ha
    exact congrArg Host.Outcome.next (passComplete_of_written hw hcur hrun htodo)
  · subst ha
    exact congrArg Host.Outcome.next (strandSwitch_of_moving hsw)
  · subst ha
    exact ⟨congrArg Host.Outcome.next (if_neg (not_not.2 hst)), congrArg Host.Outcome.next (if_neg (not_not.2 hst))⟩

end Sys2Proof.Machine
end

section
/-! PROOF. Telemetry points, host point slots and overlay surfaces (O47). -/

namespace Sys2Proof.Machine

open Sys2Proof

/-! ### Records (R220, R221) -/

/-- The table entry of record `r` with time `t`. -/
def PointRec.entry (r : PointRec) (t : Nat) : PointEntry := { value := r.value, flags := r.flags, seq := r.seq, time := t }

/-- A record in its flow's range is stored where it replaces the stored one, and otherwise counts as old; a clamped time counts too. -/
theorem applyRecord_of_inRange (k : PointCounters) (t : Nat) (clamped : Bool) (r : PointRec) (s : State) :
    s.applyRecord k true ((t : Int), clamped) r =
      (fun v : State => if replacesPoint (s.point r.index) t r.seq then { v with pts := { v.pts with table := s.pts.table.set {} r.index (r.entry t) } }
        else v.count k.block k.inst k.old 1) (if clamped then s.count k.block k.inst k.clamped 1 else s) := by
  unfold State.applyRecord
  cases clamped <;> rfl

/-- The same condition as the row states it. -/
theorem wins_iff {a : State} {wins : PointRec → Nat → Bool} (hwins : wins = (fun r t => decide ((a.pts.table.get {} r.index).time < t ∨
    ((a.pts.table.get {} r.index).time = t ∧ 1 ≤ (r.seq + 65536 - (a.pts.table.get {} r.index).seq % 65536) % 65536 ∧
      (r.seq + 65536 - (a.pts.table.get {} r.index).seq % 65536) % 65536 ≤ 32767)))) (r : PointRec) (t : Nat) :
    replacesPoint (a.point r.index) t r.seq = wins r t := by
  rw [hwins, Bool.eq_iff_iff, replacesPoint_iff, decide_eq_true_eq]
  rfl

/-! ### Datagrams (R218, R219) -/

/-- A packet that no point flow takes does nothing. -/
theorem pointDatagram_of_other {g : PointDatagram} {s : State} (h : ∀ e, matchFlow s.lay g.mac g.vlan g.dst g.dstPort g.src 0 = some e → e.2.type ≠ 4) :
    s.pointDatagram g = s := by
  unfold State.pointDatagram
  split
  · rfl
  · cases hm : matchFlow s.lay g.mac g.vlan g.dst g.dstPort g.src 0 with
    | none => rfl
    | some e => exact if_pos (h e hm)

/-- A packet of a point flow is counted and its datagram taken. -/
theorem pointDatagram_of_match {g : PointDatagram} {f : Nat} {c : FlowCfg} {s : State} (hm : matchFlow s.lay g.mac g.vlan g.dst g.dstPort g.src 0 = some (f, c))
    (h4 : c.type = 4) (hl : s.macLive g.mac = true) (hw : s.writersRun = true) :
    s.pointDatagram g = (s.count 0x01 f 0 1).takeDatagram (flowKey c f) c (readDatagram f g.payload) := by
  unfold State.pointDatagram
  rw [if_neg (by simp [hl, hw]), hm]
  exact if_neg (not_not.2 h4)

/-- A datagram is discarded for its check, for its form, or for a number accepted before. -/
theorem takeDatagram_of_bad {k : Nat} {c : FlowCfg} {d : Datagram} {s : State} :
    (d.crcOk = false → s.takeDatagram k c d = s.count 0x08 k 1 1) ∧ (d.crcOk = true → malformed d = true → s.takeDatagram k c d = s.count 0x08 k 2 1) ∧
    (d.crcOk = true → malformed d = false → d.seq ∈ (s.pts.flows.get {} k).accepted → s.takeDatagram k c d = s.count 0x08 k 3 1) := by
  unfold State.takeDatagram
  refine ⟨fun h => if_pos (by simp [h]), fun h hm => ?_, fun h hm hin => ?_⟩
  · rw [if_neg (by simp [h]), if_pos hm]
  · rw [if_neg (by simp [h]), if_neg (by simp [hm]), if_pos (hasNat_iff.2 hin)]

/-- The first datagram that a flow accepts starts it and applies its records. -/
theorem takeDatagram_of_first {k : Nat} {c : FlowCfg} {d : Datagram} {r : PointRec} {s : State} (hcrc : d.crcOk = true) (hform : malformed d = false)
    (hst : (s.pts.flows.get {} k).started = false) (hacc : (s.pts.flows.get {} k).accepted = []) (hrec : d.recs = [r]) (u : State)
    (hu : u = State.count 0x08 k 4 0 (State.count 0x08 k 0 1
      { s with pts := { s.pts with flows := s.pts.flows.set {} k { started := true, highest := 4294967296 + d.seq, accepted := [d.seq] } } })) :
    s.takeDatagram k c d = u.applyRecord (flowCounters k) (decide (c.pfIndexBase ≤ r.index) && decide (r.index < c.pfIndexBase + c.pfIndexCount))
      (u.recordTime c r) r := by
  have haccept : (s.pts.flows.get {} k).accept d.seq = ({ started := true, highest := firstSeq d.seq, accepted := [d.seq] }, 0, false) :=
    if_pos (by simp [hst])
  unfold State.takeDatagram
  dsimp only
  rw [if_neg (by simp [hcrc]), if_neg (by simp [hform]), if_neg (by simp [hacc, hasNat]), haccept, hrec, hu]
  rfl

/-- Under PF_TIME_MODE 1 a record takes the arrival as its time. -/
theorem recordTime_of_arrival {c : FlowCfg} (h : c.pfTimeMode = 1) (r : PointRec) (s : State) : s.recordTime c r = ((s.wallNs : Int), false) :=
  if_pos (by simp [h])

/-! ### Ring 18 (R221) -/

/-- A slot that ring 18 has announced is fetched; a bad one is counted, a good one applied. -/
theorem hostSlot_of_announced {slot : List Byte} {s u : State} (hr : (s.ring 18).runs = true) (hd : idxDiff (s.ring 18).producer (s.ring 18).wbConsumer ≠ 0)
    (hw : s.writersRun = true) (hf : s.pins.fetchStopped = false)
    (hu : u = s.setRing 18 { s.ring 18 with wbConsumer := ((s.ring 18).wbConsumer + 1) % 4294967296, wbGeneration := s.snap.generation }) :
    (numAt slot 0 2 = 0 ∨ 2 < numAt slot 0 2 ∨ numAt slot 2 14 ≠ 0 ∨ (∃ r ∈ slotRecords slot, r.rsvBad = true) → s.hostSlot slot = u.count 0x09 0 3 1) ∧
    (∀ r, numAt slot 0 2 = 1 → numAt slot 2 14 = 0 → slotRecords slot = [r] → r.rsvBad = false →
      s.hostSlot slot = u.applyRecord ⟨0x09, 0, 0, 1, 2⟩ true ((min r.time s.wallNs : Nat), decide (s.wallNs < r.time)) r) := by
  have hopen : s.hostSlot slot = if !inRange 1 2 (numAt slot 0 2) || decide (numAt slot 2 14 ≠ 0) || (slotRecords slot).any (fun r => r.rsvBad) then u.count 0x09 0 3 1
      else (slotRecords slot).foldl (fun (s : State) (r : PointRec) =>
        s.applyRecord ⟨0x09, 0, 0, 1, 2⟩ true (min (r.time : Int) s.wallNs, decide (s.wallNs < r.time)) r) u := by
    unfold State.hostSlot
    dsimp only
    rw [if_neg (by simp [hr, hd, hw, hf]), hu]
    rfl
  rw [hopen]
  refine ⟨fun hbad => if_pos ?_, fun r h1 h2 h3 h4 => ?_⟩
  · simp only [Bool.or_eq_true, decide_eq_true_eq, List.any_eq_true, inRange, Bool.not_eq_true', Bool.and_eq_false_iff, decide_eq_false_iff_not]
    rcases hbad with h | h | h | h
    · exact .inl (.inl (.inl (by omega)))
    · exact .inl (.inl (.inr (by omega)))
    · exact .inl (.inr h)
    · exact .inr h
  · rw [if_neg (by simp [h1, h2, h3, h4, inRange]), h3, Nat.cast_min, hu]
    rfl

/-! ### Overlay surfaces (R226, R227) -/

/-- The front surface, late at its window's end, is marked and counted. -/
theorem overlayWindowEnd_of_due {h : Nat} {d : OvlDraw} {l : List OvlDraw} {s : State} (hd : (s.overlay h).drawing = d :: l) (hlate : d.late = false)
    (hpos : s.drawEnd h d ≤ (s.raster.pos : Int)) : s.overlayWindowEnd h = State.count 0x0A h 1 1
      { s with pts := { s.pts with overlays := s.pts.overlays.set {} h { s.overlay h with drawing := { d with late := true } :: l } } } := by
  have hfirst : firstOnTime (s.overlay h).drawing = some d := by
    rw [hd]
    exact List.find?_cons_of_pos (by simp [hlate])
  have hmark : markLate (s.overlay h).drawing = { d with late := true } :: l := by
    rw [hd]
    exact if_neg (by simp [hlate])
  unfold State.overlayWindowEnd
  rw [hfirst]
  dsimp only
  rw [if_neg (Int.not_lt.2 hpos), ← hmark]
  rfl

/-- The state in which a head's front surface is drawn and its line of surfaces has moved on. -/
def State.surfaceDrawn (h : Nat) (d : OvlDraw) (rest : List OvlDraw) (gs : List Drawn) (s : State) : State :=
  (s.modBuf (overlaySource h) d.buf (fun fb => { fb with lines := (List.range fb.height).map (surfaceLine (s.layoutFor d.frame) s.boot.palette gs fb.width) })).modOverlay h
    (fun o => { o with drawing := rest })

/-- A drawn surface leaves its source's seals. -/
theorem seals_surfaceDrawn {h : Nat} {d : OvlDraw} {rest : List OvlDraw} {gs : List Drawn} {s : State} (hwf : s.ing.sources.wf {} = true) :
    ((s.surfaceDrawn h d rest gs).srcRt (overlaySource h)).seals = (s.srcRt (overlaySource h)).seals := by
  have hsrc : (s.surfaceDrawn h d rest gs).srcRt (overlaySource h) = _ := Tab.get_set_same ({} : SourceRt) (overlaySource h) _ s.ing.sources (Tab.wf_iff.1 hwf).1
  rw [hsrc]
  rfl

/-- A drawn surface leaves the head with the surfaces that wait. -/
theorem overlay_surfaceDrawn {h : Nat} {d : OvlDraw} {rest : List OvlDraw} {gs : List Drawn} {s : State} (hwf : s.pts.overlays.wf {} = true) :
    (s.surfaceDrawn h d rest gs).pts.overlays.get {} h = { s.pts.overlays.get {} h with drawing := rest } :=
  Tab.get_set_same ({} : OverlayRt) h _ s.pts.overlays (Tab.wf_iff.1 hwf).1

/-- A drawn surface touches ingest and points. -/
theorem surfaceDrawn_frame (h : Nat) (d : OvlDraw) (rest : List OvlDraw) (gs : List Drawn) (s : State) :
    ∃ i p, s.surfaceDrawn h d rest gs = { s with ing := i, pts := p } := ⟨_, _, rfl⟩

/-- The counts of a drawn surface: sealed unless it is dropped, and its stale and void instances. -/
def State.surfaceCounted (h : Nat) (gs : List Drawn) (back : Bool) (s : State) : State :=
  State.setCounter 0x0A h 4 (gs.filter (fun x => decide (x.variant = .void))).length
    (State.setCounter 0x0A h 3 (gs.filter (fun x => decide (x.variant = .stale))).length (if back then s else s.count 0x0A h 0 1))

/-- The counts of a surface, where it is sealed and where it is dropped, touch counters. -/
theorem surfaceCounted_frame (h : Nat) (gs : List Drawn) (back : Bool) (s : State) : ∃ c, s.surfaceCounted h gs back = { s with counters := c } := by
  cases back
  · exact overlayCounts_frame 0x0A h _ _ s
  · exact ⟨_, rfl⟩

/-- A frame is not earlier than the latest seal exactly where every latest seal is at or before it. -/
theorem stepsBack_eq_false_iff {i : Nat} {f : ReadyFrame} {s : State} :
    s.stepsBack i f = false ↔ ∀ x, (s.srcRt i).seals.head? = some x → x.capture ≤ f.capture := by
  unfold State.stepsBack
  cases (s.srcRt i).seals.head? <;> simp

/-- The surface that is next is drawn, counted and goes to the seal unit. -/
theorem overlayDone_of_next {h : Nat} {d : OvlDraw} {rest : List OvlDraw} {errs : List Nat} {gs : List Drawn} {f : ReadyFrame} {s : State}
    (hd : (s.overlay h).drawing = d :: rest) (hw : s.writersRun = true) (hn : s.drawsNext h d = true) (hgs : gs = s.drawnGlyphs (s.layoutFor d.frame) h d.at_ errs)
    (hf : f = { buf := d.buf, capture := d.at_, captSrc := 4, arrival := d.at_, origin := h, cls := (s.lay.source (overlaySource h)).cls,
                drawn := some (d.frame, d.half, d.tag) }) :
    s.overlayDone h errs = State.sealFrame (overlaySource h) f
      ((s.surfaceDrawn h d rest gs).surfaceCounted h gs ((s.surfaceDrawn h d rest gs).stepsBack (overlaySource h) f)) := by
  unfold State.overlayDone
  rw [hd]
  dsimp only
  rw [if_neg (by simp [hw, hn]), ← hgs, hf]
  rfl

/-- Settles O47: datagrams, slots of ring 18, and surfaces, each from the lemmas of its part. -/
theorem pointRows : Obligations.PointRows := by
  intro dt s a wins ha hwins
  have hrx : ∀ {g : PointDatagram} {t : State}, a.pointDatagram g = t → exec (.pointDatagramRx dt g) s = .next t := by
    rw [ha]
    exact congrArg Host.Outcome.next
  have hslot : ∀ {count : Nat} {rsv recs slot : List Byte} {t : State}, slot = leBytes 2 count ++ rsv ++ recs → a.hostSlot slot = t →
      exec (.hostPointSlot dt count rsv recs) s = .next t := by
    rintro count rsv recs _ t rfl h
    rw [ha] at h
    exact congrArg Host.Outcome.next h
  have hdone : ∀ {h : Nat} {errs : List Nat} {t : State}, a.overlayDone h errs = t → exec (.overlaySurfaceDone dt h errs) s = .next t := by
    rw [ha]
    exact congrArg Host.Outcome.next
  refine ⟨fun g h => hrx (pointDatagram_of_other h), ?datagrams, ?slots, ?surfaces, ?windows⟩
  case datagrams =>
    intro g c f k d b hm hk hd hb h4 hl hw
    have hmatch : a.pointDatagram g = b.takeDatagram k c d := by rw [pointDatagram_of_match hm h4 hl hw, hb, hk, hd]
    obtain ⟨hcrc, hform, hdup⟩ := takeDatagram_of_bad (k := k) (c := c) (d := d) (s := b)
    have hpts : b.pts = a.pts := by rw [hb]; rfl
    refine ⟨fun h => hrx (hmatch.trans (hcrc h)), fun h1 h2 => hrx (hmatch.trans (hform h1 h2)),
      fun h1 h2 h3 => hrx (hmatch.trans (hdup h1 h2 (by rw [hpts]; exact h3))), fun r u h1 h2 h3 h5 h6 h7 h8 h9 hu => hrx (hmatch.trans ?_)⟩
    rw [takeDatagram_of_first h1 h2 (by rw [hpts]; exact h3) (by rw [hpts]; exact h5) h6 u (by rw [hpts]; exact hu), recordTime_of_arrival h9,
      decide_eq_true h7, decide_eq_true h8]
    have hwall : u.wallNs = a.wallNs := by rw [hu, hb]; rfl
    have htable : u.pts.table = a.pts.table := by rw [hu]; rfl
    have hpoint : u.point r.index = a.point r.index := by unfold State.point; rw [htable]
    rw [hwall]
    refine (applyRecord_of_inRange (flowCounters k) a.wallNs false r u).trans ?_
    rw [hpoint, wins_iff hwins, htable]
    rfl
  case slots =>
    intro count rsv recs slot u hs hr hd hw hf hu
    obtain ⟨hbad, hgood⟩ := hostSlot_of_announced (slot := slot) hr hd hw hf hu
    refine ⟨fun h => hslot hs (hbad h), fun r v t h1 h2 h3 h4 ht hv => hslot hs ((hgood r h1 h2 h3 h4).trans ?_)⟩
    have htable : u.pts.table = a.pts.table := by rw [hu]; rfl
    have hpoint : u.point r.index = a.point r.index := by unfold State.point; rw [htable]
    rw [← ht, applyRecord_of_inRange, hpoint, wins_iff hwins, htable]
    simp only [decide_eq_true_eq, ← hv]
    rfl
  case surfaces =>
    intro h d rest errs gs f hd hwo hws hw hn hgs hf
    have hsteps : (a.surfaceDrawn h d rest gs).stepsBack (overlaySource h) f = false ↔
        ∀ x, (a.srcRt (overlaySource h)).seals.head? = some x → x.capture ≤ d.at_ := by
      rw [stepsBack_eq_false_iff, seals_surfaceDrawn hws, hf]
    refine ⟨_, hdone (overlayDone_of_next hd hw hn hgs hf), ?_, ?_, ?_⟩
    · obtain ⟨c, hcount⟩ := surfaceCounted_frame h gs ((a.surfaceDrawn h d rest gs).stepsBack (overlaySource h) f) (a.surfaceDrawn h d rest gs)
      rw [hcount]
      exact overlay_surfaceDrawn hwo
    · by_cases hle : ∀ x, (a.srcRt (overlaySource h)).seals.head? = some x → x.capture ≤ d.at_
      · rw [hsteps.2 hle, if_pos hle]
        rfl
      · rw [Bool.eq_true_of_not_eq_false (mt hsteps.1 hle), if_neg hle]
        rfl
    · obtain ⟨c, hcount⟩ := surfaceCounted_frame h gs ((a.surfaceDrawn h d rest gs).stepsBack (overlaySource h) f) (a.surfaceDrawn h d rest gs)
      obtain ⟨i, p, hdrawn⟩ := surfaceDrawn_frame h d rest gs a
      rw [hcount, hdrawn]
  case windows =>
    intro h d l hd hlate hpos
    subst ha
    exact congrArg Host.Outcome.next (overlayWindowEnd_of_due hd hlate hpos)

end Sys2Proof.Machine
end

section
/-! PROOF. Band rows of a head (O48). -/

namespace Sys2Proof.Machine

open Sys2Proof

/-! ### The line buffer (R204) -/

/-- A bound row that is next in order is complete in the line buffer. -/
theorem bandFetched_of_next {h j : Nat} {s : State} (hl : (s.headRt h).linked = true) (hp : (s.headRt h).startPos.isSome = true) (hf : s.isFenced h = false)
    (hj : j < bandRows (s.headRt h).cfg) (hg : (s.headRt h).fetches (s.bandFrame h j) j = true) (hb : (s.row (rowKey h (j / 8))).bound = true)
    (hr : ((s.row (rowKey h (j / 8))).frame, (s.row (rowKey h (j / 8))).half) = s.bandFrame h j) (ho : (s.headRt h).inOrder (s.bandFrame h j) j = true)
    (hroom : (s.headRt h).fetched.length < 524288 / (32 * (s.headRt h).cfg.hActive)) (k : Nat) (hk : k = bandKey (s.bandFrame h j).1 (s.bandFrame h j).2 j) :
    s.bandFetched h j = s.modHead h (fun y => { y with fetched := insertSorted k y.fetched, urgent := removeNat k y.urgent }) := by
  unfold State.bandFetched
  dsimp only
  rw [if_pos (by simp [hl, hp, hf, hb, hr, hj, hg, ho, lineBufferRows, hroom]), hk]

/-- A row that is missing when it is nearly due is fetched urgently and counted. -/
theorem fetchUrgent_of_missing {h j : Nat} {s : State} (hl : (s.headRt h).linked = true) (hp : (s.headRt h).startPos.isSome = true) (hf : s.isFenced h = false)
    (hj : j < bandRows (s.headRt h).cfg) (hg : (s.headRt h).fetches (s.bandFrame h j) j = true) (k : Nat) (hk : k = bandKey (s.bandFrame h j).1 (s.bandFrame h j).2 j)
    (hfet : k ∉ (s.headRt h).fetched) (hurg : k ∉ (s.headRt h).urgent) (hat : s.urgentAt h (s.bandFrame h j) j ≤ (s.wallNs : Int)) :
    s.fetchUrgent h j = State.count 0x05 h 3 1 (s.modHead h (fun y => { y with urgent := insertSorted k y.urgent })) := by
  unfold State.fetchUrgent
  dsimp only
  rw [if_pos (by simp [hl, hp, hf, hj, hg, ← hk, hasNat_eq_decide, hfet, hurg, hat]), hk]
  rfl

/-! ### Sending a band row (R175 to R187, R205) -/

/-- With the raster's device out of SAFE, a row that stays due once the lines before it have left is sent. -/
theorem bandEmit_of_due {h j : Nat} {o : BandObs} {s : State} (hdev : s.dev ≠ .safe) (hd : s.bandDue h j = true) (hd' : (s.passLines h).bandDue h j = true) :
    s.bandEmit h j o = (s.passLines h).sendBand h j o := by
  have hown : s.ownFrame h j = s := by
    unfold State.ownFrame
    dsimp only
    split
    · rfl
    · exact if_pos (by simp [hdev])
  unfold State.bandEmit
  dsimp only
  rw [hown, hd, if_neg (by decide), hd', if_neg (by decide)]

/-- What a LIVE head emits outside SAFE, unless its Stopper unit is fenced. -/
theorem emission_of_live {h : Nat} {s : State} (hst : (s.headRt h).state = .live) (hdev : s.dev ≠ .safe) (hf : s.isFenced (46 + h / 8) = false) :
    s.emission h = .live := by
  unfold State.emission
  simp [hst, hdev, stopUnitOf, hf]

/-- What an ABORTED head emits outside SAFE, unless its Stopper unit is fenced. -/
theorem emission_of_aborted {h : Nat} {s : State} (hst : (s.headRt h).state = .aborted) (hdev : s.dev ≠ .safe) (hf : s.isFenced (46 + h / 8) = false) :
    s.emission h = .abort := by
  unfold State.emission
  simp [hst, hdev, stopUnitOf, hf]

/-- A head after the lines of its row `j`, of key `k`, have begun to leave. -/
def HeadRt.sent (j k ticks : Nat) (abort : Bool) (lines : List (List Rgb)) (y : HeadRt) : HeadRt :=
  { y with glassBand := j, lit := lines, litAt := ticks, litAbort := abort, emitted := j + 1, fetched := removeNat k y.fetched, urgent := removeNat k y.urgent }

/-- The lines of a row leave from a state, and its head has moved on to the next row. -/
theorem headRt_emitLines (h j k : Nat) (vs : List TileView) (u : State) (hen : (u.headRt h).cfg.enable = true) :
    ((u.emitLines h j vs).modHead h (fun y => { y with emitted := j + 1, fetched := removeNat k y.fetched, urgent := removeNat k y.urgent })).headRt h =
      (u.headRt h).sent j k u.time.upTicks (decide (u.emission h = .abort)) (emittedBand u.boot.palette h (u.headRt h) u.stop.captions vs (u.emission h) j) := by
  have hemit : (u.emitLines h j vs).headRt h = { u.headRt h with
      glassBand := j, lit := emittedBand u.boot.palette h (u.headRt h) u.stop.captions vs (u.emission h) j, litAt := u.time.upTicks,
      litAbort := decide (u.emission h = .abort) } := headRt_modHead h _ u (headRt_ne_default hen)
  rw [headRt_modHead h _ _ (headRt_ne_default (by rw [hemit]; exact hen)), hemit]
  rfl

/-- A LIVE head sends a row that is in its line buffer: what the judgement drew. -/
theorem sendBand_of_inTime {h j k : Nat} {o : BandObs} {w u : State} (hk : k = bandKey (w.headRt h).frame (w.headRt h).half j) (hem : w.emission h = .live)
    (hen : (w.headRt h).cfg.enable = true) (hlast : j + 1 < bandRows (w.headRt h).cfg) (hin : k ∈ (w.headRt h).fetched)
    (hagree : ∀ v ∈ w.judgeBand h j o, v.disagree = false) (hlbuf : o.lbufErrors = [])
    (hu : u = w.recordBand h j (w.stop.policy.get [] h) (w.judgeBand h j o)) :
    (w.sendBand h j o).headRt h = (w.headRt h).sent j k w.time.upTicks false
      (emittedBand w.boot.palette h (w.headRt h) u.stop.captions ((w.judgeBand h j o).map (fun v => v.view)) .live j) ∧ HScFrame w (w.sendBand h j o) := by
  obtain ⟨hframe, hheads⟩ := HScFrame.recordBand w h j (w.stop.policy.get [] h) (w.judgeBand h j o)
  rw [← hu] at hframe hheads
  have hrt : u.headRt h = w.headRt h := by unfold State.headRt; rw [hheads]
  have hemu : u.emission h = .live := by
    rw [emission_of_frame h hframe, hheads]
    exact hem
  have hsend : w.sendBand h j o = State.count 0x05 h 11 o.lbufCorrected ((u.emitLines h j ((w.judgeBand h j o).map (fun v => v.view))).modHead h
      (fun y => { y with emitted := j + 1, fetched := removeNat k y.fetched, urgent := removeNat k y.urgent })) := by
    have hnone : (w.judgeBand h j o).filter (fun v => v.disagree) = [] := List.filter_eq_nil_iff.2 fun v hv => by rw [hagree v hv]; exact Bool.false_ne_true
    unfold State.sendBand
    dsimp only
    rw [← hk, hasNat_iff.2 hin, hem]
    simp only [Bool.not_true, Bool.false_and, Bool.false_eq_true, if_false, decide_true, Bool.true_or, Bool.and_self, if_true, ← hu, hlast.ne, hnone]
    unfold State.noteDisagree State.lineBuffer
    rw [hlbuf]
    rfl
  have hsent := headRt_emitLines h j k ((w.judgeBand h j o).map (fun v => v.view)) u (by rw [hrt]; exact hen)
  have hboot : u.boot = w.boot := (congrArg State.boot hframe :)
  have htime : u.time = w.time := (congrArg State.time hframe :)
  rw [hrt, hemu, hboot, htime] at hsent
  rw [hsend]
  exact ⟨hsent, ((hframe.modHead h _).modHead h _).count 0x05 h 11 o.lbufCorrected⟩

/-- A head after an underrun in its present frame. -/
def HeadRt.underran (y : HeadRt) : HeadRt :=
  { y with state := .aborted, abortedNow := true, fetched := y.fetched.filter (fun k => decide (k / 1024 ≠ 2 * y.frame + y.half)), urgent := [], allInTime := false }

/-- The lines of a band row in the abort colour. -/
theorem emittedBand_abort (pal : List Nat) (h : Nat) (r : HeadRt) (caps : Tab Caption) (j : Nat) :
    emittedBand pal h r caps [] .abort j = List.replicate (min 8 (r.cfg.vActive - 8 * j)) (List.replicate r.cfg.hActive (paletteAt pal 5)) := by
  simp [emittedBand, emittedPixel, bandLines, Function.comp_def, List.map_const']

/-- A LIVE head whose row is not there is ABORTED, and the row leaves in the abort colour. -/
theorem sendBand_of_missing {h j k : Nat} {o : BandObs} {w : State} (hk : k = bandKey (w.headRt h).frame (w.headRt h).half j) (hst : (w.headRt h).state = .live)
    (hdev : w.dev ≠ .safe) (hf : w.isFenced (46 + h / 8) = false) (hen : (w.headRt h).cfg.enable = true) (hlast : j + 1 < bandRows (w.headRt h).cfg)
    (hout : k ∉ (w.headRt h).fetched) :
    (w.sendBand h j o).headRt h = (w.headRt h).underran.sent j k w.time.upTicks true
      (List.replicate (min 8 ((w.headRt h).cfg.vActive - 8 * j)) (List.replicate (w.headRt h).cfg.hActive (paletteAt w.boot.palette 5))) ∧
    HScFrame w (w.sendBand h j o) := by
  have hno : hasNat k (w.headRt h).fetched = false := by rw [hasNat_eq_decide, decide_eq_false hout]
  obtain ⟨u, hu⟩ : ∃ u, u = (w.underrun h).modHead h (fun y => { y with allInTime := false }) := ⟨_, rfl⟩
  have hframe : HScFrame w u := by
    rw [hu]
    exact (((HScFrame.refl w).modHead h _).count 0x05 h 1 1).modHead h _
  obtain ⟨rest, hrest⟩ : ∃ l, l = (w.headRt h).fetched.filter (fun k => decide (k / 1024 ≠ 2 * (w.headRt h).frame + (w.headRt h).half)) := ⟨_, rfl⟩
  have hunder : (w.underrun h).headRt h = { w.headRt h with state := .aborted, abortedNow := true, fetched := rest, urgent := [] } := by
    rw [hrest]
    exact headRt_modHead h (fun y => { y with state := .aborted, abortedNow := true, fetched := _, urgent := [] }) w (headRt_ne_default hen)
  have hrt : u.headRt h = (w.headRt h).underran := by
    rw [hu, headRt_modHead h _ _ (headRt_ne_default (by rw [hunder]; exact hen)), hunder, hrest]
    rfl
  have hboot : u.boot = w.boot := (congrArg State.boot hframe :)
  have htime : u.time = w.time := (congrArg State.time hframe :)
  have hflt : u.flt = w.flt := (congrArg State.flt hframe :)
  have hudev : u.dev = w.dev := (congrArg State.dev hframe :)
  have hemu : u.emission h = .abort := emission_of_aborted (by rw [hrt]; rfl) (by rw [hudev]; exact hdev) (by unfold State.isFenced at hf ⊢; rw [hflt]; exact hf)
  have hsend : w.sendBand h j o = (u.emitLines h j []).modHead h
      (fun y => { y with emitted := j + 1, fetched := removeNat k y.fetched, urgent := removeNat k y.urgent }) := by
    unfold State.sendBand
    dsimp only
    rw [← hk, hno]
    simp only [hst, Bool.not_false, Bool.false_and, Bool.true_and, Bool.false_eq_true, if_false, decide_true, if_true, ← hu, hlast.ne, List.filter_nil, List.map_nil]
    exact if_pos rfl
  have hsent := headRt_emitLines h j k [] u (by rw [hrt]; exact hen)
  rw [hrt, hemu, hboot, htime, emittedBand_abort] at hsent
  rw [hsend]
  exact ⟨hsent, (hframe.modHead h _).modHead h _⟩

/-- Settles O48: fetches and urgency by their conditions, and the row that is due by whether it is in the line buffer. -/
theorem bandRows_hold : Obligations.BandRows := by
  intro dt h j o s a x ha hx
  subst hx
  refine ⟨fun g k hg hk hl hp hf hj hfet => ?_, fun w y k hw hy hk hdev hd hd' hen hst hwdev hf hlast => ?_⟩
  · subst hg ha
    exact ⟨fun hb hr ho hroom => congrArg Host.Outcome.next (bandFetched_of_next hl hp hf hj hfet hb hr ho hroom k hk),
      fun hno hurg hat => congrArg Host.Outcome.next (fetchUrgent_of_missing hl hp hf hj hfet k hk hno hurg hat)⟩
  · have hrow : exec (.bandRowEmit dt h j o) s = .next (w.sendBand h j o) := by
      rw [hw] at hd' ⊢
      rw [ha] at hdev hd hd' ⊢
      exact congrArg Host.Outcome.next (bandEmit_of_due hdev hd hd')
    subst hy
    refine ⟨fun u hin hagree hlbuf hu => ?_, fun hout => ?_⟩
    · obtain ⟨hhead, hframe⟩ := sendBand_of_inTime hk (emission_of_live hst hwdev hf) hen hlast hin hagree hlbuf hu
      exact ⟨_, hrow, hhead, hframe⟩
    · obtain ⟨hhead, hframe⟩ := sendBand_of_missing (o := o) hk hst hwdev hf hen hlast hout
      exact ⟨_, hrow, congrArg HeadRt.state hhead, congrArg HeadRt.abortedNow hhead, congrArg HeadRt.allInTime hhead, congrArg HeadRt.emitted hhead,
        congrArg HeadRt.glassBand hhead, congrArg HeadRt.lit hhead, hframe⟩

end Sys2Proof.Machine
end

section
/-! PROOF. The age checks (O49). -/

namespace Sys2Proof.Machine

open Sys2Proof

/-- A set with UNVERIFIED shows it alone (R180). -/
theorem shownMarks_of_unverified {l : List Marker} (h : Marker.unverified ∈ l) : shownMarks l = [.unverified] :=
  if_pos (by simpa [hasMark] using h)

/-- Both age compares agree that a limit is exceeded. -/
structure AgeCompare (exceeds : Nat → Nat → Nat → Bool) : Prop where
  of_lt : ∀ t c ms, c + ms * 1000000 < t → exceeds t c ms = true

/-- Checker P compares the age. -/
theorem ageCompare_P : AgeCompare exceedsP := ⟨fun t c ms h => decide_eq_true (by omega)⟩

/-- Checker Q compares the deadline. -/
theorem ageCompare_Q : AgeCompare exceedsQ := ⟨fun _ _ _ h => decide_eq_true h⟩

section entry

variable {exceeds : Nat → Nat → Nat → Bool} {pol : List PolicyEntry} {t : Nat} {adv : Nat → Nat} {c : Contrib}

/-- An entry without a seal is DEAD. -/
theorem judgeEntry_of_noSeal (hb : c.background = false) (hs : c.noSeal = true) : judgeEntry exceeds pol t adv c = [.dead] := by
  simp [judgeEntry, hb, hs]

/-- An entry that no policy line knows is UNVERIFIED. -/
theorem judgeEntry_of_unknown (hb : c.background = false) (hs : c.noSeal = false) (hl : lineOf pol c.window = none) :
    judgeEntry exceeds pol t adv c = [.unverified] := by
  simp [judgeEntry, hb, hs, hl]

/-- An entry past its stale limit is STALE, or DEAD without a seal. -/
theorem judgeEntry_of_stale {p : PolicyEntry} (hx : AgeCompare exceeds) (hb : c.background = false) (hl : lineOf pol c.window = some p)
    (h : c.capture + p.staleMs * 1000000 < t) : ∃ m ∈ judgeEntry exceeds pol t adv c, m = .stale ∨ m = .dead := by
  cases hs : c.noSeal
  · refine ⟨.stale, ?_, .inl rfl⟩
    simp [judgeEntry, hb, hs, hl, allMarkers, hx.of_lt _ _ _ h]
  · exact ⟨.dead, by simp [judgeEntry_of_noSeal hb hs], .inr rfl⟩

/-- An entry past its dead limit is DEAD. -/
theorem judgeEntry_of_dead {p : PolicyEntry} (hx : AgeCompare exceeds) (hb : c.background = false) (hl : lineOf pol c.window = some p)
    (h : c.capture + p.deadMs * 1000000 < t) : Marker.dead ∈ judgeEntry exceeds pol t adv c := by
  cases hs : c.noSeal
  · simp [judgeEntry, hb, hs, hl, allMarkers, hx.of_lt _ _ _ h]
  · simp [judgeEntry_of_noSeal hb hs]

end entry

/-- A verdict that passes its checks keeps its markers. -/
theorem settle_of_pass {v : Checked} (h : (v.settle.tprFail || v.settle.crcFail) = false) : v.settle = v := by
  unfold Checked.settle at *
  split
  · next hf => rw [if_pos hf] at h; exact absurd (hf.symm.trans h) (by decide)
  · rfl

/-- A checker without a fault in the tile finds what its own compare finds, where the tile passes its checks. -/
theorem checkTile_of_sound {s : State} {pol : List PolicyEntry} {exceeds : Nat → Nat → Nat → Bool} {tprBad crcBad : Bool} {col b : Nat} {t : TileResult}
    {faults : List CheckFault} (h : ∀ x ∈ faults, x.col ≠ col) (hpass : ((s.checkTile pol exceeds tprBad crcBad col b t faults).tprFail ||
      (s.checkTile pol exceeds tprBad crcBad col b t faults).crcFail) = false) :
    (s.checkTile pol exceeds tprBad crcBad col b t faults).marks = t.tpr.contribs.map (judgeEntry exceeds pol s.wallNs s.lastAdvance) := by
  have hnone : faults.filter (fun f => decide (f.col = col)) = [] := List.filter_eq_nil_iff.2 fun x hx => by simpa using h x hx
  have hsettled := settle_of_pass hpass
  unfold State.checkTile at *
  rw [hsettled, hnone]
  rfl

/-- What each checker marks stands in the unit's verdict. -/
theorem mem_union_marks {p q : Checked} {k : Nat} {m : Marker} (h : m ∈ p.marks.getD k [] ∨ m ∈ q.marks.getD k []) : m ∈ (p.union q).marks.getD k [] := by
  have hk : k < max p.marks.length q.marks.length := by
    by_contra hn
    rw [List.getD_eq_default _ _ (by omega), List.getD_eq_default _ _ (by omega)] at h
    simp at h
  simp only [Checked.union, List.getD_eq_getElem?_getD]
  simp [hk, mem_unionMarks]
  simpa using h

/-- What is marked on an entry stands in the set of its pixels. -/
theorem mem_entrySet {cs : List Contrib} {ms : List (List Marker)} {k : Nat} {m : Marker} (hk : k < cs.length) (h : m ∈ ms.getD k []) : m ∈ entrySet cs ms k := by
  unfold entrySet
  rw [if_neg (by omega)]
  exact mem_foldl_unionMarks ms _ _ m h

/-- A view whose tile failed a check shows UNVERIFIED. -/
theorem setOf_viewOf_of_fail {u : Checked} {t : TileResult} {band : List (List Word)} {w : Word} (h : (u.tprFail || u.crcFail) = true) :
    (viewOf u t band).setOf w = [.unverified] := by
  rw [viewOf, if_pos h]
  rfl

/-- In the view of a tile that passed, what is marked on a pixel's entry stands in the pixel's set. -/
theorem mem_setOf_viewOf {u : Checked} {t : TileResult} {band : List (List Word)} {w : Word} {m : Marker} (h : (u.tprFail || u.crcFail) = false)
    (hk : slotOf w < t.tpr.contribs.length) (hm : m ∈ u.marks.getD (slotOf w) []) : m ∈ (viewOf u t band).setOf w := by
  have hmem : m ∈ entrySet t.tpr.contribs u.marks (slotOf w) := mem_entrySet hk hm
  rw [viewOf, if_neg (by rw [h]; exact Bool.false_ne_true)]
  simpa [TileView.setOf, hk, Nat.not_le.2 hk] using hmem

/-- What a checker without a fault in the tile marks on an entry. -/
theorem marks_of_sound {exceeds : Nat → Nat → Nat → Bool} {s : State} {pol : List PolicyEntry} {t : TileResult} {v : Checked} {k : Nat} {c : Contrib}
    (hv : v.marks = t.tpr.contribs.map (judgeEntry exceeds pol s.wallNs s.lastAdvance)) (hc : t.tpr.contribs[k]? = some c) :
    v.marks.getD k [] = judgeEntry exceeds pol s.wallNs s.lastAdvance c := by
  rw [hv, List.getD_eq_getElem?_getD, List.getElem?_map, hc]
  rfl

/-- The set of a judged pixel: UNVERIFIED alone, or it holds all that a checker without a fault in the tile marks on the pixel's entry. -/
theorem setOf_judged {s : State} {pol : List PolicyEntry} {h row col f half b : Nat} {o : BandObs} {t : TileResult} {w : Word} {c : Contrib}
    (ht : (s.row (rowKey h row)).committed col = some t) (hsound : (∀ x ∈ o.faultP, x.col ≠ col) ∨ (∀ x ∈ o.faultQ, x.col ≠ col))
    (hc : t.tpr.contribs[slotOf w]? = some c) :
    (s.judgeAt pol h row col f half b o).view.setOf w = [.unverified] ∨
    ∃ exceeds, AgeCompare exceeds ∧ ∀ m ∈ judgeEntry exceeds pol s.wallNs s.lastAdvance c, m ∈ (s.judgeAt pol h row col f half b o).view.setOf w := by
  obtain ⟨hk, -⟩ := List.getElem?_eq_some_iff.1 hc
  unfold State.judgeAt
  dsimp only
  rw [ht]
  dsimp only
  split
  · exact .inl rfl
  · generalize hP : s.checkTile pol exceedsP _ _ col b t o.faultP = P
    generalize hQ : s.checkTile pol exceedsQ _ _ col b t o.faultQ = Q
    cases hpass : ((P.union Q).tprFail || (P.union Q).crcFail)
    · have hbad : (P.tprFail || P.crcFail) = false ∧ (Q.tprFail || Q.crcFail) = false := by
        simp only [Checked.union, Bool.or_eq_false_iff] at hpass ⊢
        tauto
      right
      rcases hsound with hp | hq
      · have hmarks : P.marks = t.tpr.contribs.map (judgeEntry exceedsP pol s.wallNs s.lastAdvance) := by rw [← hP]; exact checkTile_of_sound hp (by rw [hP]; exact hbad.1)
        exact ⟨exceedsP, ageCompare_P, fun m hm => mem_setOf_viewOf hpass hk (mem_union_marks (.inl (by rw [marks_of_sound hmarks hc]; exact hm)))⟩
      · have hmarks : Q.marks = t.tpr.contribs.map (judgeEntry exceedsQ pol s.wallNs s.lastAdvance) := by rw [← hQ]; exact checkTile_of_sound hq (by rw [hQ]; exact hbad.2)
        exact ⟨exceedsQ, ageCompare_Q, fun m hm => mem_setOf_viewOf hpass hk (mem_union_marks (.inr (by rw [marks_of_sound hmarks hc]; exact hm)))⟩
    · exact .inl (setOf_viewOf_of_fail hpass)

/-- Settles O49: by `setOf_judged`, with what each compare marks on the entry. -/
theorem ageChecks : Obligations.AgeChecks := by
  intro s pol h row col f half b o t w c v ht hv hsound hc hb
  rcases setOf_judged (pol := pol) (f := f) (half := half) (b := b) ht hsound hc with hset | ⟨exceeds, hx, hall⟩
  · rw [← hv] at hset
    have hun : shownMarks (v.setOf w) = [.unverified] := shownMarks_of_unverified (by rw [hset]; exact List.mem_singleton_self _)
    simp [hun]
  · rw [← hv] at hall
    refine ⟨fun p hl => ⟨fun hstale => ?_, fun hdead => ?_⟩, fun hs => ?_, fun hs hl => ?_⟩
    · obtain ⟨m, hm, rfl | rfl⟩ := judgeEntry_of_stale (adv := s.lastAdvance) hx hb hl hstale
      · exact shownMarks_of_stale _ (hall _ hm)
      · obtain ⟨m, hm, hd⟩ := shownMarks_of_dead _ (hall _ hm)
        exact ⟨m, hm, .inr hd⟩
    · exact shownMarks_of_dead _ (hall _ (judgeEntry_of_dead hx hb hl hdead))
    · exact shownMarks_of_dead _ (hall _ (by simp [judgeEntry_of_noSeal hb hs]))
    · exact shownMarks_of_unverified (hall _ (by simp [judgeEntry_of_unknown hb hs hl]))

end Sys2Proof.Machine
end

section
/-! PROOF. HPD, AUX and link training of a head (O50). -/

namespace Sys2Proof.Machine

open Sys2Proof

/-! ### AUX jobs (R210) -/

/-- What leaves on AUX when a head's jobs are `l`: the one in front begins. -/
def Out.auxBegun (h : Nat) (l : List (AuxJob × Nat)) (o : Out) : Out := l.head?.elim o (fun j => { o with aux := (h, j.1.code) :: o.aux })

/-- The jobs of head `h` are `l`, and the one in front begins. -/
def State.withJobs (h : Nat) (l : List (AuxJob × Nat)) (s : State) : State :=
  { s.modHead h (fun y => { y with aux := l }) with out := s.out.auxBegun h l }

/-- The job in front of a head's queue begins. -/
theorem auxSend_eq (h : Nat) (s : State) : s.auxSend h = { s with out := s.out.auxBegun h (s.headRt h).aux } := by
  unfold State.auxSend
  cases (s.headRt h).aux <;> rfl

/-- Setting a head's jobs and beginning the one in front. -/
theorem auxSend_modHead {h : Nat} {l : List (AuxJob × Nat)} {s : State} (hen : (s.headRt h).cfg.enable = true) :
    (s.modHead h (fun y => { y with aux := l })).auxSend h = s.withJobs h l := by
  have haux : (s.modHead h (fun y => { y with aux := l })).headRt h = { s.headRt h with aux := l } := headRt_modHead h _ s (headRt_ne_default hen)
  rw [auxSend_eq, haux]
  rfl

/-- The head of a state with new jobs. -/
theorem headRt_withJobs {h : Nat} {l : List (AuxJob × Nat)} {s : State} (hen : (s.headRt h).cfg.enable = true) :
    (s.withJobs h l).headRt h = { s.headRt h with aux := l } :=
  headRt_modHead h (fun y => { y with aux := l }) s (headRt_ne_default hen)

/-- The front job has ended, and the rest goes on. -/
theorem auxNext_of_cons {h : Nat} {j : AuxJob × Nat} {l : List (AuxJob × Nat)} {s : State} (hen : (s.headRt h).cfg.enable = true)
    (haux : (s.headRt h).aux = j :: l) : s.auxNext h = s.withJobs h l := by
  unfold State.auxNext
  rw [modHead_congr h (fun y => { y with aux := y.aux.drop 1 }) (fun y => { y with aux := l }) s (by rw [haux]; rfl), auxSend_modHead hen]

/-- A new job joins the queue, and begins where the channel is free. -/
theorem auxQueue_eq {h : Nat} {j : AuxJob} {s : State} (hen : (s.headRt h).cfg.enable = true) :
    s.auxQueue h j = { s.modHead h (fun y => { y with aux := y.aux ++ [(j, 0)] }) with
      out := if (s.headRt h).aux = [] then { s.out with aux := (h, j.code) :: s.out.aux } else s.out } := by
  unfold State.auxQueue
  dsimp only
  cases haux : (s.headRt h).aux with
  | nil =>
    have hrt : (s.modHead h (fun y => { y with aux := y.aux ++ [(j, 0)] })).headRt h = { s.headRt h with aux := (s.headRt h).aux ++ [(j, 0)] } :=
      headRt_modHead h _ s (headRt_ne_default hen)
    refine (if_pos rfl).trans ?_
    rw [auxSend_eq, hrt, haux]
    rfl
  | cons x l => rfl

/-! ### HPD (R209, R212) -/

/-- An HPD pulse has the link status read. -/
theorem hpdIrq_of_high {h : Nat} {s : State} (hen : (s.headRt h).cfg.enable = true) (hhpd : (s.headRt h).hpd = true) :
    s.hpdIrq h = { State.modHead h (fun y => { y with aux := y.aux ++ [(.linkStatus, 0)] }) (s.count 0x05 h 8 1) with
      out := if (s.headRt h).aux = [] then { s.out with aux := (h, 0) :: s.out.aux } else s.out } := by
  unfold State.hpdIrq
  rw [if_pos hhpd]
  exact auxQueue_eq (s := s.count 0x05 h 8 1) hen

/-- HPD that counts as high has the capabilities read. -/
theorem hpdAsserted_of_low {h : Nat} {s : State} (hen : (s.headRt h).cfg.enable = true) (hhpd : (s.headRt h).hpd = false) :
    s.hpdAsserted h = { State.modHead h (fun y => { y with hpd := true, aux := y.aux ++ [(.capabilities, 0)] }) s with
      out := if (s.headRt h).aux = [] then { s.out with aux := (h, 1) :: s.out.aux } else s.out } := by
  have hrt : (s.modHead h (fun y => { y with hpd := true })).headRt h = { s.headRt h with hpd := true } := headRt_modHead h _ s (headRt_ne_default hen)
  unfold State.hpdAsserted
  rw [if_neg (by rw [hhpd]; exact Bool.false_ne_true), auxQueue_eq (by rw [hrt]; exact hen), hrt,
    modHead_modHead h (fun y => { y with aux := y.aux ++ [(.capabilities, 0)] }) _ s (headRt_ne_default hen) (headRt_ne_default hen)]
  rfl

/-- A head that has lost HPD and all that it held of its sink. -/
def HeadRt.unplugged (y : HeadRt) : HeadRt :=
  { y with hpd := false, hpdWasLow := true, aux := [], dpcdStatus := [], dpcdCaps := [], lttpr := [], edid := [] }

/-- What holds of a head after its sink has gone and its link is DOWN; `a` is the state before. -/
structure Unplugged (h : Nat) (a t : State) : Prop where
  state : (t.headRt h).state = .down
  hpd : (t.headRt h).hpd = false
  low : (t.headRt h).hpdWasLow = true
  rate : (t.headRt h).rate = 0xFF
  lanes : (t.headRt h).lanes = 0
  aux : (t.headRt h).aux = []
  edid : (t.headRt h).edid = []
  frame : { t with heads := a.heads, lanes := a.lanes, counters := a.counters, out := { t.out with auxWrites := a.out.auxWrites } } = a

/-- Taking DOWN a head that has lost HPD. -/
theorem headDown_unplugged {h : Nat} {a u : State} (hen : (u.headRt h).cfg.enable = true) (hhpd : (u.headRt h).hpd = false) (haux : (u.headRt h).aux = [])
    (hedid : (u.headRt h).edid = [])
    (hframe : { u with heads := a.heads, lanes := a.lanes, counters := a.counters, out := { u.out with auxWrites := a.out.auxWrites } } = a) :
    Unplugged h a (u.headDown h) := by
  obtain ⟨hrt, hdown⟩ := headDown_spec h u hen
  have hout := headDown_out h u hen haux
  refine ⟨by rw [hrt], by rw [hrt]; exact hhpd, by rw [hrt]; simp [hhpd], by rw [hrt]; rfl, by rw [hrt]; rfl,
    by rw [hrt]; simp [HeadRt.untrained, HeadRt.unlink, HeadRt.unlit, haux], by rw [hrt]; exact hedid, ?_⟩
  rw [hout]
  exact (congrArg (fun x : State => { x with heads := a.heads, lanes := a.lanes, counters := a.counters, out := { u.out with auxWrites := a.out.auxWrites } }) hdown).trans hframe

/-- A head enters TRAINING from a state that differs in heads and counters alone. -/
theorem frame_after_train {s u v t : State} (hu : { u with heads := s.heads, counters := s.counters } = s) (hv : { v with counters := u.counters } = u)
    (ht : { t with heads := v.heads, counters := v.counters, out := { t.out with auxWrites := v.out.auxWrites } } = v) :
    { t with heads := s.heads, lanes := s.lanes, counters := s.counters, out := { t.out with auxWrites := s.out.auxWrites } } = s := by
  have hlv : v.lanes = u.lanes := (congrArg State.lanes hv :)
  have hlu : u.lanes = s.lanes := (congrArg State.lanes hu :)
  have hov : v.out = u.out := (congrArg State.out hv :)
  have hou : u.out = s.out := (congrArg State.out hu :)
  have hlanes : s.lanes = v.lanes := (hlv.trans hlu).symm
  have hout : s.out = v.out := (hov.trans hou).symm
  have hts : t.lanes = v.lanes := (congrArg State.lanes ht :)
  have hsu := (congrArg (fun x : State => { x with heads := s.heads, counters := s.counters }) hv).trans hu
  rw [hlanes, hout, ← hts]
  exact (congrArg (fun x : State => { x with heads := s.heads, counters := s.counters }) ht).trans hsu

/-- The end of HPD takes a head with a link, or in training, to DOWN. -/
theorem hpdUnplug_of_high {h : Nat} {s : State} (hen : (s.headRt h).cfg.enable = true) (hhpd : (s.headRt h).hpd = true)
    (hlink : (s.headRt h).linked = true ∨ (s.headRt h).state = .training) : Unplugged h s (s.hpdUnplug h) := by
  obtain ⟨u, hu⟩ : ∃ u, u = (s.count 0x05 h 9 1).modHead h HeadRt.unplugged := ⟨_, rfl⟩
  have hrt : u.headRt h = (s.headRt h).unplugged := by
    rw [hu]
    exact headRt_modHead h _ (s.count 0x05 h 9 1) (headRt_ne_default hen)
  have hstep : s.hpdUnplug h = if (u.headRt h).linked then u.headLinkLoss h else if (u.headRt h).state = .training then u.headDown h else u := by
    unfold State.hpdUnplug
    rw [if_neg (by simp [hhpd]), hu]
    rfl
  have huframe : { u with heads := s.heads, counters := s.counters } = s := by rw [hu]; rfl
  rw [hstep]
  by_cases hl : (s.headRt h).linked = true
  · obtain ⟨trt, tframe⟩ := headTrain_spec h (u.count 0x05 h 7 1) (by exact (congrArg (fun x => x.cfg.enable) hrt).trans hen)
    have htrt : ((u.count 0x05 h 7 1).headTrain h).headRt h = { ((s.headRt h).unplugged).unlit.unlink with
        state := .training, attempting := true, attempts := 0, hpdWasLow := false } := by
      rw [trt, ← hrt]
      rfl
    have hloss : u.headLinkLoss h = ((u.count 0x05 h 7 1).headTrain h).headDown h := by
      unfold State.headLinkLoss
      rw [if_pos (by rw [hrt]; exact hl)]
      exact if_neg (by rw [show (State.headTrain h (u.countHead h 7)).headRt h = _ from htrt]; exact Bool.false_ne_true)
    rw [if_pos (by rw [hrt]; exact hl), hloss]
    refine headDown_unplugged (by rw [htrt]; exact hen) (by rw [htrt]; rfl) (by rw [htrt]; rfl) (by rw [htrt]; rfl) ?_
    exact frame_after_train huframe (count_frame 0x05 h 7 1 u) tframe
  · have ht : (s.headRt h).state = .training := hlink.resolve_left hl
    rw [if_neg (by rw [hrt]; exact hl), if_pos (by rw [hrt]; exact ht)]
    refine headDown_unplugged (by rw [hrt]; exact hen) (by rw [hrt]; rfl) (by rw [hrt]; rfl) (by rw [hrt]; rfl) ?_
    rw [hu]
    rfl

/-! ### Replies and time-outs (R210, R212) -/

/-- The link status is read, and shows no loss. -/
theorem auxReply_keeps {h n : Nat} {d : AuxData} {l : List (AuxJob × Nat)} {s : State} (hen : (s.headRt h).cfg.enable = true)
    (haux : (s.headRt h).aux = (.linkStatus, n) :: l) (hok : d.linkLost = false) :
    s.auxReply h d = State.modHead h (fun y => { y with dpcdStatus := d.status }) (s.withJobs h l) := by
  unfold State.auxReply
  rw [haux]
  dsimp only
  rw [auxNext_of_cons hen haux, hok]
  exact if_neg Bool.false_ne_true

/-- The link status is read, and shows a loss: the head trains again. -/
theorem auxReply_loses {h n : Nat} {d : AuxData} {l : List (AuxJob × Nat)} {s : State} (hen : (s.headRt h).cfg.enable = true)
    (haux : (s.headRt h).aux = (.linkStatus, n) :: l) (hlost : d.linkLost = true) (hlink : (s.headRt h).linked = true) (hhpd : (s.headRt h).hpd = true) :
    s.auxReply h d = State.headTrain h (State.count 0x05 h 7 1 (State.modHead h (fun y => { y with dpcdStatus := d.status }) (s.withJobs h l))) := by
  obtain ⟨u, hu⟩ : ∃ u, u = State.modHead h (fun y => { y with dpcdStatus := d.status }) (s.withJobs h l) := ⟨_, rfl⟩
  have hjobs := headRt_withJobs (l := l) hen
  have hrt : u.headRt h = { (s.withJobs h l).headRt h with dpcdStatus := d.status } := by
    rw [hu]
    exact headRt_modHead h _ (s.withJobs h l) (headRt_ne_default (by rw [hjobs]; exact hen))
  rw [hjobs] at hrt
  have hstep : s.auxReply h d = u.headLinkLoss h := by
    unfold State.auxReply
    rw [haux]
    dsimp only
    rw [auxNext_of_cons hen haux, hlost, ← hu]
    exact if_pos rfl
  obtain ⟨trt, -⟩ := headTrain_spec h (u.count 0x05 h 7 1) (by exact (congrArg (fun x => x.cfg.enable) hrt).trans hen)
  have htrt : ((u.count 0x05 h 7 1).headTrain h).headRt h = { (u.headRt h).unlit.unlink with
      state := .training, attempting := true, attempts := 0, hpdWasLow := false } := trt
  rw [hstep, ← hu]
  unfold State.headLinkLoss
  rw [if_pos (by rw [hrt]; exact hlink)]
  exact if_pos ((congrArg HeadRt.hpd htrt).trans ((congrArg HeadRt.hpd hrt).trans hhpd))

/-- The capabilities are read. -/
theorem auxReply_capabilities {h n : Nat} (d : AuxData) {l : List (AuxJob × Nat)} {s : State} (hen : (s.headRt h).cfg.enable = true)
    (haux : (s.headRt h).aux = (.capabilities, n) :: l) :
    s.auxReply h d = State.modHead h (fun y => { y with dpcdCaps := d.caps, lttpr := d.lttpr, edid := d.edid }) (s.withJobs h l) := by
  unfold State.auxReply
  rw [haux]
  dsimp only
  rw [auxNext_of_cons hen haux]

/-- A head that has jobs runs the one in front. -/
theorem auxJobs_of_cons {r : HeadRt} {j : AuxJob × Nat} {l : List (AuxJob × Nat)} (haux : r.aux = j :: l) : r.auxJobs = j :: l := by
  unfold HeadRt.auxJobs
  rw [haux]

/-- A failed transaction is tried again. -/
theorem auxTimeout_retries {h n : Nat} {job : AuxJob} {l : List (AuxJob × Nat)} {s : State} (hen : (s.headRt h).cfg.enable = true)
    (haux : (s.headRt h).auxJobs = (job, n) :: l) (hn : n < 2) : s.auxTimeout h = s.withJobs h ((job, n + 1) :: l) := by
  unfold State.auxTimeout
  rw [haux]
  exact (if_pos hn).trans (auxSend_modHead hen)

/-- A transaction that has failed three times counts, and the next job begins. -/
theorem auxTimeout_fails {h n : Nat} {job : AuxJob} {l : List (AuxJob × Nat)} {s u : State} (hen : (s.headRt h).cfg.enable = true)
    (haux : (s.headRt h).auxJobs = (job, n) :: l) (hn : 2 ≤ n) (hu : u = { s.withJobs h l with counters := (s.count 0x05 h 10 1).counters }) :
    s.auxTimeout h = if job = .train then u.attemptFail h else u := by
  have hsend : ((s.countHead h 10).modHead h (fun x => { x with aux := l })).auxSend h = u :=
    (auxSend_modHead (s := s.count 0x05 h 10 1) hen).trans hu.symm
  unfold State.auxTimeout
  rw [haux]
  dsimp only
  rw [if_neg (Nat.not_lt.2 hn), hsend]

/-! ### Training (R207, R211) -/

/-- A successful attempt on ready lanes. -/
theorem trainDone_of_ready {h : Nat} (presets : List Nat) {s : State} (hst : (s.headRt h).state = .training) (hatt : (s.headRt h).attempting = true)
    (hhpd : (s.headRt h).hpd = true) (hlanes : s.lanesReady (s.headRt h).cfg = true) :
    s.trainDone h presets = State.count 0x05 h 5 1 (State.auxUntrain h (s.modHead h (fun y =>
      { y with state := .starting, idle := true, n := 0, attempting := false, attempts := 0, rate := (s.headRt h).cfg.linkRate,
               lanes := (s.headRt h).cfg.lanes, trained := some (s.trainedAs h presets) }))) := by
  unfold State.trainDone
  dsimp only
  rw [if_neg (by simp [hst, hatt, hhpd, hlanes])]
  exact congrArg (fun u => State.count 0x05 h 5 1 (State.auxUntrain h u)) (modHead_congr h _ _ s rfl)

/-- An attempt fails, and another follows. -/
theorem attemptFail_of_lt {h : Nat} {s : State} (hst : (s.headRt h).state = .training) (hatt : (s.headRt h).attempting = true)
    (hn : (s.headRt h).attempts < 2) :
    s.attemptFail h = State.auxUntrain h (s.modHead h (fun y => { y with attempting := false, attempts := (s.headRt h).attempts + 1 })) := by
  unfold State.attemptFail
  dsimp only
  rw [if_neg (by simp [hst, hatt]), if_neg (Nat.not_le.2 hn)]
  exact congrArg (State.auxUntrain h) (modHead_congr h _ _ s rfl)

/-- What holds of a head whose link is DOWN; `a` is the state before. -/
structure LinkDown (h : Nat) (a t : State) : Prop where
  state : (t.headRt h).state = .down
  rate : (t.headRt h).rate = 0xFF
  lanes : (t.headRt h).lanes = 0
  frame : { t with heads := a.heads, lanes := a.lanes, counters := a.counters, out := a.out } = a

/-- The third failure takes the head to DOWN. -/
theorem attemptFail_of_ge {h : Nat} {s : State} (hen : (s.headRt h).cfg.enable = true) (hst : (s.headRt h).state = .training)
    (hatt : (s.headRt h).attempting = true) (hn : 2 ≤ (s.headRt h).attempts) : LinkDown h s (s.attemptFail h) := by
  obtain ⟨hrt, hframe⟩ := headDown_spec h (s.count 0x05 h 6 1) hen
  have hstep : s.attemptFail h = (s.count 0x05 h 6 1).headDown h := by
    unfold State.attemptFail
    dsimp only
    rw [if_neg (by simp [hst, hatt]), if_pos hn]
    rfl
  rw [hstep]
  exact ⟨by rw [hrt], by rw [hrt]; rfl, by rw [hrt]; rfl, (congrArg (fun x : State => { x with counters := s.counters }) hframe :)⟩

/-- The next attempt starts. -/
theorem trainRetry_of_high {h : Nat} {s : State} (hst : (s.headRt h).state = .training) (hatt : (s.headRt h).attempting = false)
    (hhpd : (s.headRt h).hpd = true) : s.trainRetry h = State.trainWrites h (s.modHead h (fun y => { y with attempting := true })) := by
  unfold State.trainRetry
  dsimp only
  rw [if_neg (by simp [hst, hatt]), if_pos hhpd]

/-! ### The obligation -/

/-- Settles O50: the rows of a head's link, each from the lemma about its operation. -/
theorem headTraining : Obligations.HeadTraining := by
  intro dt h s a x jobs ha hx hen hjobs
  have hwith : ∀ l, jobs l = a.withJobs h l := by
    intro l
    rw [hjobs]
    cases l <;> rfl
  subst ha hx
  refine ⟨fun hhpd => congrArg Host.Outcome.next (hpdIrq_of_high hen hhpd), fun hhpd hlink => ?_,
    fun hhpd => congrArg Host.Outcome.next (hpdAsserted_of_low hen hhpd), fun d n l haux => ?_, fun d n l haux => ?_, fun job n l haux => ?_,
    fun hst hatt => ⟨fun haux => ?_, fun presets hhpd hl => congrArg Host.Outcome.next (trainDone_of_ready presets hst hatt hhpd hl),
      fun hn u hu => ?_, fun hn => ?_⟩,
    fun hst hatt hhpd => congrArg Host.Outcome.next (trainRetry_of_high hst hatt hhpd)⟩
  · obtain ⟨hstate, hhpd', hlow, hrate, hlanes, haux, hedid, hframe⟩ := hpdUnplug_of_high hen hhpd hlink
    exact ⟨_, rfl, hstate, hhpd', hlow, hrate, hlanes, haux, hedid, hframe⟩
  · rw [hwith]
    exact ⟨fun hok => congrArg Host.Outcome.next (auxReply_keeps hen haux hok),
      fun hlost hlink hhpd => congrArg Host.Outcome.next (auxReply_loses hen haux hlost hlink hhpd)⟩
  · rw [hwith]
    exact congrArg Host.Outcome.next (auxReply_capabilities d hen haux)
  · rw [hwith, hwith]
    exact ⟨fun hn => congrArg Host.Outcome.next (auxTimeout_retries hen (auxJobs_of_cons haux) hn),
      fun hn u hu => congrArg Host.Outcome.next (auxTimeout_fails hen (auxJobs_of_cons haux) hn hu)⟩
  · have hone : ((s.advance dt).headRt h).auxJobs = [(.train, 0)] := by
      unfold HeadRt.auxJobs
      rw [haux]
      exact if_pos (by simp [hst, hatt])
    rw [hwith]
    exact congrArg Host.Outcome.next (auxTimeout_retries hen hone (by decide))
  · have hfail := (attemptFail_of_lt hst hatt hn).trans hu.symm
    exact ⟨congrArg Host.Outcome.next hfail, congrArg Host.Outcome.next hfail⟩
  · obtain ⟨hstate, hrate, hlanes, hframe⟩ := attemptFail_of_ge hen hst hatt hn
    exact ⟨_, rfl, rfl, hstate, hrate, hlanes, hframe⟩

end Sys2Proof.Machine
end

section
/-! PROOF. Lanes and quads (O51). -/

namespace Sys2Proof.Machine

open Sys2Proof

/-- A lane that its user needs leaves Rest with a burst, a long one where it rested long or lost its PLL. -/
theorem restExit_of_needed {q : Nat} {s : State} (hrest : (s.lane q).rest = true) (hneed : shouldRest s q = false) {long : Bool}
    (hlong : long = ((s.lane q).longNext || decide (5000000 < s.time.upTicks - (s.lane q).restSince))) :
    s.restExit q = (fun u : State => if long then u.count 0x14 q 4 1 else u)
      { s.modLane q (fun x => { x with rest := false, longNext := false, burstUi := if long then 4096 else 256 }) with
        out := { s.out with bursts := (q, if long then 4096 else 256) :: s.out.bursts } } := by
  subst hlong
  unfold State.restExit
  dsimp only
  exact if_neg (by simp [hrest, hneed])

/-- A receive lane leaves Rest at the end of electrical idle. -/
theorem idleExit_of_resting {q : Nat} {s : State} (hrest : (s.lane q).rest = true) (hport : s.lay.dprxs.any (fun e => e.2.enable && dprxHasLane e.2 q) = true) :
    s.idleExit q = s.modLane q (fun x => { x with rest := false, longNext := false }) :=
  if_pos (by rw [hrest, hport]; rfl)

/-- A quad's lanes as the loss of its PLL leaves them. -/
def State.quadUnlocked (q : Nat) (s : State) : State :=
  (List.range 4).foldl (fun s i => s.modLane (4 * q + i) (fun x => { x with longNext := x.longNext || x.rest, cdrLocked := false })) s

/-- The state in which a lost PLL's fault fires: the PLL is lost and counted, its users have lost their links. -/
def State.pllStopped (q : Nat) (s : State) : State := (((s.setPll q .lost).count 0x15 q 0 1).quadStop q).quadUnlocked q

/-- A lost PLL fires its quad's source. -/
theorem pllLost_eq (q : Nat) (s : State) : s.pllLost q = (s.pllStopped q).fireSrc (80 + q) (80 + q) 0xFFFF := rfl

/-- The loss of a quad's PLL reaches no more than links do. -/
theorem pllStopped_frame (q : Nat) (s : State) : LinkFrame ((s.setPll q .lost).count 0x15 q 0 1) (s.pllStopped q) :=
  LinkFrame.trans (LinkFrame.quadStop q _) (LinkFrame.foldl _ (fun u _ => LinkFrame.modLane u _ _) _ _)

/-- The PLL stays lost. -/
theorem pll_pllStopped (q : Nat) (s : State) : (s.pllStopped q).pll q = .lost :=
  ((congrArg (fun t => Tab.get PllState.off q t) (pllStopped_frame q s).2).trans
    (tab_get_set_same .off q .lost s.lanes.pll (by decide)) :)

/-- What links reach after a change of lanes and counters is within what links reach. -/
theorem frame_of_linkFrame {s u v : State} (hu : { u with lanes := s.lanes, counters := s.counters } = s) (hv : LinkFrame u v) :
    { v with ing := s.ing, heads := s.heads, desks := s.desks, lanes := s.lanes, counters := s.counters, rings := s.rings, out := s.out,
             free := s.free } = s := by
  have hus : { u with ing := s.ing, heads := s.heads, desks := s.desks, lanes := s.lanes, counters := s.counters, rings := s.rings, out := s.out,
                      free := s.free } = s :=
    congrArg (fun x : State => { x with ing := s.ing, heads := s.heads, desks := s.desks, rings := s.rings, out := s.out, free := s.free }) hu
  exact (congrArg (fun x : State => { x with
    ing := s.ing, heads := s.heads, desks := s.desks, lanes := s.lanes, counters := s.counters, rings := s.rings, out := s.out,
    free := s.free }) hv.1).trans hus

/-- A PLL that has no lock locks. -/
theorem pllLock_of_unlocked {q : Nat} {s : State} (h : s.pll q = .locking ∨ s.pll q = .lost) : s.pllLock q = s.setPll q .locked :=
  if_pos (by simpa using h)

/-- Clock recovery lost outside Rest counts. -/
theorem cdrLoss_of_locked {q : Nat} {s : State} (hrest : (s.lane q).rest = false) (hcdr : (s.lane q).cdrLocked = true) :
    s.cdrLoss q = State.count 0x14 q 2 1 (s.modLane q (fun x => { x with cdrLocked := false })) :=
  if_neg (by simp [hrest, hcdr])

/-- Settles O51: the rows of lanes and quads, each from the lemma about its operation. -/
theorem laneRows : Obligations.LaneRows := by
  intro dt q s a ha
  subst ha
  refine ⟨fun hrest hneed long hlong => congrArg Host.Outcome.next (restExit_of_needed hrest hneed hlong),
    fun hrest hport => congrArg Host.Outcome.next (idleExit_of_resting hrest hport),
    fun hpll => congrArg Host.Outcome.next (pllLock_of_unlocked hpll),
    ⟨(s.advance dt).pllStopped q, fun hlocking => congrArg Host.Outcome.next ((if_pos hlocking).trans (pllLost_eq q _)),
      fun hlocked => congrArg Host.Outcome.next ((if_pos hlocked).trans (pllLost_eq q _)), pll_pllStopped q _,
      frame_of_linkFrame rfl (pllStopped_frame q _)⟩,
    fun hrest hcdr => congrArg Host.Outcome.next (cdrLoss_of_locked hrest hcdr)⟩

end Sys2Proof.Machine
end

section
/-! PROOF. PTP, masters, holdover and pulses (O52). -/

namespace Sys2Proof.Machine

open Sys2Proof

/-! ### Timestamps and samples (R258, R259) -/

/-- A timestamp of the Lay unit is within 4 ns of the domain's counter. -/
theorem stamp_near (d : Nat) (s : State) :
    ((s.time.domain d).ns : Int) - 4 ≤ (s.stamp d).1 ∧ (s.stamp d).1 ≤ ((s.time.domain d).ns : Int) + 4 := by
  unfold State.stamp
  dsimp only
  omega

/-- A domain that runs is one of the two, is enabled, and has its clock. -/
theorem runs_of_ptpRuns {d : Nat} {s : State} (h : s.ptpRuns d = true) : d < 2 ∧ (s.domainCfg d).enable = true ∧ s.timeRuns = true := by
  unfold State.ptpRuns at h
  simp only [Bool.and_eq_true, decide_eq_true_eq] at h
  exact ⟨h.1.1.1.1, h.1.1.1.2, h.1.2⟩

/-- A sample of Sync `sy` has been formed in domain `d`, which was `x`; `b` is the state but for the domain and the counts. -/
def SampleFormed (d : Nat) (sy : PtpMsg) (o delay : Int) (near : Bool) (x : Domain) (b t : State) : Prop :=
  ∃ y g, t = State.count 0x0C d 7 g (State.count 0x0C d 6 1 (b.modDomain d (fun _ => y))) ∧
    y.sampleSeq = x.sampleSeq + 1 ∧
    y.samples = ({ seq := x.sampleSeq + 1, syncId := sy.seqId, gm := sy.master, t2 := sy.receive, offset := o, delay := delay } :: x.samples).take 64 ∧
    y.state = (if x.state = .locked then (if near = false ∧ 3 ≤ x.bad then .holdover else .locked)
      else if near = true ∧ 15 ≤ x.good then .locked else x.state) ∧
    y.units = x.units ∧ y.incr = x.incr ∧ y.gm = x.gm ∧ y.masters = x.masters ∧ y.exchange = x.exchange ∧ y.delayReq = x.delayReq

/-- A sample is formed of a Sync once an exchange with its master has completed, whatever was noted of the Sync before. -/
theorem formSample_noted {d : Nat} {m : PtpMsg} {cor : Int} {b : State} {x : Domain} {e : Nat × Int × Int × Int} {o delay : Int} {near : Bool}
    (last : Option Nat) (from_ : Nat) (pend : Option PtpMsg) (he : x.exchange = some e) (hem : e.1 = m.master)
    (hd : delay = (((m.receive - m.origin) * 65536 - cor) + ((e.2.2.1 - e.2.1) * 65536 - e.2.2.2)) / 2)
    (ho : o = (m.receive - m.origin) * 65536 - cor - delay) (hn : near = decide (o.natAbs ≤ (b.domainCfg d).lockNs * 65536)) :
    SampleFormed d m o delay near x b
      ((b.modDomain d (fun _ => { x with lastSync := last, syncFrom := from_, pendingSync := pend })).formSample d m cor) := by
  obtain ⟨y, g, ht, hfields⟩ := formSample_spec d m cor (b.modDomain d (fun _ => { x with lastSync := last, syncFrom := from_, pendingSync := pend }))
    { x with lastSync := last, syncFrom := from_, pendingSync := pend } (domain_modDomain_same d _ b) e he hem o delay near hd ho hn
  rw [modDomain_modDomain] at ht
  exact ⟨y, g, ht, hfields⟩

/-- A message of a domain that runs acts on that domain. -/
theorem syncRx_of_domain {d : Nat} {m : PtpMsg} {s : State} (h : s.ptpDomain m = some d) : s.syncRx m = s.syncAt d m := by
  unfold State.syncRx
  rw [h]

/-- A Follow_Up of a domain that runs acts on that domain. -/
theorem followUpRx_of_domain {d : Nat} {m : PtpMsg} {s : State} (h : s.ptpDomain m = some d) : s.followUpRx m = s.followUpAt d m := by
  unfold State.followUpRx
  rw [h]

/-- An Announce of a domain that runs acts on that domain. -/
theorem announceRx_of_domain {d : Nat} {m : PtpMsg} {s : State} (h : s.ptpDomain m = some d) (h0 : m.master ≠ 0) : s.announceRx m = s.announceAt d m := by
  unfold State.announceRx
  rw [h]
  exact if_neg h0

/-- A Delay_Resp of a domain that runs acts on that domain. -/
theorem delayRespRx_of_domain {d : Nat} {m : PtpMsg} {s : State} (h : s.ptpDomain m = some d) : s.delayRespRx m = s.delayRespAt d m := by
  unfold State.delayRespRx
  rw [h]

/-- A Sync of another master counts. -/
theorem syncAt_of_other {d : Nat} {m : PtpMsg} {s : State} (h : (s.time.domain d).gm ≠ m.master) : s.syncAt d m = s.count 0x0C d 0 1 :=
  if_pos (by rw [Bool.or_eq_true]; exact .inl (decide_eq_true h))

/-- A Sync of the selected master is noted with its timestamp. -/
theorem syncAt_of_selected {d : Nat} {m : PtpMsg} {s : State} (h0 : m.master ≠ 0) (hg : (s.time.domain d).gm = m.master) :
    s.syncAt d m = (fun u : State => if m.twoStep then u else u.formSample d { m with receive := (s.stamp d).1 } m.correction)
      (State.modDomain d (fun y => { y with
          lastSync := some s.time.upTicks, syncFrom := s.time.upTicks, pendingSync := if m.twoStep then some { m with receive := (s.stamp d).1 } else none })
        { s.count 0x0C d 0 1 with free := s.free + 1 }) :=
  if_neg (by
    rw [Bool.or_eq_true]
    rintro (h | h)
    · exact of_decide_eq_true h hg
    · exact h0 (of_decide_eq_true h))

/-- A one-step Sync of the selected master forms a sample. -/
theorem syncAt_forms {d : Nat} {m : PtpMsg} {s : State} {x : Domain} {e : Nat × Int × Int × Int} {o delay : Int} {near : Bool}
    (hx : s.time.domain d = x) (h1 : m.twoStep = false) (h0 : m.master ≠ 0) (hg : x.gm = m.master) (he : x.exchange = some e) (hem : e.1 = m.master)
    (hd : delay = ((((s.stamp d).1 - m.origin) * 65536 - m.correction) + ((e.2.2.1 - e.2.1) * 65536 - e.2.2.2)) / 2)
    (ho : o = ((s.stamp d).1 - m.origin) * 65536 - m.correction - delay) (hn : near = decide (o.natAbs ≤ (s.domainCfg d).lockNs * 65536)) :
    SampleFormed d { m with receive := (s.stamp d).1 } o delay near x { s.count 0x0C d 0 1 with free := s.free + 1 } (s.syncAt d m) := by
  rw [syncAt_of_selected h0 (by rw [hx]; exact hg), h1,
    modDomain_congr d _ (fun _ => { x with lastSync := some s.time.upTicks, syncFrom := s.time.upTicks, pendingSync := none }) _ (by rw [← hx]; rfl)]
  exact formSample_noted (m := { m with receive := (s.stamp d).1 }) (cor := m.correction) _ _ _ he hem hd ho hn

/-- The Follow_Up of the two-step Sync that waits forms a sample. -/
theorem followUpAt_forms {d : Nat} {m p : PtpMsg} {s : State} {x : Domain} {e : Nat × Int × Int × Int} {o delay : Int} {near : Bool}
    (hx : s.time.domain d = x) (hp : x.pendingSync = some p) (hpm : p.master = m.master) (hps : p.seqId = m.seqId) (he : x.exchange = some e)
    (hem : e.1 = m.master)
    (hd : delay = (((p.receive - m.origin) * 65536 - (p.correction + m.correction)) + ((e.2.2.1 - e.2.1) * 65536 - e.2.2.2)) / 2)
    (ho : o = (p.receive - m.origin) * 65536 - (p.correction + m.correction) - delay)
    (hn : near = decide (o.natAbs ≤ (s.domainCfg d).lockNs * 65536)) :
    SampleFormed d { p with origin := m.origin } o delay near x (s.count 0x0C d 1 1) (s.followUpAt d m) := by
  have hstep : s.followUpAt d m = ((s.count 0x0C d 1 1).modDomain d (fun _ =>
      { x with lastSync := x.lastSync, syncFrom := x.syncFrom, pendingSync := none })).formSample d { p with origin := m.origin } (p.correction + m.correction) := by
    have hpend : ((s.count 0x0C d 1 1).time.domain d).pendingSync = some p := (congrArg Domain.pendingSync hx).trans hp
    unfold State.followUpAt
    dsimp only
    rw [hpend]
    dsimp only
    rw [if_neg (by simp [hpm, hps]), modDomain_congr d _ (fun _ => { x with lastSync := x.lastSync, syncFrom := x.syncFrom, pendingSync := none }) _ (by rw [← hx]; rfl)]
  rw [hstep]
  exact formSample_noted (m := { p with origin := m.origin }) (cor := p.correction + m.correction) _ _ _ he (hem.trans hpm.symm) hd ho hn

/-! ### Masters (R256, R259) -/

/-- Setting a domain leaves the count of ticks. -/
theorem upTicks_modDomain (d : Nat) (f : Domain → Domain) (s : State) : (s.modDomain d f).time.upTicks = s.time.upTicks := by
  unfold State.modDomain Time.setDomain
  dsimp only
  split <;> rfl

/-- Another master takes over, counted where there was one. -/
theorem selectMaster_of_ne {d g : Nat} {s : State} (h : (s.time.domain d).gm ≠ g) :
    s.selectMaster d g = (fun v : State => if (s.time.domain d).gm = 0 then v else v.count 0x0C d 8 1) (s.modDomain d (fun y =>
      { y with gm := g, good := 0, bad := 0, pendingSync := none, syncFrom := s.time.upTicks })) := if_neg h

/-- After a selection the master is the one selected. -/
theorem gm_selectMaster (d g : Nat) (s : State) : ((s.selectMaster d g).time.domain d).gm = g := by
  by_cases h : (s.time.domain d).gm = g
  · rw [show s.selectMaster d g = s from if_pos h]
    exact h
  · have hd := domain_modDomain_same d (fun y => { y with gm := g, good := 0, bad := 0, pendingSync := none, syncFrom := s.time.upTicks }) s
    rw [selectMaster_of_ne h]
    dsimp only
    split
    · rw [hd]
    · exact congrArg Domain.gm hd

/-- An Announce takes part in the selection, and the selected master's UTC offset is kept. -/
theorem announceAt_selects {d g : Nat} {m : PtpMsg} {s b : State}
    (hb : b = State.modDomain d (fun y => { y with
      masters := y.masters.put m.master m.quality
      heard := y.heard.put m.master (s.time.upTicks, m.interval * 500000) }) (s.count 0x0C d 2 1))
    (hsel : b.selected d = some g) :
    s.announceAt d m = if g = m.master then (b.selectMaster d g).modDomain d (fun y => { y with utcOffset := m.utcOffset }) else b.selectMaster d g := by
  have hstep : s.announceAt d m = (fun u : State => if (u.time.domain d).gm = m.master then u.modDomain d (fun y => { y with utcOffset := m.utcOffset }) else u)
      (match b.selected d with | none => b | some g => b.selectMaster d g) := by
    rw [hb]
    rfl
  rw [hstep, hsel]
  dsimp only
  rw [gm_selectMaster]

/-- A Delay_Resp of the master asked completes the exchange. -/
theorem delayRespAt_of_asked {d : Nat} {m : PtpMsg} {s : State} {q : Nat × Int} (hq : (s.time.domain d).delayReq = some q) (hm : q.1 = m.master) :
    s.delayRespAt d m = State.modDomain d (fun y => { y with delayReq := none, exchange := some (m.master, q.2, m.receive, m.correction) }) (s.count 0x0C d 3 1) := by
  have hreq : ((s.count 0x0C d 3 1).time.domain d).delayReq = some q := hq
  unfold State.delayRespAt
  dsimp only
  rw [hreq]
  exact if_neg (fun h => h hm)

/-- The selected master is gone, and what is left decides. -/
theorem masterGone_selected {d g : Nat} {s b : State} (hg : (s.time.domain d).gm = g)
    (hb : b = s.modDomain d (fun y => { y with masters := y.masters.erase g, heard := y.heard.erase g })) :
    s.masterGone d g = (b.selected d).elim (b.domainLost d) (b.selectMaster d) ∧ (b.time.domain d).gm = g := by
  have hd := domain_modDomain_same d (fun y => { y with masters := y.masters.erase g, heard := y.heard.erase g }) s
  rw [← hb] at hd
  have hbg : (b.time.domain d).gm = g := by rw [hd]; exact hg
  refine ⟨?_, hbg⟩
  unfold State.masterGone
  dsimp only
  rw [← hb, if_neg (fun h => h hbg)]
  cases b.selected d <;> rfl

/-- The selected master of a domain that runs has gone: the domain is lost, or another that was heard takes its place. -/
theorem masterGone_cases {d : Nat} {s b : State} (hg : (s.time.domain d).gm ≠ 0)
    (hb : b = s.modDomain d (fun y => { y with masters := y.masters.erase (s.time.domain d).gm, heard := y.heard.erase (s.time.domain d).gm })) :
    (b.selected d = none → s.masterGone d (s.time.domain d).gm = b.domainLost d) ∧
    (∀ g, b.selected d = some g → g ≠ (s.time.domain d).gm → s.masterGone d (s.time.domain d).gm = State.count 0x0C d 8 1 (b.modDomain d (fun y =>
      { y with gm := g, good := 0, bad := 0, pendingSync := none, syncFrom := s.time.upTicks }))) := by
  obtain ⟨hgone, hbg⟩ := masterGone_selected rfl hb
  have hticks : b.time.upTicks = s.time.upTicks := by rw [hb, upTicks_modDomain]
  refine ⟨fun hsel => by rw [hgone, hsel]; rfl, fun g hsel hne => ?_⟩
  rw [hgone, hsel]
  refine (selectMaster_of_ne (by rw [hbg]; exact hne.symm)).trans ?_
  rw [hbg, hticks]
  exact if_neg hg

/-- A master without a Sync for its time goes. -/
theorem syncTimeout_of_runs {d : Nat} {s : State} {x : Domain} (hx : s.time.domain d = x) (hd : d < 2) (hen : (s.domainCfg d).enable = true) (hg : x.gm ≠ 0) :
    s.syncTimeout d = if s.time.upTicks < x.syncFrom + (s.domainCfg d).syncTimeoutMs * 500000 then s else s.masterGone d x.gm := by
  unfold State.syncTimeout msTicks
  rw [hx]
  simp [hen, hg, Nat.not_le.2 hd]

/-- A master without an Announce for its time goes. -/
theorem announceTimeout_of_runs {d since limit : Nat} {s : State} {x : Domain} (hx : s.time.domain d = x) (hd : d < 2) (hen : (s.domainCfg d).enable = true)
    (hg : x.gm ≠ 0) (hheard : x.heard.get (0, 0) x.gm = (since, limit)) :
    s.announceTimeout d x.gm = if s.time.upTicks < since + limit then s else s.masterGone d x.gm := by
  unfold State.announceTimeout
  rw [hx, hheard]
  simp [hen, hg, Nat.not_le.2 hd]

/-! ### Pulses (R264, R265) -/

/-- Whether an edge comes too soon after the one before, in a state whose input takes it. -/
theorem tpiEdge_taken {i : Nat} {falling : Bool} {s : State} (hi : i < 2)
    (hedge : (s.lay.pulses.get {} i).tpiEdge = 3 ∨ (s.lay.pulses.get {} i).tpiEdge = (if falling then 2 else 1)) (hruns : s.timeRuns = true)
    (hsoon : s.time.tpiLast.get 0 i = 0 ∨ s.time.tpiLast.get 0 i + 50 ≤ s.time.upTicks + 1) :
    s.tpiEdge i falling = if 16 ≤ (s.time.tpi.get [] i).length then
        State.count 0x0E i 0 1 { s with time := { s.time with tpiLast := s.time.tpiLast.set 0 i (s.time.upTicks + 1) } }
      else { s with time := { s.time with
        tpiLast := s.time.tpiLast.set 0 i (s.time.upTicks + 1),
        tpi := s.time.tpi.set [] i (s.time.tpi.get [] i ++ [{ falling := falling, td0 := s.time.td0.ns, td1 := s.time.td1.ns, wall := s.wallNs }]) } } := by
  have htaken : (decide (i < 2) && (decide ((s.lay.pulses.get {} i).tpiEdge = 3) || decide ((s.lay.pulses.get {} i).tpiEdge = if falling then 2 else 1)) &&
      s.timeRuns) = true := by
    rw [hruns, decide_eq_true hi, Bool.and_true, Bool.true_and, Bool.or_eq_true]
    exact hedge.imp decide_eq_true decide_eq_true
  have hlate : (decide (s.time.tpiLast.get 0 i ≠ 0) && decide (s.time.upTicks + 1 < s.time.tpiLast.get 0 i + 50)) = false := by
    rw [Bool.and_eq_false_iff, decide_eq_false_iff_not, decide_eq_false_iff_not]
    omega
  unfold State.tpiEdge
  dsimp only
  rw [htaken, hlate]
  rfl

/-- A periodic pulse's edge that is due leaves. -/
theorem tpoEdge_periodic {n : Nat} {s : State} {c : PulseCfg} {p : TpoRt} (hn : n < 4) (hc : c = s.lay.pulses.get {} (2 + n)) (hp : p = s.time.tpo.get {} n)
    (hmode : c.mode = 2) (hdone : p.done = false) (hruns : s.timeRuns = true) :
    (p.level = false → c.start + p.next * c.period ≤ s.baseNs c.base → s.tpoEdge n = State.count 0x0F n 0 1
      { s with time := { s.time with tpo := s.time.tpo.set {} n { p with level := true } }, out := { s.out with pulses := (n, decide (c.pol ≠ 1)) :: s.out.pulses } }) ∧
    (p.level = true → c.start + p.next * c.period + c.width ≤ s.baseNs c.base → s.tpoEdge n =
      { s with time := { s.time with tpo := s.time.tpo.set {} n { next := p.next + 1 } }, out := { s.out with pulses := (n, decide (c.pol = 1)) :: s.out.pulses } }) := by
  have hpol : ∀ lead : Bool, (if c.pol = 1 then !lead else lead) = if lead then decide (c.pol ≠ 1) else decide (c.pol = 1) := by
    intro lead
    by_cases h : c.pol = 1 <;> cases lead <;> simp [h]
  have hbase : pulseBase c = c.base := if_neg (by omega)
  have htime : edgeTime s.lay.dev.wallRate c p.next = c.start + p.next * c.period := by
    unfold edgeTime
    rw [if_neg (by omega), if_pos hmode]
  have hguard : (decide (4 ≤ n) || decide (c.mode = 0) || p.done || !s.timeRuns) = false := by
    rw [hdone, hruns, decide_eq_false (by omega), decide_eq_false (by omega)]
    rfl
  have hstep : s.tpoEdge n = if p.level = false then
      (if s.baseNs c.base < c.start + p.next * c.period then s else State.count 0x0F n 0 1 { s with
        time := { s.time with tpo := s.time.tpo.set {} n { p with level := true } }
        out := { s.out with pulses := (n, if c.pol = 1 then !true else true) :: s.out.pulses } })
      else if s.baseNs c.base < c.start + p.next * c.period + c.width then s else { s with
        time := { s.time with tpo := s.time.tpo.set {} n { next := p.next + 1, level := false, done := decide (c.mode = 1) } }
        out := { s.out with pulses := (n, if c.pol = 1 then !false else false) :: s.out.pulses } } := by
    unfold State.tpoEdge State.tpoRt
    dsimp only
    rw [← hc, ← hp, hbase, htime, hguard]
    cases p.level <;> rfl
  rw [hstep]
  refine ⟨fun hlevel hnow => ?_, fun hlevel hnow => ?_⟩
  · rw [if_pos hlevel, if_neg (Nat.not_lt.2 hnow), hpol]
    rfl
  · rw [if_neg (by rw [hlevel]; exact Bool.noConfusion), if_neg (Nat.not_lt.2 hnow), hpol, hmode]
    rfl

/-! ### The obligation -/

/-- Settles O52: each row of network time and pulses from the lemma about its operation. -/
theorem networkTime : Obligations.NetworkTime := by
  intro dt d s a x at_ ha hx hruns hat
  obtain ⟨hd, hen, htime⟩ := runs_of_ptpRuns hruns
  have hsync : ∀ m, exec (.ptpSyncRx dt m) s = .next (a.syncRx m) := fun m => by rw [ha]; rfl
  have hfollow : ∀ m, exec (.followUpRx dt m) s = .next (a.followUpRx m) := fun m => by rw [ha]; rfl
  have hannounce : ∀ m, exec (.announceRx dt m) s = .next (a.announceRx m) := fun m => by rw [ha]; rfl
  have hresp : ∀ m, exec (.delayRespRx dt m) s = .next (a.delayRespRx m) := fun m => by rw [ha]; rfl
  have hreq : exec (.delayReqTx dt d) s = .next (a.delayReqTx d) := by rw [ha]; rfl
  have hmgmt : exec (.mgmtDiscard dt d) s = .next (a.mgmtDiscard d) := by rw [ha]; rfl
  have hsyncOut : exec (.syncTimeout dt d) s = .next (a.syncTimeout d) := by rw [ha]; rfl
  have hannOut : ∀ g, exec (.announceTimeout dt d g) s = .next (a.announceTimeout d g) := fun g => by rw [ha]; rfl
  have hhold : exec (.holdoverExpiry dt d) s = .next (a.holdoverExpiry d) := by rw [ha]; rfl
  have htpi : ∀ i f, exec (.tpiEdge dt i f) s = .next (a.tpiEdge i f) := fun i f => by rw [ha]; rfl
  have htpo : ∀ n, exec (.tpoPulse dt n) s = .next (a.tpoEdge n) := fun n => by rw [ha]; rfl
  refine ⟨by rw [← hx, hat]; exact stamp_near d a, fun m sy j b e o delay near hm he hcase hem hdelay ho hnear => ?_, fun m hm => ⟨fun hg => ?_, fun h0 hg h2 => ?_,
    fun b u g h0 hb hsel hu => ?_, fun q hq hqm => ?_⟩, fun hg => ?_, ?_, fun j since limit b hg hcase hb => ?_, ?_, fun i falling hi hedge hsoon => ?_,
    fun n c p now hn hc hp hmode hdone hnow => ?_⟩
  · have hforms : ∃ t, exec j s = .next t ∧ SampleFormed d sy o delay near x b t := by
      rcases hcase with ⟨rfl, h2, h0, hg, rfl, rfl⟩ | ⟨rfl, rfl, p, hp, hpm, hps, rfl⟩
      · subst hat
        exact ⟨_, (hsync m).trans (congrArg Host.Outcome.next (syncRx_of_domain hm)), syncAt_forms hx h2 h0 hg he hem hdelay ho hnear⟩
      · exact ⟨_, (hfollow m).trans (congrArg Host.Outcome.next (followUpRx_of_domain hm)), followUpAt_forms hx hp hpm hps he hem hdelay ho hnear⟩
    obtain ⟨t, hrow, y, g, rfl, hfields⟩ := hforms
    exact ⟨y, g, hrow, hfields⟩
  · exact (hsync m).trans (congrArg Host.Outcome.next ((syncRx_of_domain hm).trans (syncAt_of_other (by rw [hx]; exact hg))))
  · refine (hsync m).trans (congrArg Host.Outcome.next ((syncRx_of_domain hm).trans ((syncAt_of_selected h0 (by rw [hx]; exact hg)).trans ?_)))
    rw [hat, h2]
    rfl
  · refine (hannounce m).trans (congrArg Host.Outcome.next ((announceRx_of_domain hm h0).trans ((announceAt_selects hb hsel).trans ?_)))
    have hbg : (b.time.domain d).gm = x.gm := by
      rw [hb, domain_modDomain_same]
      exact (congrArg Domain.gm hx :)
    have hticks : b.time.upTicks = a.time.upTicks := by rw [hb, upTicks_modDomain]; rfl
    have hu' : b.selectMaster d g = u := by
      rw [hu]
      by_cases h : x.gm = g
      · rw [if_pos h]
        exact if_pos (hbg.trans h)
      · rw [if_neg h, selectMaster_of_ne (by rw [hbg]; exact h), hbg, hticks]
    rw [hu']
  · exact (hresp m).trans (congrArg Host.Outcome.next ((delayRespRx_of_domain hm).trans (delayRespAt_of_asked (by rw [hx]; exact hq) hqm)))
  · rw [hreq, hat, ← hx]
    exact congrArg Host.Outcome.next (if_neg (by rw [hruns]; simpa [hx] using hg))
  · exact hmgmt.trans (congrArg Host.Outcome.next (if_pos hruns))
  · have hgone := masterGone_cases (d := d) (s := a) (b := b) (by rw [hx]; exact hg) (by rw [hx]; exact hb)
    rw [hx] at hgone
    have hrow : exec j s = .next (if a.time.upTicks < since + limit then a else a.masterGone d x.gm) := by
      rcases hcase with ⟨rfl, rfl, rfl⟩ | ⟨rfl, hheard⟩
      · exact hsyncOut.trans (congrArg Host.Outcome.next (syncTimeout_of_runs hx hd hen hg))
      · exact (hannOut x.gm).trans (congrArg Host.Outcome.next (announceTimeout_of_runs hx hd hen hg hheard.symm))
    rw [hrow]
    refine ⟨fun hlt => by rw [if_pos hlt], fun hle => ?_⟩
    rw [if_neg (Nat.not_lt.2 hle)]
    exact ⟨fun hsel => congrArg Host.Outcome.next (hgone.1 hsel), fun g hsel hne => congrArg Host.Outcome.next (hgone.2 g hsel hne)⟩
  · refine hhold.trans (congrArg Host.Outcome.next ?_)
    unfold State.holdoverExpiry
    rw [hx]
    by_cases h : x.state = .holdover ∧ x.holdFrom + (a.domainCfg d).holdoverS * 500000000 ≤ a.time.upTicks
    · exact (if_pos ⟨hd, h⟩).trans (if_pos h).symm
    · exact (if_neg (fun h' => h h'.2)).trans (if_neg h).symm
  · rw [htpi, tpiEdge_taken hi hedge htime hsoon]
    exact ⟨fun hlt => congrArg Host.Outcome.next (if_neg (Nat.not_le.2 hlt)), fun hge => congrArg Host.Outcome.next (if_pos hge)⟩
  · rw [htpo]
    have hbase : now = a.baseNs c.base := hnow
    rw [hbase]
    obtain ⟨hlead, htrail⟩ := tpoEdge_periodic hn hc hp hmode hdone htime
    exact ⟨fun hl hle => congrArg Host.Outcome.next (hlead hl hle), fun hl hle => congrArg Host.Outcome.next (htrail hl hle)⟩

end Sys2Proof.Machine
end

section
/-! PROOF. Encoding and timed launch (O53). -/

namespace Sys2Proof.Machine

open Sys2Proof

/-! ### Rows (R241 to R248) -/

/-- What an engine's row begins from: the state before but for counts and for which rows the engines code. -/
structure RowBase (a b : State) : Prop where
  frame : EncFrame a b
  ctxs : ∀ k, b.encRt k = a.encRt k
  queues : b.enc.queues = a.enc.queues

/-- What engines code makes no difference to what a frame keeps. -/
theorem EncFrame.coding {s u v : State} (h : EncFrame s u) (g : CodingOnly u v) : EncFrame s v := by
  rw [g.eq]
  exact h

/-- The launch queues do not depend on what engines code. -/
theorem CodingOnly.queues {s u : State} (h : CodingOnly s u) : u.enc.queues = s.enc.queues := by rw [h.eq]

/-- The engines' turns are such a beginning. -/
theorem rowBase_encTurns (a : State) : RowBase a a.encTurns := by
  obtain ⟨h, -⟩ := encTurns_spec a
  exact ⟨EncFrame.coding (EncFrame.refl a) h, h.ctxs, h.queues⟩

/-- So is a count. -/
theorem rowBase_count (a : State) (b i x n : Nat) : RowBase a (a.count b i x n) := ⟨EncFrame.count a b i x n, fun _ => rfl, rfl⟩

/-- A picture misses nothing in the row in hand: it is the stream's first, or no region's row is late (R236). -/
def NothingMissed (r : EncRt) (p : EncPic) (a : State) : Prop :=
  p.idr = true ∨ ∀ y ∈ p.unread r.cfg p.row, a.encWindow (r.cfg.regions.getD y.1 {}).head y.2 p.start ≠ .late

/-- The windows of a context's reads do not depend on what engines code. -/
theorem encWindow_encTurns (a : State) (h row p : Nat) : a.encTurns.encWindow h row p = a.encWindow h row p := by
  rw [(encTurns_spec a).1.eq]
  rfl

/-- A row that an engine has coded is judged, and then engines take their next rows. -/
theorem rowComplete_eq {c : Nat} {o : RowObs} {a : State} {r : EncRt} {p : EncPic} (hw : a.writersRun = true) (hr : a.encRt c = r) (hp : r.pic = some p)
    (hmiss : NothingMissed r p a) {g : Nat} (heng : r.engine = some g) (hon : a.codingOn g = some c) :
    a.rowComplete c o = ((a.encTurns.rowCoded c o).encFree c).encTurns := by
  have hrt : a.encTurns.encRt c = r := ((rowBase_encTurns a).ctxs c).trans hr
  have hmissed : a.encTurns.encMissed c = a.encTurns :=
    encMissed_none c a.encTurns r p hrt hp (hmiss.imp id (fun h y hy => by rw [encWindow_encTurns]; exact h y hy))
  unfold State.rowComplete
  rw [if_neg (by simp [hw])]
  dsimp only
  rw [if_pos (by rw [hrt, heng]; simp [(encTurns_spec a).2 g c hon]), hmissed]

/-- A row in normal coding that leaves too little is discarded. -/
theorem rowCoded_discards {c : Nat} {o : RowObs} {b : State} {r : EncRt} {p : EncPic} (hr : b.encRt c = r) (hp : r.pic = some p)
    (hskip : p.skipAll = false) (hidr : p.idr = false) (hbig : p.budget < p.spent + rowSize r p o false + skipSize r.cfg * (encRows r.cfg - 1 - p.row)) :
    b.rowCoded c o = (fun u : State => if p.floor then u else u.count 0x0B c 1 1) (b.modEnc c (fun _ => { r with pic := some { p with floor := true, skipAll := true } })) := by
  have hrows : p.rows r.cfg = encRows r.cfg := if_neg (by rw [hidr]; exact Bool.false_ne_true)
  unfold State.rowCoded leavesTooLittle
  dsimp only
  rw [hr, hp]
  dsimp only
  rw [if_neg (by rw [hskip]; exact Bool.false_ne_true), hrows, if_pos (by simp [hbig, hidr]),
    modEnc_congr c _ (fun _ => { r with pic := some { p with floor := true, skipAll := true } }) b (by rw [hr])]

/-- Any other row is accepted. -/
theorem rowCoded_accepts {c : Nat} {o : RowObs} {b : State} {r : EncRt} {p : EncPic} (hr : b.encRt c = r) (hp : r.pic = some p)
    (hfits : p.skipAll = true ∨ p.idr = true ∨ p.spent + rowSize r p o false + skipSize r.cfg * (encRows r.cfg - 1 - p.row) ≤ p.budget) :
    b.rowCoded c o = b.acceptRow c o p.skipAll := by
  unfold State.rowCoded leavesTooLittle
  dsimp only
  rw [hr, hp]
  dsimp only
  by_cases hs : p.skipAll = true
  · rw [if_pos hs, hs]
  · rw [if_neg hs, Bool.eq_false_iff.2 hs]
    refine if_neg ?_
    rw [Bool.and_eq_true, decide_eq_true_eq, Bool.not_eq_true']
    rintro ⟨hbig, hidr⟩
    have hrows : p.rows r.cfg = encRows r.cfg := if_neg (by rw [hidr]; exact Bool.false_ne_true)
    rw [hrows] at hbig
    rcases hfits with h | h | h
    · exact hs h
    · rw [hidr] at h
      cases h
    · omega

/-- A late row is counted and taken as a skip row. -/
theorem encRowLate_eq {c : Nat} {o : RowObs} {a : State} {r : EncRt} {p : EncPic} (hw : a.writersRun = true) (hr : a.encRt c = r) (hp : r.pic = some p)
    (hmiss : NothingMissed r p a) (hidr : p.idr = false) :
    a.encRowLate c o = (((a.count 0x0B c 3 1).acceptRow c o true).encFree c).encTurns := by
  have hmissed : (a.count 0x0B c 3 1).encMissed c = a.count 0x0B c 3 1 := encMissed_none c _ r p hr hp hmiss
  unfold State.encRowLate
  rw [hr, hp]
  dsimp only
  rw [if_neg (by simp [hw, hidr]), hmissed]

/-- The picture after a row has been accepted. -/
def EncPic.withRow (r : EncRt) (p : EncPic) (o : RowObs) (skip low : Bool) (fill : Nat) : EncPic :=
  { p.takeRow r.cfg p.row with
    row := p.row + 1
    spent := p.spent + rowSize r p o skip + fill
    floor := p.floor || low
    skipped := (if skip then p.skipped ++ [p.row] else p.skipped)
    sizes := p.sizes ++ [(rowSize r p o skip, rowQp r.cfg p o)]
    bytes := p.bytes ++ ((headNals r p o ++ sliceNals r.cfg p o skip ++ (if fill = 0 then [] else [fillerNal r.cfg fill])).map startCoded).flatten
    modes := p.modes ++ [rowModes r p o skip] }

/-- What holds of state `u` after a row that is not its picture's last has been accepted in state `a`. -/
def RowTaken (c : Nat) (r : EncRt) (p : EncPic) (o : RowObs) (skip : Bool) (fill n : Nat) (ns : List (List Byte)) (a u : State) : Prop :=
  ∃ (q : EncPic) (low : Bool),
    u.encRt c = { r with pic := some q, restart := r.restart || o.refError, signalled := sentParams r p, rtpSeq := (u.encRt c).rtpSeq } ∧
    (r.rtpSeq < 65536 → (u.encRt c).rtpSeq = (r.rtpSeq + n) % 65536) ∧ q = p.withRow r o skip low fill ∧
    (low = true ↔ p.floor = false ∧ p.skipAll = false ∧ skip = false ∧ p.budget < p.spent + rowSize r p o skip + fill + floorSum r.cfg r.prevRows (p.row + 1)) ∧
    (∀ k, k ≠ c → u.encRt k = a.encRt k) ∧ EncFrame a u ∧
    (∀ y, y < n → (a.enc.queues.get [] r.cfg.mac).length + 2 * n ≤ 4096 →
      ∃ x ∈ (u.enc.queues.get [] r.cfg.mac : List LaunchEntry), x.ctx = c ∧ x.second = false ∧ x.at_ = launchAt r.cfg p p.row y n ∧ x.payload = ns.getD y [] ∧
        x.rtpTs = a.rtpStamp p ∧ x.marker = false ∧ x.queuedAt = a.wallNs)

/-- What holds of state `u` after the last row of a picture has been accepted in state `a`. -/
def PictureSealed (c : Nat) (r : EncRt) (p : EncPic) (o : RowObs) (skip : Bool) (fill : Nat) (a u : State) : Prop :=
  ∃ x : Seal, (u.encRt c).state = .running ∧ (u.encRt c).pic = none ∧ (u.encRt c).picCount = r.picCount + 1 ∧ (u.encRt c).seals = (x :: r.seals).take 8 ∧
    (u.encRt c).nextSeq = some ((x.seq + 1) % 4294967296) ∧
    x.source = 1024 + c ∧ x.seq = r.nextSeq.getD (a.raster.frame % 4294967296) ∧ x.capture = p.minCapture.getD p.startNs ∧ x.arrival = p.startNs ∧
    x.sealTime = a.wallNs ∧ x.width = r.cfg.width ∧ x.height = r.cfg.height ∧
    x.payloadCrc = foldCrc 0 x.seq (1024 + c)
      (p.bytes ++ ((headNals r p o ++ sliceNals r.cfg p o skip ++ (if fill = 0 then [] else [fillerNal r.cfg fill])).map startCoded).flatten) ∧
    (∀ k, k ≠ c → u.encRt k = a.encRt k) ∧ EncFrame a u

/-- A row that is accepted: what its state is, and its picture's seal with the last. -/
theorem acceptRow_takes {c n fill : Nat} {o : RowObs} {skip : Bool} {a b u : State} {r : EncRt} {p : EncPic} {ns : List (List Byte)} (hb : RowBase a b)
    (hr : a.encRt c = r) (hp : r.pic = some p) (hfill : fill = fillerSize r.cfg p (rowSize r p o skip))
    (hns : ns = headPackets r.cfg (headNals r p o) ++
      (sliceNals r.cfg p o skip ++ (if fill = 0 then [] else [fillerNal r.cfg fill])).flatMap (nalPackets r.cfg)) (hn : n = ns.length)
    (hu : CodingOnly (b.acceptRow c o skip) u) :
    (p.row + 1 ≠ p.rows r.cfg → RowTaken c r p o skip fill n ns a u) ∧
    (p.row + 1 = p.rows r.cfg → (a.lay.encoders.get {} c).enable = true → PictureSealed c r p o skip fill a u) := by
  obtain ⟨w, q, low, hframe, haccept, hrt, hseq, hq, hlow, hother, hqueued⟩ :=
    acceptRow_spec c o skip b r p ((hb.ctxs c).trans hr) hp fill n ns hfill hns hn
  have haw : EncFrame a w := hb.frame.trans hframe
  refine ⟨fun hrow => ?_, fun hrow hen => ?_⟩
  · rw [haccept, if_neg (by simpa using hrow)] at hu
    refine ⟨q, low, by rw [hu.ctxs]; exact hrt, by rw [hu.ctxs]; exact hseq, hq, hlow hrow,
      fun k hk => (hu.ctxs k).trans ((hother k hk).trans (hb.ctxs k)), haw.coding hu, fun y hy hroom => ?_⟩
    rw [hu.queues]
    obtain ⟨x, hx, hctx, hsecond, hat, hpay, hts, hmark, hqueuedAt⟩ := hqueued hrow y hy (by rw [hb.queues]; exact hroom)
    exact ⟨x, hx, hctx, hsecond, hat, hpay, hts.trans (hb.frame.rtpStamp p), hmark, hqueuedAt.trans hb.frame.wallNs⟩
  · rw [haccept, if_pos (by simpa using hrow)] at hu
    have hlay : w.lay = a.lay := (congrArg State.lay haw :)
    have hraster : w.raster = a.raster := (congrArg State.raster haw :)
    have hwall : w.wallNs = a.wallNs := haw.wallNs
    obtain ⟨z, hz, -, hsource, hzseq, hcapture, harrival, htime, hwidth, hheight, hcrc, hothers, hzframe⟩ :=
      encSeal_spec c w _ q hrt rfl (by rw [hlay]; exact hen)
    subst hq
    rw [hraster] at hzseq
    rw [hwall] at htime
    refine ⟨z, by rw [hu.ctxs, hz], by rw [hu.ctxs, hz], by rw [hu.ctxs, hz], by rw [hu.ctxs, hz], by rw [hu.ctxs, hz], hsource, hzseq, hcapture, harrival, htime, hwidth,
      hheight, hcrc, fun k hk => ?_, (haw.trans hzframe).coding hu⟩
    exact (hu.ctxs k).trans ((hothers k hk).trans ((hother k hk).trans (hb.ctxs k)))

/-- What the engines code after a row is free again, and nothing else moves. -/
theorem codingOnly_freed (c : Nat) (v : State) : CodingOnly v (v.encFree c).encTurns := (encFree_spec c v).trans (encTurns_spec _).1

/-- The discard of a row, seen from the state before the engines' turns. -/
theorem codingOnly_discard (c : Nat) (a : State) (r : EncRt) (floor : Bool) :
    CodingOnly ((fun u : State => if floor then u else u.count 0x0B c 1 1) (a.modEnc c (fun _ => r)))
      (((fun u : State => if floor then u else u.count 0x0B c 1 1) (a.encTurns.modEnc c (fun _ => r))).encFree c).encTurns := by
  refine CodingOnly.trans ?_ (codingOnly_freed c _)
  rw [(encTurns_spec a).1.eq]
  cases floor <;> rfl

/-! ### Tile rows (R236, R237) -/

/-- A tile row that was read before, or whose bind is still to come, is left. -/
theorem encRead_leaves {c i row : Nat} (readOk : Bool) {a : State} {r : EncRt} {p : EncPic} (hr : a.encRt c = r) (hp : r.pic = some p)
    (h : (i, row) ∈ p.tilesRead ∨ a.encWindow (r.cfg.regions.getD i {}).head row p.start = .early) : a.encRead c i row readOk = a := by
  unfold State.encRead
  dsimp only
  rw [hr, hp]
  dsimp only
  refine if_pos ?_
  rw [Bool.or_eq_true, Bool.or_eq_true, decide_eq_true_eq, List.any_eq_true]
  exact h.imp (fun hmem => .inr ⟨_, hmem, decide_eq_true rfl⟩) id

/-- A tile row is taken into the picture once. -/
theorem encRead_takes {c i row : Nat} {readOk : Bool} {a : State} {r : EncRt} {p : EncPic} (hw : a.writersRun = true) (hr : a.encRt c = r) (hp : r.pic = some p)
    (hidr : p.idr = false) (hrow : regionHasRow (r.cfg.regions.getD i {}) row = true) (hnew : (i, row) ∉ p.tilesRead)
    (hopen : a.encWindow (r.cfg.regions.getD i {}).head row p.start ≠ .early) :
    a.encRead c i row readOk = a.encTake c i row (readOk && a.encReadable (r.cfg.regions.getD i {}).head row p.start) := by
  have hany : p.tilesRead.any (fun e => decide (e = (i, row))) = false := by
    rw [List.any_eq_false]
    intro e he heq
    exact hnew (of_decide_eq_true heq ▸ he)
  unfold State.encRead
  dsimp only
  rw [hr, hp]
  dsimp only
  rw [hw, hidr, hrow, hany, decide_eq_false hopen]
  exact if_neg Bool.false_ne_true

/-! ### Launch (R249) -/

section Launch

variable {m : Nat} {a : State} {e : LaunchEntry} {t : List LaunchEntry}

/-- A packet whose time has come is dropped when the link is down. -/
theorem launch_drops (hq : a.enc.queues.get [] m = e :: t) (hsafe : a.dev ≠ .safe) (hdue : e.at_ ≤ a.wallNs) (hdown : m ∉ a.ing.macUp) :
    a.launch m = State.count 0x0B e.ctx 10 1 (a.setQueue m t) := by
  unfold State.launch
  rw [hq]
  dsimp only
  rw [if_neg (by simp [hsafe, hdue]), if_pos (by simpa using mt hasNat_iff.1 hdown)]

/-- A packet launches when its time has come and its MAC is free. -/
theorem launch_sends (hq : a.enc.queues.get [] m = e :: t) (hsafe : a.dev ≠ .safe) (hdue : e.at_ ≤ a.wallNs) (hup : m ∈ a.ing.macUp)
    (hfree : a.wireUntil m ≤ a.wallNs) {b : State} (hb : b = State.count 0x0B e.ctx 6 1
      { a.setQueue m t with
        enc := { (a.setQueue m t).enc with wireUntil := a.enc.wireUntil.set 0 m (a.wallNs + wireNs a.lay m e.len) }
        out := { a.out with launches := (m, e) :: a.out.launches } }) :
    a.launch m = if e.at_ < e.queuedAt then b.count 0x0B e.ctx 8 1 else b := by
  unfold State.launch
  rw [hq]
  dsimp only
  rw [if_neg (by simp [hsafe, hdue]), if_neg (by rw [hasNat_iff.2 hup]; exact Bool.false_ne_true), if_neg (Nat.not_lt.2 hfree), hb]
  rfl

/-- A packet whose time has come while its MAC still sends slips to the end of that. -/
theorem launchSlip_slips (hq : a.enc.queues.get [] m = e :: t) (hsafe : a.dev ≠ .safe) (hdue : e.at_ ≤ a.wallNs) (hup : m ∈ a.ing.macUp)
    (hbusy : a.wallNs < a.wireUntil m) :
    a.launchSlip m = State.count 0x0B e.ctx 7 1 (a.setQueue m ({ e with at_ := a.wireUntil m } :: t)) := by
  unfold State.launchSlip
  rw [hq]
  dsimp only
  exact if_neg (by simp [hsafe, hdue, hbusy, hasNat_iff.2 hup])

end Launch

/-! ### The obligation -/

/-- Settles O53: rows by way of `acceptRow_takes`, the other rows each from the lemma about its operation. -/
theorem encodingRows : Obligations.EncodingRows := by
  intro dt c m i row o r p e t s a ha
  have hcomplete : exec (.encodeRowComplete dt c o) s = .next (a.rowComplete c o) := by rw [ha]; rfl
  have hlate : exec (.rowLate dt c o) s = .next (a.encRowLate c o) := by rw [ha]; rfl
  have hread : ∀ k, exec (.encTileRowRead dt c i row k) s = .next (a.encRead c i row k) := fun k => by rw [ha]; rfl
  have hlaunch : exec (.packetLaunch dt m) s = .next (a.launch m) := by rw [ha]; rfl
  have hslip : exec (.launchSlip dt m) s = .next (a.launchSlip m) := by rw [ha]; rfl
  refine ⟨fun hw hr hp => ⟨fun hmiss => ⟨fun g heng hon hskip hidr hbig => ?_, fun j skip fill n ns hcase hfill hns hn => ?_⟩,
    fun readOk w hidr hrow hwin => ⟨fun hleave => ?_, fun hnew hopen => ?_⟩⟩,
    fun hq hsafe hdue => ⟨fun hdown => ?_, fun hup hfree b hb => ?_, fun hup hbusy => ?_⟩⟩
  · refine ⟨_, hcomplete, ?_⟩
    rw [rowComplete_eq hw hr hp hmiss heng hon, rowCoded_discards ((rowBase_encTurns a).ctxs c |>.trans hr) hp hskip hidr hbig]
    have hcoding := codingOnly_discard c a { r with pic := some { p with floor := true, skipAll := true } } p.floor
    cases hfloor : p.floor <;> rw [hfloor] at hcoding <;> exact hcoding
  · have hstart : ∃ b u, RowBase a b ∧ exec j s = .next u ∧ CodingOnly (b.acceptRow c o skip) u := by
      rcases hcase with ⟨rfl, rfl, ⟨g, heng, hon⟩, hfits⟩ | ⟨rfl, rfl, hidr⟩
      · have hcoded := rowCoded_accepts (o := o) ((rowBase_encTurns a).ctxs c |>.trans hr) hp hfits
        rw [hcomplete, rowComplete_eq hw hr hp hmiss heng hon, hcoded]
        exact ⟨_, _, rowBase_encTurns a, rfl, codingOnly_freed c _⟩
      · rw [hlate, encRowLate_eq hw hr hp hmiss hidr]
        exact ⟨_, _, rowBase_count a 0x0B c 3 1, rfl, codingOnly_freed c _⟩
    obtain ⟨b, u, hb, hrow, hu⟩ := hstart
    obtain ⟨htaken, hsealed⟩ := acceptRow_takes hb hr hp hfill hns hn hu
    refine ⟨fun hrows => ?_, fun hrows hen => ?_⟩
    · obtain ⟨q, low, hall⟩ := htaken hrows
      exact ⟨u, q, low, hrow, hall⟩
    · obtain ⟨x, hall⟩ := hsealed hrows hen
      exact ⟨u, x, hrow, hall⟩
  · rw [hwin] at hleave
    exact (hread readOk).trans (congrArg Host.Outcome.next (encRead_leaves readOk hr hp hleave))
  · rw [hwin] at hopen
    obtain ⟨q, htiles, hq, -, htake⟩ := encTake_spec c a r p hr hp i row (readOk && a.encReadable (r.cfg.regions.getD i {}).head row p.start)
    refine ⟨q, htiles, hq, (hread readOk).trans (congrArg Host.Outcome.next ((encRead_takes hw hr hp hidr hrow hnew hopen).trans (htake.trans ?_)))⟩
    simp only [Bool.and_eq_true]
  · exact hlaunch.trans (congrArg Host.Outcome.next (launch_drops hq hsafe hdue hdown))
  · exact hlaunch.trans (congrArg Host.Outcome.next (launch_sends hq hsafe hdue hup hfree hb))
  · exact hslip.trans (congrArg Host.Outcome.next (launchSlip_slips hq hsafe hdue hup hbusy))

end Sys2Proof.Machine
end

section
/-! PROOF. Sheave: refresh, temperature polls, scrubbing, promotion and regulators (O54). -/

namespace Sys2Proof.Machine

open Sys2Proof

/-- A refresh counts at all 32 channels, and the interval asked for holds. -/
theorem refreshAll_of_trained {s : State} (h : s.mem.trained = true) : s.refreshAll.mem.fast = s.mem.high ∧
    (∀ c, c < 32 → s.refreshAll.mem.chans.get {} c = { (s.mem.chans.get {} c) with refreshes := (s.mem.chans.get {} c).refreshes + 1 }) ∧
    (∀ c, 32 ≤ c → s.refreshAll.mem.chans.get {} c = s.mem.chans.get {} c) ∧
    { s.refreshAll with mem := { s.refreshAll.mem with chans := s.mem.chans, fast := s.mem.fast } } = s := by
  obtain ⟨w, hw⟩ : ∃ w, w = (List.range 32).foldl (fun s c => s.modChan c (fun x => { x with refreshes := x.refreshes + 1 })) s := ⟨_, rfl⟩
  have hstep : s.refreshAll = { w with mem := { w.mem with fast := w.mem.high } } := by
    rw [hw]
    exact if_neg (by simp [h])
  obtain ⟨hchans, hframe⟩ := refreshAll_chans 32 s w hw
  have hhigh : w.mem.high = s.mem.high := (congrArg (fun x : State => x.mem.high) hframe :)
  rw [hstep]
  refine ⟨hhigh, fun c hc => (hchans c).trans (if_pos hc), fun c hc => (hchans c).trans (if_neg (Nat.not_lt.2 hc)), ?_⟩
  exact (congrArg (fun x : State => { x with mem := { x.mem with fast := s.mem.fast } }) hframe :)

/-- A poll of the refresh rates asks for an interval, and fires source 73 for each device above twice the base. -/
theorem mr4_of_trained {rates : List Nat} {s b : State} {now since : Nat} (h : s.mem.trained = true) (hnow : now = s.time.upTicks)
    (hsince : since = s.mem.baseSince.getD now)
    (hb : b = { s with mem := { s.mem with
      high := decide (∃ r ∈ rates, 2 ≤ r) || (s.mem.high && decide (now < since + 500000000))
      baseSince := if ∃ r ∈ rates, 2 ≤ r then none else some since } }) :
    s.mr4 rates = (rates.filter (fun r => decide (2 < r))).foldl (fun (u : State) _ => u.fireSrc 73 0xFFFF 0xFFFF) b := by
  subst hnow hsince hb
  refine (if_neg (by simp [h])).trans (congrArg (List.foldl _ · _) ?_)
  by_cases hfast : ∃ r ∈ rates, 2 ≤ r
  · rw [if_pos (by simpa using hfast), if_pos hfast, decide_eq_true hfast]
    rfl
  · rw [if_neg (by simpa using hfast), if_neg hfast, decide_eq_false hfast]
    rfl

/-- A scrub moves on by a block, and counts and reports what it found. -/
theorem scrub_of_trained {c : Nat} {s b : State} (h : s.mem.trained = true) (hc : c < 32)
    (hb : b = s.modChan c (fun x => { x with scrubNext := (x.scrubNext + 1) % 32505856 })) :
    s.scrub c .clean = b ∧ s.scrub c .corrected = State.fireSrc 68 (50 + c) 0xFFFF (b.count 0x11 c 1 1) ∧
    s.scrub c .uncorrectable = State.fireSrc 69 (50 + c) 0xFFFF (b.count 0x11 c 2 1) := by
  subst hb
  have hguard : ¬ (!s.mem.trained || decide (32 ≤ c)) = true := by
    rw [h, decide_eq_false (Nat.not_le.2 hc)]
    decide
  exact ⟨if_neg hguard, if_neg hguard, if_neg hguard⟩

/-- Before training, refresh, polls and scrubs do nothing. -/
theorem untrained_rows {s : State} (h : s.mem.trained = false) (c : Nat) (rates : List Nat) (read : ScrubRead) :
    s.refreshAll = s ∧ s.mr4 rates = s ∧ s.scrub c read = s :=
  ⟨if_pos (by rw [h]; rfl), if_pos (by rw [h]; rfl), if_pos (by rw [h]; rfl)⟩

/-- A request without a bucket is not held. -/
theorem regulate_of_free {port size : Nat} {item : ReqItem} {s : State}
    (h : (s.reqClass port item ≠ 1 ∧ s.reqClass port item ≠ 2) ∨ ∃ k, item = .fetch k ∧ (s.headRt k).urgent ≠ []) : s.regulate port item size = s := by
  refine if_pos ?_
  rcases h with h | ⟨k, rfl, hk⟩
  · simp [h]
  · have hpass : s.passesBucket (.fetch k) = true := by simpa [State.passesBucket] using hk
    rw [hpass, Bool.or_true]

/-- A request that has a bucket. -/
theorem passesBucket_eq_false {item : ReqItem} {s : State} (h : ∀ k, item = .fetch k → (s.headRt k).urgent = []) : s.passesBucket item = false := by
  cases item with
  | fetch k => simpa [State.passesBucket] using h k rfl
  | _ => rfl

/-- A bucket once a request of `n` bytes has waited at it: what is held, and what the request draws when it proceeds. -/
def drawnBucket (n rate tokens now : Nat) (held : List Nat) : Bucket :=
  if rate = 0 then { tokens := tokens, stamp := now, held := removeOne n held }
  else if 500 * n ≤ tokens then { tokens := tokens - 500 * n, stamp := now, held := removeOne n held }
  else { tokens := tokens, stamp := now, held := held }

/-- A request at a regulated port. -/
theorem regulate_of_bucket {port size cls n rate burst tokens : Nat} {item : ReqItem} {b : Bucket} {held : List Nat} {s : State}
    (hcls : cls = s.reqClass port item) (hport : port < 24) (hreg : cls = 1 ∨ cls = 2) (hfetch : ∀ k, item = .fetch k → (s.headRt k).urgent = [])
    (hn : n = (size + 63) / 64 * 64) (hcfg : s.bucketCfg port cls = (rate, burst)) (hb : b = s.mem.buckets.get {} (4 * port + cls))
    (htokens : tokens = min (500 * burst) (b.tokens + rate * (s.time.upTicks - b.stamp))) (hheld : held = if n ∈ b.held then b.held else b.held ++ [n]) :
    s.regulate port item size = (fun u : State => { u with mem := { u.mem with
        buckets := u.mem.buckets.set {} (4 * port + cls) (drawnBucket n rate tokens s.time.upTicks held) } })
      (if n ∈ b.held ∨ rate = 0 then s else s.count 0x12 port cls 1) := by
  have hguard : (decide (24 ≤ port) || (decide (cls ≠ 1) && decide (cls ≠ 2)) || s.passesBucket item) = false := by
    rw [passesBucket_eq_false hfetch, decide_eq_false (Nat.not_le.2 hport)]
    rcases hreg with rfl | rfl <;> rfl
  have hround : roundUp 64 size = n := hn.symm
  unfold State.regulate bucketKey
  dsimp only
  rw [← hcls, hguard, hround, hcfg, ← hb]
  unfold Bucket.refill
  dsimp only
  rw [← htokens]
  refine (if_neg Bool.false_ne_true).trans ?_
  have hcount : (if (!hasNat n b.held && decide (rate ≠ 0)) = true then s.count 0x12 port cls 1 else s) =
      if n ∈ b.held ∨ rate = 0 then s else s.count 0x12 port cls 1 := by
    rw [hasNat_eq_decide]
    by_cases hin : n ∈ b.held <;> by_cases hrate : rate = 0 <;> simp [hin, hrate]
  have hwaits : (if (!hasNat n b.held) = true then ({ tokens := tokens, stamp := s.time.upTicks, held := b.held ++ [n] } : Bucket)
      else { tokens := tokens, stamp := s.time.upTicks, held := b.held }) = { tokens := tokens, stamp := s.time.upTicks, held := held } := by
    rw [hasNat_eq_decide, hheld]
    by_cases hin : n ∈ b.held <;> simp [hin]
  rw [hcount, hwaits]
  rfl

/-- Settles O54: Sheave's rows, each from the lemma about its operation. -/
theorem memoryRows : Obligations.MemoryRows := by
  intro dt s a ha
  have hrefresh : exec (.refresh dt) s = .next a.refreshAll := by rw [ha]; rfl
  have hmr4 : ∀ rates, exec (.mr4Poll dt rates) s = .next (a.mr4 rates) := fun rates => by rw [ha]; rfl
  have hscrub : ∀ c read, exec (.scrub dt c read) s = .next (a.scrub c read) := fun c read => by rw [ha]; rfl
  have hpromote : ∀ c, exec (.class2Promotion dt c) s = .next (a.promote c) := fun c => by rw [ha]; rfl
  have hregulate : ∀ port item size, exec (.regulatorRelease dt port item size) s = .next (a.regulate port item size) := fun port item size => by rw [ha]; rfl
  refine ⟨fun htr => ⟨⟨_, hrefresh, refreshAll_of_trained htr⟩, fun rates b now since hnow hsince hb => ?_, fun c b hc hb => ?_⟩,
    fun htr i c rates read hi => ?_, fun c hc => ?_,
    fun port size cls item hcls => ⟨fun hfree => ?_, fun n rate burst tokens b held hport hreg hfetch hn hcfg hb htokens hheld => ?_⟩⟩
  · exact (hmr4 rates).trans (congrArg Host.Outcome.next (mr4_of_trained htr hnow hsince hb))
  · obtain ⟨hclean, hcorrected, hbad⟩ := scrub_of_trained htr hc hb
    exact ⟨(hscrub c _).trans (congrArg Host.Outcome.next hclean), (hscrub c _).trans (congrArg Host.Outcome.next hcorrected),
      (hscrub c _).trans (congrArg Host.Outcome.next hbad)⟩
  · obtain ⟨h1, h2, h3⟩ := untrained_rows htr c rates read
    rcases hi with rfl | rfl | rfl
    · exact hrefresh.trans (congrArg Host.Outcome.next h1)
    · exact (hmr4 rates).trans (congrArg Host.Outcome.next h2)
    · exact (hscrub c read).trans (congrArg Host.Outcome.next h3)
  · exact (hpromote c).trans (congrArg Host.Outcome.next (if_pos hc))
  · rw [hcls] at hfree
    exact (hregulate port item size).trans (congrArg Host.Outcome.next (regulate_of_free hfree))
  · exact (hregulate port item size).trans (congrArg Host.Outcome.next
      (regulate_of_bucket hcls hport hreg hfetch hn hcfg.symm hb htokens hheld))

end Sys2Proof.Machine
end

section
/-! PROOF. Firings: count, capture and reactions; fences, SAFE and the collector (O56). -/

namespace Sys2Proof.Machine

open Sys2Proof

/-! ### What a firing records (R404, R407, R408) -/

/-- What a firing leaves before its reactions. -/
def State.recorded (f : FaultInfo) (a : State) : State := (a.countEcc f).faultRecord f

/-- The mask of a firing: the one in force, with the fence bit at an escalation (R405). -/
def State.firingMask (n : Nat) (a : State) : Nat :=
  ((a.faultSrc n).mask.getD (srcInfo n).dflt) ||| (if (srcInfo n).escalates = true ∧ 2 ≤ recentCount n a.wallNs 60000000000 a.flt.recent then 4 else 0)

/-- The count of ECC errors touches counters alone, and only for sources 68 and 69 of a channel. -/
theorem countEcc_eq (f : FaultInfo) (a : State) :
    ∃ c, a.countEcc f = { a with counters := c } ∧ ((f.source = 68 ∨ f.source = 69) ∧ 50 ≤ f.unit ∧ f.unit ≤ 81 ∨ c = a.counters) := by
  unfold State.countEcc
  by_cases h : ((f.source = 68 || f.source = 69) && inRange 50 81 f.unit) = true
  · rw [if_pos h]
    refine ⟨_, rfl, .inl ?_⟩
    simpa [inRange] using h
  · rw [if_neg h]
    exact ⟨a.counters, rfl, .inr rfl⟩

/-- A firing is recorded, and then has its reactions. -/
theorem fire_countEcc {f : FaultInfo} (a : State) (h : f.source < 205) : (a.countEcc f).fire f = (a.recorded f).faultReact f (a.firingMask f.source) := by
  obtain ⟨c, hc, -⟩ := countEcc_eq f a
  unfold State.fire State.recorded
  rw [if_neg (Nat.not_le.2 h), hc]
  unfold State.firingMask State.faultMask State.escalated
  simp only [Bool.and_eq_true, decide_eq_true_eq]
  rfl

/-! ### The rows (R404, R411, R412, R415) -/

/-- A detection by row `i` of the source of `f`, while the collector runs. -/
def Detects (dt p : Nat) (i : Instr) (f : FaultInfo) (a : State) : Prop :=
  (i = .faultSourceFire dt f) ∨ (i = .bowlineWdog dt ∧ f = { source := 191 }) ∨ (i = .bowlineLockstep dt ∧ f = { source := 190 }) ∨
    (i = .processorWdogExpiry dt p ∧ f = { source := 180 + p } ∧ p < 10 ∧ 9 ≤ a.boot.step ∧ p ∉ a.flt.restarting ∧
      ∀ t, a.flt.kicks.find? p = some t → t + 25000000 ≤ a.time.upTicks)

/-- A watchdog that has not been written for its time fires its source. -/
theorem wdogExpiry_of_due {p : Nat} {a : State} (hp : decide (p < 10) = true) (hstep : decide (9 ≤ a.boot.step) = true) (hrestart : p ∉ a.flt.restarting)
    (hkick : ∀ t, a.flt.kicks.find? p = some t → t + 25000000 ≤ a.time.upTicks) : a.wdogExpiry p = a.fireSrc (180 + p) 0xFFFF 0xFFFF := by
  unfold State.wdogExpiry State.procReleased wdogTicks
  rw [hp, hstep, hasNat_eq_decide, decide_eq_false hrestart]
  cases hfind : a.flt.kicks.find? p with
  | none => rfl
  | some t =>
    dsimp only
    rw [decide_eq_true (hkick t hfind)]
    rfl

/-- A watchdog that is not due fires nothing. -/
theorem wdogExpiry_of_idle {p : Nat} {a : State} (h : 10 ≤ p ∨ a.boot.step < 9 ∨ p ∈ a.flt.restarting ∨
    ∃ t, a.flt.kicks.find? p = some t ∧ a.time.upTicks < t + 25000000) : a.wdogExpiry p = a := by
  unfold State.wdogExpiry State.procReleased wdogTicks
  refine if_neg ?_
  rw [Bool.and_eq_true, Bool.and_eq_true, Bool.and_eq_true, decide_eq_true_eq, decide_eq_true_eq]
  rintro ⟨⟨⟨hp, hstep⟩, hdue⟩, hrestart⟩
  rcases h with h | h | h | ⟨t, hfind, h⟩
  · omega
  · omega
  · rw [hasNat_iff.2 h] at hrestart
    cases hrestart
  · rw [hfind] at hdue
    have hle := of_decide_eq_true hdue
    omega

/-- A detection while the collector runs fires the source. -/
theorem exec_detects {dt p : Nat} {i : Instr} {f : FaultInfo} {s a : State} (ha : a = s.advance dt) (hruns : 6 ≤ a.boot.step) (hsrc : f.source < 205)
    (hi : Detects dt p i f a) : exec i s = .next ((a.recorded f).faultReact f (a.firingMask f.source)) := by
  have hcollector : a.collectorRuns = true := decide_eq_true hruns
  rw [← fire_countEcc a hsrc]
  rcases hi with rfl | ⟨rfl, rfl⟩ | ⟨rfl, rfl⟩ | ⟨rfl, rfl, hp, hstep, hrestart, hkick⟩
  · rw [ha] at hcollector ⊢
    exact congrArg Host.Outcome.next (if_pos hcollector)
  · rw [ha] at hcollector ⊢
    exact congrArg Host.Outcome.next (if_pos hcollector)
  · rw [ha] at hcollector ⊢
    exact congrArg Host.Outcome.next (if_pos hcollector)
  · have hrow : exec (.processorWdogExpiry dt p) s = .next (a.wdogExpiry p) := by rw [ha]; rfl
    have hecc : a.countEcc { source := 180 + p } = a := if_neg (by simp; omega)
    rw [hrow, hecc]
    exact congrArg Host.Outcome.next (wdogExpiry_of_due (decide_eq_true hp) (decide_eq_true hstep) hrestart hkick)

/-- What no row fires: a source from 205 on, anything before the collector runs, and a watchdog that is not due. -/
theorem exec_silent {dt p : Nat} {i : Instr} {f : FaultInfo} {s a : State} (ha : a = s.advance dt)
    (hi : (i = .faultSourceFire dt f ∧ 205 ≤ f.source) ∨
      (a.boot.step < 6 ∧ (i = .faultSourceFire dt f ∨ i = .bowlineWdog dt ∨ i = .bowlineLockstep dt ∨ i = .collector dt)) ∨
      (i = .processorWdogExpiry dt p ∧ (10 ≤ p ∨ a.boot.step < 9 ∨ p ∈ a.flt.restarting ∨
        ∃ t, a.flt.kicks.find? p = some t ∧ a.time.upTicks < t + 25000000))) : exec i s = .next a := by
  rcases hi with ⟨rfl, hsrc⟩ | ⟨hstep, hi⟩ | ⟨rfl, hnot⟩
  · have hrow : exec (.faultSourceFire dt f) s = .next (a.sourceFire f) := by rw [ha]; rfl
    have hecc : a.countEcc f = a := if_neg (by simp; omega)
    have hfire : a.sourceFire f = a := by
      unfold State.sourceFire
      rw [hecc]
      split
      · exact if_pos hsrc
      · rfl
    rw [hrow, hfire]
  · have hcollector : a.collectorRuns = false := decide_eq_false (Nat.not_le.2 hstep)
    rw [ha] at hcollector ⊢
    rcases hi with rfl | rfl | rfl | rfl
    · exact congrArg Host.Outcome.next (if_neg (by rw [hcollector]; exact Bool.false_ne_true))
    · exact congrArg Host.Outcome.next (if_neg (by rw [hcollector]; exact Bool.false_ne_true))
    · exact congrArg Host.Outcome.next (if_neg (by rw [hcollector]; exact Bool.false_ne_true))
    · exact congrArg Host.Outcome.next (if_pos (by rw [hcollector]; rfl))
  · have hrow : exec (.processorWdogExpiry dt p) s = .next (a.wdogExpiry p) := by rw [ha]; rfl
    rw [hrow, wdogExpiry_of_idle hnot]

/-! ### Fences, SAFE and the collector (R409, R413, R415) -/

/-- A device that is not off is SAFE after it enters SAFE. -/
theorem dev_enterSafe {x : State} (n : Nat) (h : x.dev ≠ .off) : (x.enterSafe n).dev = .safe := by
  unfold State.enterSafe
  by_cases hs : x.dev = .safe
  · rw [if_pos (by simp [hs])]
    exact hs
  · rw [if_neg (by simp [hs, h])]
    exact (setDev_flt _ _ _).2

/-- A unit that is fenced stays as it is. -/
theorem fenceUnit_of_fenced {u : Nat} (n : Nat) {x : State} (h : u ∈ x.flt.fenced) : x.fenceUnit u n = x := if_pos (hasNat_iff.2 h)

/-- A fence sets the unit's bit, writes FENCE, and takes RUNNING to DEGRADED. -/
theorem fenceUnit_of_free {u : Nat} (n : Nat) {x : State} (h : u ∉ x.flt.fenced) : x.fenceUnit u n =
    State.fenceEffect u ((fun w : State => if w.dev = .running then w.setDev .degraded n else w)
      (State.event 0x0007 u n { x with flt := { x.flt with
        fenced := insertSorted u x.flt.fenced
        strikes := (u, x.wallNs) :: x.flt.strikes
        untilReset := if 2 ≤ recentCount u x.wallNs 86400000000000 x.flt.strikes then insertSorted u x.flt.untilReset else x.flt.untilReset } })) := by
  have hthird : (if decide (2 ≤ recentCount u x.wallNs dayNs x.flt.strikes) = true then insertSorted u x.flt.untilReset else x.flt.untilReset) =
      if 2 ≤ recentCount u x.wallNs 86400000000000 x.flt.strikes then insertSorted u x.flt.untilReset else x.flt.untilReset :=
    if_congr decide_eq_true_iff rfl rfl
  unfold State.fenceUnit
  dsimp only
  rw [if_neg (show ¬ x.isFenced u = true from mt hasNat_iff.1 h), hthird]

/-- Settles O56: `faultReact_spec` on what the firing has recorded. -/
theorem faultReactions : Obligations.FaultReactions := by
  intro dt n m cls p i f s a r ha
  refine ⟨fun hruns hn hlt hcls hr hi hm => ?_, fun hi => exec_silent ha hi,
    fun x => ⟨dev_enterSafe n, (boundCheck_flt x).1, (boundCheck_flt x).2⟩,
    fun u x => ⟨fenceUnit_of_fenced n, fenceUnit_of_free n⟩, fun hruns => ?_⟩
  · obtain ⟨c, hecc, hcase⟩ := countEcc_eq f a
    obtain ⟨hsrc, hsrcs, hfirst, hfirsts, hfenced, hframe, hmem, hcount⟩ :=
      faultRecord_spec f a (a.countEcc f) n cls r hn hcls hr (by rw [hecc])
    have hcounters : (n = 68 ∨ n = 69) ∧ 50 ≤ f.unit ∧ f.unit ≤ 81 ∨ (a.recorded f).counters = a.counters := by
      rw [hn]
      exact hcase.imp id (fun h => hcount.trans ((congrArg State.counters hecc).trans h))
    have hdev : (a.recorded f).dev = a.dev := (congrArg State.dev hframe :)
    have hraster : (a.recorded f).raster = a.raster := (congrArg State.raster hframe :)
    have hrow := exec_detects ha hruns (by rw [← hn]; exact hlt) hi
    rw [show a.firingMask f.source = m by rw [hm, hn]; rfl] at hrow
    obtain ⟨hchip, hsafe, hreact⟩ := faultReact_spec f (a.recorded f) a n m cls hn hcls hdev (congrArg FaultSrc.evtFrame hsrc :) hraster
    refine ⟨a.recorded f, hsrc, hsrcs, hfirst, hfirsts, hfenced, hframe, hmem, hcounters, ?_⟩
    rw [hrow]
    exact ⟨fun h => congrArg Host.Outcome.next (hchip h), fun h hs => congrArg Host.Outcome.next (hsafe h hs),
      fun h hs c d e hc hd he => congrArg Host.Outcome.next (hreact h hs c d e hc hd he)⟩
  · have hcollector : a.collectorRuns = true := decide_eq_true hruns
    have hrow : exec (.collector dt) s = .next a.collectorFail := by rw [ha]; rfl
    exact hrow.trans (congrArg Host.Outcome.next (if_neg (by rw [hcollector]; exact Bool.false_ne_true)))

end Sys2Proof.Machine
end

section
/-! PROOF. Processors: watchdog writes and the end of a restart (O57). -/

namespace Sys2Proof.Machine

open Sys2Proof

/-- What changes the units that bring frames in alone. -/
def OnlyIngest (s u : State) : Prop := { u with ing := s.ing } = s

/-- Two such changes are one. -/
theorem OnlyIngest.trans {s u v : State} (h : OnlyIngest s u) (g : OnlyIngest u v) : OnlyIngest s v := by
  have hg := congrArg (fun x : State => { x with ing := s.ing }) g
  exact hg.trans h

/-- Freeing the buffers of copies changes ingest alone. -/
theorem onlyIngest_dropBufs (l : List SurfaceCopy) : ∀ s : State, OnlyIngest s (l.foldl (fun s k => s.dropBuf k.source k.buf) s) := by
  induction l with
  | nil => exact fun s => rfl
  | cons k l ih => exact fun s => OnlyIngest.trans (dropBuf_frame k.source k.buf s).1 (ih _)

/-- Giving up the work of the background leaves none of it, and reaches ingest, desks and flash alone. -/
theorem dropBackground_spec (b : State) : b.dropBackground.bg = {} ∧ b.dropBackground.ing.copies = [] ∧
    { b.dropBackground with bg := b.bg, ing := b.ing, desks := b.desks, flash := b.flash } = b := by
  obtain ⟨u, hu⟩ : ∃ u, u = b.ing.copies.foldl (fun s k => s.dropBuf k.source k.buf) b := ⟨_, rfl⟩
  have hframe : OnlyIngest b u := by rw [hu]; exact onlyIngest_dropBufs _ b
  unfold State.dropBackground
  rw [← hu]
  exact ⟨rfl, rfl, (congrArg (fun x : State => { x with bg := b.bg, ing := b.ing, desks := b.desks, flash := b.flash }) hframe :)⟩

/-- A processor's restart has ended: it no longer restarts, and its watchdog is written. -/
def State.resumed (p : Nat) (a : State) : State :=
  { a with flt := { a.flt with restarting := a.flt.restarting.filter (fun q => decide (q ≠ p)), kicks := a.flt.kicks.put p a.time.upTicks } }

/-- What the end of a processor's restart does, by the processor. -/
theorem restartDone_of_restarting {p : Nat} {a : State} (h : p ∈ a.flt.restarting) : a.restartDone p =
    if p < 2 then (if (a.resumed p).procDown 0 || (a.resumed p).procDown 1 then a.resumed p else (a.resumed p).cleatResumes (180 + p))
    else if p < 6 then State.dispatch
      { a.resumed p with dec := { (a.resumed p).dec with engines := (a.resumed p).dec.engines.map (fun e => (e.1, { e.2 with last := none })) } }
    else a.resumed p := if_neg (by rw [hasNat_iff.2 h]; exact Bool.false_ne_true)

/-- Cleat answers what it had fetched, in ring order, and goes on. -/
theorem cleatResumes_eq (src : Nat) (b : State) :
    b.cleatResumes src = (b.unanswered.foldl (fun (u : State) x => u.refuse x.2 x.1 .eInternal src) b.dropBackground).drain := rfl

/-- A released processor that runs writes its watchdog. -/
theorem kick_of_running {p : Nat} {a : State} (hp : p < 10) (hstep : 9 ≤ a.boot.step) (hrestart : p ∉ a.flt.restarting) (hhalt : p ∉ a.dbg.halted) :
    a.kick p = { a with flt := { a.flt with kicks := a.flt.kicks.put p a.time.upTicks } } := by
  have hdown : a.procDown p = false := by
    unfold State.procDown
    rw [hasNat_eq_decide, hasNat_eq_decide, decide_eq_false hrestart, decide_eq_false hhalt]
    rfl
  refine if_pos ?_
  unfold State.procReleased
  rw [hdown, decide_eq_true hp, decide_eq_true hstep]
  rfl

/-- Settles O57: the watchdog writes, and the end of a restart by processor. -/
theorem processorRows : Obligations.ProcessorRows := by
  intro dt p s a ha
  have hkick : exec (.watchdogKick dt p) s = .next (a.kick p) := by rw [ha]; rfl
  have hdone : exec (.processorRestartDone dt p) s = .next (a.restartDone p) := by rw [ha]; rfl
  refine ⟨fun hp hstep hrestart hhalt => hkick.trans (congrArg Host.Outcome.next (kick_of_running hp hstep hrestart hhalt)), fun hmem b hb => ?_⟩
  have hb' : b = a.resumed p := hb
  rw [hdone, restartDone_of_restarting hmem, ← hb']
  refine ⟨fun hp h0 h1 => ?_, fun hp hdown => ?_, fun hge hlt => ?_, fun hge => ?_⟩
  · rw [if_pos hp, h0, h1]
    refine ⟨b.dropBackground, congrArg Host.Outcome.next ?_, dropBackground_spec b⟩
    rw [if_neg (by decide)]
    exact cleatResumes_eq (180 + p) b
  · rw [if_pos hp, if_pos (by simpa using hdown)]
  · rw [if_neg (by omega), if_pos hlt]
  · rw [if_neg (by omega), if_neg (by omega)]

end Sys2Proof.Machine
end

section
/-! PROOF. Resets and the supply (O58). -/

namespace Sys2Proof.Machine

open Sys2Proof

/-! ### What a reset leaves (R183, R345, R389, R423, R442) -/

/-- State `t` is what a reset of cause `c` leaves of state `x`. -/
def ResetLeft (c : ResetCause) (x t : State) : Prop :=
  t.bk.resetCause = c ∧ t.dev = .starting ∧ t.boot = { step := t.boot.step, afterPor := decide (c = .por) } ∧
  t.ret = (if c = .por then {} else x.ret) ∧ t.fuses = { x.fuses with committed := false } ∧
  t.flash = (x.flash.abandon x.fw).tear x.calWriting ∧ t.time = { upTicks := x.time.upTicks } ∧
  t.lay = { access := if c = .por then [] else x.lay.access.filter (fun e => e.2.lock) } ∧
  (c ≠ .por → t.bk = { x.bk with resetCause := c, stageValid := x.bk.stageValid && decide (c ≠ .supply) }) ∧
  { t with pending := [], dev := .off, bk := {}, ret := {}, flash := {}, fuses := State.reset.fuses, boot := {}, clk := {}, pins := {}, temp := {}, mirror := {},
           lay := {}, time := {}, dbg := {}, out := {}, free := 0 } = State.reset

/-- A reset leaves what R423 names, at any step of the start. -/
theorem resetTo_left (c : ResetCause) (step : Nat) (x : State) : ResetLeft c x (x.resetTo c step) := by
  unfold ResetLeft State.resetTo
  by_cases h : c = .por
  · subst h
    exact ⟨rfl, rfl, rfl, rfl, rfl, rfl, rfl, rfl, fun h => absurd rfl h, rfl⟩
  · rw [decide_eq_false h, if_neg h, if_neg h]
    exact ⟨rfl, rfl, rfl, rfl, rfl, rfl, rfl, rfl, fun _ => rfl, rfl⟩

/-- What a reset leaves does not depend on the pins. -/
theorem ResetLeft.of_pins {c : ResetCause} {x t : State} (p q : Pins) (h : ResetLeft c x t) : ResetLeft c { x with pins := p } { t with pins := q } := h

/-- What a reset leaves does not depend on the step at which the start begins. -/
theorem ResetLeft.setStep {c : ResetCause} {x t : State} (n : Nat) (h : ResetLeft c x t) : ResetLeft c x (t.setStep n) := by
  obtain ⟨hcause, hdev, hboot, hret, hfuses, hflash, htime, hlay, hbk, hrest⟩ := h
  refine ⟨hcause, hdev, ?_, hret, hfuses, hflash, htime, hlay, hbk, hrest⟩
  exact congrArg (fun b : Boot => { b with step := n }) hboot

/-- Power-on reset leaves fuses and what flash holds whole. -/
theorem powerOff_left (x : State) : x.powerOff.dev = .off ∧ x.powerOff.fuses = { x.fuses with committed := false } ∧
    x.powerOff.flash = (x.flash.abandon x.fw).tear x.calWriting ∧ x.powerOff.time = { upTicks := x.time.upTicks } ∧
    x.powerOff.pins.railsBad = x.pins.railsBad ∧
    { x.powerOff with pending := [], flash := {}, fuses := State.reset.fuses, pins := {}, temp := {}, time := {}, out := {}, free := 0 } = State.reset :=
  ⟨rfl, rfl, rfl, rfl, rfl, rfl⟩

/-! ### Rails (R448, R449, R453, R472) -/

/-- A state with one more rail out. -/
def State.railOut (rail : Nat) (a : State) : State := { a.tearPalette with pins := { a.pins with railsBad := insertSorted rail a.pins.railsBad } }

/-- Without a palette that is being programmed, only the rails change. -/
theorem railOut_of_idle (rail : Nat) {a : State} (h : a.bg.palette = none) :
    a.railOut rail = { a with pins := { a.pins with railsBad := insertSorted rail a.pins.railsBad } } := by
  unfold State.railOut State.tearPalette
  rw [if_neg (by rw [h]; exact Bool.false_ne_true)]

/-- The excursion of a rail that only the supply monitor watches resets a device with power. -/
theorem railTrip_supply {rail : Nat} {a : State} (h : rail < 11) (h2 : rail ≠ 2) (h9 : rail ≠ 9) (hon : a.dev ≠ .off) :
    a.railTrip rail = (a.railOut rail).resetTo .supply 0 := by
  have hdev : (a.railOut rail).dev = a.dev := by
    unfold State.railOut
    rw [tearPalette_eq]
  rw [railTrip_monitored rail a (a.railOut rail) h rfl, if_neg (by simp [hasNat_eq_decide, porRails, h2, h9]), if_neg (by rw [hdev]; exact hon)]

/-- The excursion of VDD_SAFE or VDD_IO18 holds power-on reset. -/
theorem railTrip_por {rail : Nat} {a : State} (h : rail = 2 ∨ rail = 9) : a.railTrip rail = (a.railOut rail).powerOff := by
  rw [railTrip_monitored rail a (a.railOut rail) (by omega) rfl, if_pos (by rcases h with rfl | rfl <;> rfl)]

/-- The board switches VDD_FUSE, which tears a palette that is being programmed when it goes. -/
theorem railTrip_vddFuse (a : State) : a.railTrip 11 = { a with
    pins := { a.pins with vddFuse := !a.pins.vddFuse }
    fuses := if a.pins.vddFuse = true ∧ a.bg.palette.isSome = true then { a.fuses with paletteProgrammed := true, paletteBad := true } else a.fuses } := by
  rw [railTrip_fuse, tearPalette_eq]
  by_cases hv : a.pins.vddFuse = true
  · have hiff : (a.pins.vddFuse = true ∧ a.bg.palette.isSome = true) = (a.bg.palette.isSome = true) := propext ⟨fun h => h.2, fun h => ⟨hv, h⟩⟩
    rw [if_pos hv]
    simp only [hiff]
  · rw [if_neg hv, if_neg (fun h => hv h.1)]

/-- A start that no reset holds begins. -/
theorem beginStart_of_free {x : State} (hdev : x.dev = .starting) (hstep : x.boot.step = 0) (hrails : x.pins.railsBad = []) (hlow : x.pins.resetLow = false) :
    x.beginStart = x.setStep 2 := if_pos (by rw [hdev, hstep, hrails, hlow]; rfl)

/-- The release of power-on reset: a reset, whose start begins unless a rail is still out. -/
theorem porRelease_of_off {a : State} (h : a.dev = .off) : ResetLeft .por a a.porRelease ∧ a.porRelease.pins.resetLow = false ∧ a.porRelease.bk = {} ∧
    a.porRelease.pins.railsBad = a.pins.railsBad.filter (fun r => decide (r ≠ 2 ∧ r ≠ 9)) ∧
    a.porRelease.boot.step = (if a.porRelease.pins.railsBad.isEmpty then 2 else 0) := by
  obtain ⟨x, hx⟩ : ∃ x : State, x = { a with pins := { a.pins with
    railsBad := a.pins.railsBad.filter (fun r => !hasNat r porRails), resetLow := false } } := ⟨_, rfl⟩
  have hstep : a.porRelease = (x.resetTo .por 0).beginStart := by
    rw [hx]
    exact if_neg (fun h' => h' h)
  have hleft : ResetLeft .por a (x.resetTo .por 0) := by rw [hx]; exact resetTo_left .por 0 _
  have hrails : (x.resetTo .por 0).pins.railsBad = a.pins.railsBad.filter (fun r => decide (r ≠ 2 ∧ r ≠ 9)) := by
    rw [hx]
    exact filter_porRails _
  have hlow : (x.resetTo .por 0).pins.resetLow = false := by rw [hx]; rfl
  rw [hstep]
  by_cases hempty : (x.resetTo .por 0).pins.railsBad = []
  · rw [beginStart_of_free rfl rfl hempty hlow]
    refine ⟨hleft.setStep 2, hlow, rfl, hrails, ?_⟩
    exact (if_pos (by exact List.isEmpty_iff.2 hempty)).symm
  · rw [show (x.resetTo .por 0).beginStart = x.resetTo .por 0 from if_neg (by simp [hempty])]
    refine ⟨hleft, hlow, rfl, hrails, ?_⟩
    exact (if_neg (by rw [List.isEmpty_iff]; exact hempty)).symm

/-! ### Power loss (R440, R441) -/

/-- A power-failure warning stops fetching, and the last-gasp record begins where a flash is fitted. -/
theorem powerWarn_of_running {a u : State} (hon : a.dev ≠ .off) (hstep : 6 ≤ a.boot.step) (hlow : a.pins.pwrFailLow = false)
    (hu : u = (State.fireSrc 178 0xFFFF 0xFFFF a).stopSaves) :
    a.powerWarn = { u with pins := { u.pins with pwrFailLow := true, fetchStopped := true, gasp := if u.flash.fitted then some u.gaspRecord else none } } := by
  subst hu
  exact if_neg (by simp [hon, hlow, Nat.not_lt.2 hstep])

/-- A record that is whole stands. -/
theorem gaspDone_of_writing {a : State} {g : LastGasp} (h : a.pins.gasp = some g) : a.gaspDone = { a with
    flash := { a.flash with lastGasp := some g }
    pins := { a.pins with gasp := none }
    out := { a.out with flash := (lastGaspAt g.seq, gaspBytes g) :: a.out.flash } } := by
  unfold State.gaspDone
  rw [h]

/-- Settles O58: every reset leaves what `resetTo_left` and `powerOff_left` say. -/
theorem resetAndSupply : Obligations.ResetAndSupply := by
  intro dt s a left ha hleft
  have hdef : ∀ c x t, ResetLeft c x t → left c x t := fun c x t h => by rw [hleft]; exact h
  have hfailed : exec (.failedStartReset dt) s = .next a.failedStart := by rw [ha]; rfl
  have hassert : exec (.resetNAssert dt) s = .next a.resetAssert := by rw [ha]; rfl
  have hrail : ∀ rail, exec (.railExcursion dt rail) s = .next (a.railTrip rail) := fun rail => by rw [ha]; rfl
  have hpor : exec (.por dt) s = .next a.porRelease := by rw [ha]; rfl
  have hsupply : exec (.supplyResetRelease dt) s = .next a.supplyRelease := by rw [ha]; rfl
  have hrelease : exec (.resetNRelease dt) s = .next a.resetRelease := by rw [ha]; rfl
  have htimeout : exec (.startTimeout dt) s = .next a.startTimeout := by rw [ha]; rfl
  have hwarn : exec (.pwrFailAssert dt) s = .next a.powerWarn := by rw [ha]; rfl
  have hback : exec (.pwrFailRelease dt) s = .next a.powerBack.drain := by rw [ha]; rfl
  have hgasp : exec (.lastGaspWriteDone dt) s = .next a.gaspDone := by rw [ha]; rfl
  refine ⟨fun hf => ?_, fun hon hlow => ?_, fun rail h11 h2 h9 hon => ?_, fun rail hr hidle => ?_, ?_, fun hoff => ?_,
    fun hdev hstep => ⟨fun hlow => ?_, fun hrails => ?_⟩, fun hdev hstep => ?_, fun hon hstep hlow => ?_, hback, fun g hg => ?_⟩
  · exact ⟨_, hfailed.trans (congrArg Host.Outcome.next (if_pos hf)), hdef _ _ _ (resetTo_left .failedStart 2 a), rfl, rfl⟩
  · have hrow : a.resetAssert = { a.resetTo .pin 0 with pins := { (a.resetTo .pin 0).pins with resetLow := true } } := if_neg (by simp [hon, hlow])
    exact ⟨_, hassert.trans (congrArg Host.Outcome.next hrow), hdef _ _ _ ((resetTo_left .pin 0 a).of_pins a.pins _), rfl, rfl, rfl⟩
  · refine ⟨_, a.railOut rail, (hrail rail).trans (congrArg Host.Outcome.next (railTrip_supply h11 h2 h9 hon)),
      hdef _ _ _ (resetTo_left .supply 0 _), rfl, rfl, fun hidle => ?_⟩
    rw [railOut_of_idle rail hidle]
  · obtain ⟨hdev, hfuses, hflash, htime, hrails, hrest⟩ := powerOff_left (a.railOut rail)
    rw [railOut_of_idle rail hidle] at hfuses hflash htime hrails
    refine ⟨(a.railOut rail).powerOff, (hrail rail).trans (congrArg Host.Outcome.next (railTrip_por hr)), hdev, ?_, ?_, ?_, ?_, hrest⟩ <;>
      rw [railOut_of_idle rail hidle] <;> assumption
  · exact (hrail 11).trans (congrArg Host.Outcome.next (railTrip_vddFuse a))
  · obtain ⟨hl, hlow, hbk, hrails, hstep⟩ := porRelease_of_off hoff
    exact ⟨_, hpor, hdef _ _ _ hl, hlow, hbk, hrails, hstep⟩
  · have hrow : a.supplyRelease = ({ a with pins := { a.pins with railsBad := [] } } : State).beginStart := if_neg (by rw [hdev]; decide)
    exact hsupply.trans (congrArg Host.Outcome.next (hrow.trans (beginStart_of_free hdev hstep rfl hlow)))
  · exact hrelease.trans (congrArg Host.Outcome.next (beginStart_of_free hdev hstep hrails rfl))
  · exact htimeout.trans (congrArg Host.Outcome.next (if_pos (by simp [hdev, hstep])))
  · obtain ⟨u, hu⟩ : ∃ u : State, u = (State.fireSrc 178 0xFFFF 0xFFFF a).stopSaves := ⟨_, rfl⟩
    exact ⟨u, u.gaspRecord, hu, rfl, rfl, rfl, rfl, rfl, rfl, rfl, rfl, rfl, hwarn.trans (congrArg Host.Outcome.next (powerWarn_of_running hon hstep hlow hu))⟩
  · exact hgasp.trans (congrArg Host.Outcome.next (gaspDone_of_writing hg))

end Sys2Proof.Machine
end

section
/-! PROOF. The start: fuses, clocks, the image, training and completion (O59). -/

namespace Sys2Proof.Machine

open Sys2Proof

/-! ### Clocks that pass (R418, R419, R426) -/

/-- A row that names a clock acts on it. -/
theorem onClock_of_code {n : Nat} {k : Clock} (f : Clock → State → State) (a : State) (h : clockOf n = some k) : a.onClock n f = f k a := by
  unfold State.onClock
  rw [h]

/-- A state in which clock `k` has become stable. -/
def State.stabilised (k : Clock) (a : State) : State := { a with clk := { a.clk with stable := k :: a.clk.stable } }

/-- A clock that runs passes its judgement, against FIO or XA where it is not FIO itself. -/
theorem clockPasses_of_enabled {k : Clock} {a : State} (hen : k ∈ a.clk.enabled) (hnew : k ∉ a.clk.stable) (hfio : k = .fio ∨ Clock.fio ∈ a.clk.stable) :
    a.clockPasses k = if k = .fio ∧ a.boot.step = 4 then (a.stabilised k).stepFive else (a.stabilised k).clockSteps := by
  unfold State.clockPasses
  simp only [hasClock_eq_decide]
  rw [if_neg (by
    rw [decide_eq_true hen, decide_eq_false hnew]
    rcases hfio with rfl | h
    · simp
    · rw [decide_eq_true h]
      simp)]
  exact if_congr (by rw [Bool.and_eq_true, decide_eq_true_eq, decide_eq_true_eq]) rfl rfl

/-- Windows that pass let the clock pass. -/
theorem clockStable_passes {k : Clock} {counts : List Nat} {a : State} (h : eightPass (a.nominalKhz k) 0 counts = true) :
    a.clockStable counts k = a.clockPasses k := if_pos h

/-- Windows that do not pass change nothing. -/
theorem clockStable_waits {k : Clock} {counts : List Nat} {a : State} (h : eightPass (a.nominalKhz k) 0 counts = false) : a.clockStable counts k = a :=
  if_neg (by rw [h]; exact Bool.false_ne_true)

/-- The window after a clock's own edges lets the clock pass. -/
theorem clockTimeout_passes {k : Clock} {count : Nat} {a : State} (hen : k ∈ a.clk.enabled) (hnew : k ∉ a.clk.stable)
    (h : windowPasses (a.nominalKhz k) 2 count = true) : a.clockTimeout (some count) k = a.clockPasses k := by
  unfold State.clockTimeout
  simp only [hasClock_eq_decide]
  rw [if_neg (by simp [hen, hnew]), if_pos (by simpa using h)]

/-- The windows of a clock that is judged have all failed. -/
def NoWindowPasses (khz : Nat) (count : Option Nat) : Prop := ∀ x, count = some x → windowPasses khz 2 x = false

/-- A clock that has failed to start: what follows by the step of the start. -/
theorem clockTimeout_fails {k : Clock} {count : Option Nat} {a : State} (hen : k ∈ a.clk.enabled) (hnew : k ∉ a.clk.stable)
    (h : NoWindowPasses (a.nominalKhz k) count) : a.clockTimeout count k =
      if a.boot.step = 4 then (if k = .fio then a.fioFails else a)
      else if a.dev = .starting ∧ (a.boot.step = 6 ∨ a.boot.step = 7) then ({ a with bk := { a.bk with clkFail := k.code } } : State).failStart
      else if a.dev = .recovery then a.disableClock k else a := by
  have hany : count.any (fun n => windowPasses (a.nominalKhz k) 2 n) = false := by
    cases count with
    | none => rfl
    | some x => exact h x rfl
  unfold State.clockTimeout
  simp only [hasClock_eq_decide]
  rw [if_neg (by simp [hen, hnew]), hany, if_neg Bool.false_ne_true]
  simp only [Bool.and_eq_true, Bool.or_eq_true, decide_eq_true_eq]

/-! ### Steps 5 to 7 (R426, R427, R436) -/

/-- Step 5: the latches are counted, and the failed-start rule applies. -/
theorem stepFive_eq {b c : State} (hc : c = State.countLatches { b with
      bk := { b.bk with bootId := (b.bk.bootId + 1) % 4294967296 }, boot := { b.boot with step := 6 } }) :
    b.stepFive = if 4 ≤ c.bk.startCount then (if c.dev = .recovery then c else c.enterRecovery .full)
      else { c with bk := { c.bk with startCount := c.bk.startCount + 1 } } := by
  rw [hc]
  rfl

/-- Without latches there is nothing to count. -/
theorem countLatches_of_clear {x : State} (hfuse : x.bk.fuseBad = []) (hclk : x.bk.clkFail = 0) (hlatch : x.bk.collectorLatch = false) : x.countLatches = x := by
  have hsrcs : latchedSources x.bk = [] := by
    unfold latchedSources
    rw [hfuse, hclk]
    rfl
  have hbk : { x.bk with clkFail := 0, fuseBad := [], collectorLatch := false } = x.bk := by rw [← hclk, ← hfuse, ← hlatch]
  unfold State.countLatches
  dsimp only
  rw [hsrcs, hfuse]
  simp only [List.foldl_nil, List.isEmpty_nil, if_true]
  rw [hlatch]
  exact congrArg (fun k : Backup => { x with bk := k }) hbk

/-- Enabling a clock leaves what is stable, and everything but the clocks. -/
theorem enableClock_frame (k : Clock) (b : State) : (b.enableClock k).clk.stable = b.clk.stable ∧ { b.enableClock k with clk := b.clk } = b := by
  unfold State.enableClock
  split <;> exact ⟨rfl, rfl⟩

/-- In RECOVERY, PLL_CORE follows XA, and the host link PLL_CORE. -/
theorem clockSteps_recovery {b c : State} (hdev : b.dev = .recovery) (hc : c = if b.boot.step = 6 ∧ Clock.xa ∈ b.clk.stable then b.enableClock .pllCore else b) :
    b.clockSteps = if Clock.pllCore ∈ b.clk.stable ∧ b.bootFrom ≠ .uart then (c.setPll 0 .locked).setPll 1 .locked else c := by
  have hkeep : c.clk.stable = b.clk.stable ∧ c.bk = b.bk := by
    rw [hc]
    split
    · exact ⟨(enableClock_frame _ b).1, (congrArg State.bk (enableClock_frame .pllCore b).2 :)⟩
    · exact ⟨rfl, rfl⟩
  have hfrom : c.bootFrom = b.bootFrom := by
    unfold State.bootFrom
    rw [hkeep.2]
  unfold State.clockSteps
  rw [if_pos hdev]
  simp only [hasClock_eq_decide, Bool.and_eq_true, decide_eq_true_eq]
  rw [← hc, hkeep.1, hfrom]
  rfl

/-- At step 6, XB follows XA where it is used, and then the PLLs. -/
theorem clockSteps_six {b : State} (hdev : b.dev ≠ .recovery) (hstep : b.boot.step = 6) (hxa : Clock.xa ∈ b.clk.stable) :
    b.clockSteps = if b.boot.xbUsed = true ∧ Clock.xb ∉ b.clk.stable then b.enableClock .xb
      else (fun u : State => { u with boot := { u.boot with step := 7 } })
        ((((((b.enableClock .pllCore).enableClock .pllCodec).enableClock .pllComp).enableClock .pllPix).enableClock .pllMem).enableClock .pllTime) := by
  unfold State.clockSteps
  rw [if_neg hdev, if_pos (by rw [hstep, hasClock_eq_decide, decide_eq_true hxa]; rfl), enablePlls_eq]
  exact if_congr (by simp [hasClock_eq_decide]) rfl rfl

/-- At step 7, the host link follows the six PLLs. -/
theorem clockSteps_seven {b : State} (hdev : b.dev = .starting) (hstep : b.boot.step = 7) :
    b.clockSteps = if ∀ x ∈ devicePlls, x ∈ b.clk.stable then (fun u : State => { u with boot := { u.boot with step := 8 } })
      (if b.bootFrom = .uart then b else (b.setPll 0 .locked).setPll 1 .locked) else b := by
  unfold State.clockSteps State.allStable
  rw [if_neg (by rw [hdev]; decide), if_neg (by rw [hstep]; simp)]
  exact if_congr (by simp [hdev, hstep, hasClock_eq_decide]) rfl rfl

/-! ### Clocks that fail (R420 to R422) -/

/-- FIO fails an attempt. -/
theorem monitorFail_attempt {counts : List Nat} {a : State} (hstep : a.boot.step = 4) (hen : Clock.fio ∈ a.clk.enabled) :
    a.monitorFail counts .fio = if attemptTrips counts = true then a.fioFails else a :=
  if_pos (by rw [hstep, hasClock_eq_decide, decide_eq_true hen]; rfl)

/-- A clock that fails while it runs leaves the stable ones, and is latched. -/
def State.clockLost (k : Clock) (a : State) : State := { a.unstable k with bk := { a.bk with clkFail := k.code } }

/-- The monitor of a clock that runs. -/
theorem monitorFail_of_stable {k : Clock} {counts : List Nat} {a : State} (hst : k ∈ a.clk.stable) (hstep : 6 ≤ a.boot.step) :
    a.monitorFail counts k = if monitorTrips (a.nominalKhz k) counts = true then ((a.clockLost k).changeOver k).fireSrc k.source 0xFFFF 0xFFFF else a := by
  have hattempt : ¬ (decide (a.boot.step = 4) && decide (k = .fio) && hasClock .fio a.clk.enabled) = true := by
    rw [decide_eq_false (by omega)]
    exact Bool.false_ne_true
  unfold State.monitorFail
  rw [if_neg hattempt, hasClock_eq_decide, decide_eq_true hst, decide_eq_false (Nat.not_lt.2 hstep)]
  cases monitorTrips (a.nominalKhz k) counts <;> rfl

/-- Rescaling the strobes of heads touches heads alone. -/
theorem rescaleStrobes_frame (l : Tab HeadRt) : ∀ u : State, ∃ x, l.foldl (fun u e => u.rescaleStrobe e.1) u = { u with heads := x } := by
  induction l with
  | nil => exact fun u => ⟨u.heads, rfl⟩
  | cons e l ih =>
    intro u
    obtain ⟨x, hx⟩ := ih (u.rescaleStrobe e.1)
    exact ⟨x, hx⟩

/-- What the changeover of the clients of clock `k` leaves of state `a`. -/
structure ChangedOver (k : Clock) (a b : State) : Prop where
  latch : b.bk = { a.bk with clkFail := k.code }
  stable : b.clk.stable = a.clk.stable.filter (fun x => decide (x ≠ k))
  fio : k = .fio → b.clk.safeOnSio = true
  raster : k = .pllTime → b.raster.run = false
  memory : k = .pllMem → b.mem.trained = false ∧ b.mem.bytes = []
  onFio : k = .pllCore ∨ k = .pllCodec ∨ k = .pllComp ∨ k = .pllPix ∨ k = .pllTime → k ∈ b.clk.onFio
  heads : k ≠ .pllPix → b.heads = a.heads
  frame : { b with bk := a.bk, clk := a.clk, raster := { b.raster with run := a.raster.run }, mem := a.mem, heads := a.heads } = a

/-- A PLL whose clients run on FIO from then on. -/
theorem changedOver_onFio {k : Clock} {a b : State} {x : Tab HeadRt} (hb : b = { a.clockLost k with
      clk := { (a.clockLost k).clk with onFio := k :: (a.clockLost k).clk.onFio }, heads := x }) (hheads : k ≠ .pllPix → x = a.heads)
    (hk : k = .pllCore ∨ k = .pllCodec ∨ k = .pllComp ∨ k = .pllPix) : ChangedOver k a b := by
  subst hb
  refine ⟨rfl, rfl, ?_, ?_, ?_, fun _ => List.mem_cons_self, hheads, rfl⟩ <;> rintro rfl <;> simp at hk

/-- The clients of a failed clock change over. -/
theorem changeOver_spec (k : Clock) (a : State) : ChangedOver k a ((a.clockLost k).changeOver k) := by
  cases k with
  | fio => exact ⟨rfl, rfl, fun _ => rfl, nofun, nofun, by simp, fun _ => rfl, rfl⟩
  | sio => exact ⟨rfl, rfl, nofun, nofun, nofun, by simp, fun _ => rfl, rfl⟩
  | xa => exact ⟨rfl, rfl, nofun, nofun, nofun, by simp, fun _ => rfl, rfl⟩
  | xb => exact ⟨rfl, rfl, nofun, nofun, nofun, by simp, fun _ => rfl, rfl⟩
  | pllCore => exact changedOver_onFio (x := a.heads) rfl (fun _ => rfl) (by simp)
  | pllCodec => exact changedOver_onFio (x := a.heads) rfl (fun _ => rfl) (by simp)
  | pllComp => exact changedOver_onFio (x := a.heads) rfl (fun _ => rfl) (by simp)
  | pllPix =>
    obtain ⟨x, hx⟩ := rescaleStrobes_frame a.heads { a.clockLost .pllPix with clk := { (a.clockLost .pllPix).clk with onFio := .pllPix :: (a.clockLost .pllPix).clk.onFio } }
    exact changedOver_onFio (x := x) hx (fun h => absurd rfl h) (by simp)
  | pllMem => exact ⟨rfl, rfl, nofun, nofun, fun _ => ⟨rfl, rfl⟩, by simp, fun _ => rfl, rfl⟩
  | pllTime => exact ⟨rfl, rfl, nofun, fun _ => rfl, nofun, fun _ => List.mem_cons_self, fun _ => rfl, rfl⟩

/-- A wait after a failed attempt of FIO: another attempt, or RECOVERY after the third. -/
theorem fioRetry_of_waiting {a : State} (h : a.clk.fioWait = true) :
    a.fioRetry = if 3 ≤ a.bk.fioTries then a.enterRecovery .sio else State.enableClock .fio { a with clk := { a.clk with fioWait := false } } :=
  if_neg (by rw [h]; decide)

/-! ### The image (R426 to R429, R435) -/

/-- Fuse requests reach fuses alone. -/
theorem fuseRequest_frame (b : State) : ∃ x, b.fuseRequest = { b with fuses := x } := by
  unfold State.fuseRequest
  cases b.flash.fuseReq with
  | none => exact ⟨b.fuses, rfl⟩
  | some q =>
    dsimp only
    split
    · exact ⟨_, rfl⟩
    · exact ⟨b.fuses, rfl⟩

/-- State `c` is state `b` with the image of slot `slot` released. -/
def Released (slot : Nat) (im : ImageSlot) (b c : State) : Prop :=
  c.boot.step = 9 ∧ c.boot.cleatUp = true ∧ c.boot.fwSlot = slot ∧ c.boot.fwVersion = im.version ∧ (b.bootFrom ≠ .uart → c.lanes = b.lanes) ∧
  { c with boot := b.boot, fuses := b.fuses, lanes := b.lanes } = b

/-- Releasing the processors for an image. -/
theorem releaseProcs_spec (slot : Nat) (im : ImageSlot) (b : State) : Released slot im b (b.releaseProcs slot im) := by
  obtain ⟨u, hu, hlanes⟩ : ∃ u : State, u = (if b.bootFrom = .uart then b.hostLink else b) ∧ (b.bootFrom ≠ .uart → u = b) := ⟨_, rfl, fun h => if_neg h⟩
  have hframe : { u with lanes := b.lanes } = b := by
    rw [hu]
    split <;> rfl
  obtain ⟨x, hx⟩ := fuseRequest_frame { u with boot := { u.boot with step := 9, fwSlot := slot, fwVersion := im.version, cleatUp := true } }
  have hstep : b.releaseProcs slot im = { u with
      boot := { u.boot with step := 9, fwSlot := slot, fwVersion := im.version, cleatUp := true }, fuses := x } := by
    rw [hu] at hx ⊢
    exact hx
  rw [hstep]
  refine ⟨rfl, rfl, rfl, rfl, fun h => by rw [hlanes h], ?_⟩
  exact (congrArg (fun s : State => { s with boot := b.boot, fuses := b.fuses }) hframe :)

/-- The image that a start takes, or none that is sound. -/
theorem chooseImage_of_option {bad : List Nat} {b : State} {o : Option (Nat × ImageSlot)}
    (ho : o = (if b.bootFrom = .xspi then (if b.flash.fitted then b.flash.bootSlots.find? (fun e => decide (e.1 ∉ bad)) else none)
      else if 2 ∈ bad then none else some (2, b.flash.staged))) (hvalid : b.bootFrom = .xspi ∨ b.bk.stageValid = true) :
    b.chooseImage bad = o.elim b.failStart (fun e => b.releaseProcs e.1 e.2) := by
  rw [chooseImage_eq]
  by_cases hx : b.bootFrom = .xspi
  · rw [if_pos hx] at ho ⊢
    rw [← ho]
    cases o <;> rfl
  · rw [if_neg hx] at ho ⊢
    rw [if_neg (by rw [hvalid.resolve_left hx]; decide)]
    by_cases h2 : 2 ∈ bad
    · rw [if_pos h2] at ho
      rw [if_neg (fun h => h h2), ho]
      rfl
    · rw [if_neg h2] at ho
      rw [if_pos h2, ho]
      rfl

/-- The boot loader's row in a start that waits for its image. -/
theorem imageLoad_of_waiting (bad : List Nat) {a : State} (hdev : a.dev = .starting) (hstep : a.boot.step = 8) (hf : a.boot.failed = false) :
    a.imageLoad bad = if a.boot.afterPor = true ∧ 4 ≤ a.flash.startCount then a.enterRecovery .full
      else (a.setStartCount (if a.boot.afterPor then a.flash.startCount + 1 else a.bk.startCount)).chooseImage bad := by
  unfold State.imageLoad
  rw [if_neg (by simp [hdev, hstep, hf])]
  exact if_congr (by rw [Bool.and_eq_true, decide_eq_true_eq]) rfl rfl

/-! ### Training and completion (R50, R69, R310, R319) -/

/-- Memory training in a start that waits for it. -/
theorem memTrained_of_waiting (bad : List Nat) {a : State} (hdev : a.dev = .starting) (hstep : a.boot.step = 9) (hf : a.boot.failed = false) :
    a.memTrained bad = if (bad.filter (fun c => decide (c < 32))) = [] then { a with
        mem := { a.mem with trained := true, bytes := [] }
        ret := { a.ret with trainSeq := a.ret.trainSeq + 1, trained := List.range 32 }
        boot := { a.boot with step := 10 } }
      else (bad.filter (fun c => decide (c < 32))).foldl (fun (u : State) c => u.fireSrc (if c < 30 then 70 else 71) (50 + c) 0xFFFF)
        { a with boot := { a.boot with failed := true } } := by
  unfold State.memTrained
  rw [if_neg (by simp [hdev, hstep, hf])]
  exact if_congr List.isEmpty_iff rfl rfl

/-- Setting the start count reaches the backup register, flash, and what leaves the device. -/
theorem setStartCount_frame (n : Nat) (a : State) : { a.setStartCount n with bk := a.bk, flash := a.flash, out := a.out } = a := by
  unfold State.setStartCount State.writeStart
  dsimp only
  split <;> rfl

/-- Giving sources their buffers' places reaches ingest and the free values. -/
theorem allocSources_frame (l : List Nat) : ∀ u : State, { l.foldl (fun s i => s.allocSource (984 + i)) u with ing := u.ing, free := u.free } = u := by
  induction l with
  | nil => exact fun u => rfl
  | cons i l ih =>
    intro u
    have h := ih (u.allocSource (984 + i))
    exact (congrArg (fun x : State => { x with ing := u.ing, free := u.free }) h :)

/-- Starting the PLLs of quads reaches lanes alone. -/
theorem startQuads_frame (q : Tab QuadCfg) : ∀ u : State, { u.startQuads q with lanes := u.lanes } = u := by
  unfold State.startQuads
  induction q with
  | nil => exact fun u => rfl
  | cons e q ih =>
    intro u
    exact (congrArg (fun x : State => { x with lanes := u.lanes }) (ih (u.setPll e.1 .locking)) :)

/-- The parts of a state that say how far its start has come. -/
def State.startView (s : State) : DevState × Boot × Layout × Raster := (s.dev, s.boot, s.lay, s.raster)

/-- What a completed start leaves of state `a`. -/
structure Completed (a t : State) : Prop where
  dev : t.dev = .configuring
  step : t.boot.step = 11
  quads : t.lay.quads = presetQuads (if a.bk.strapAmbig then 0 else strapPreset a.bk.strapChoice)
  run : t.raster.run = false
  first : t.raster.first = firstFrameAfter a.lay.dev.wallRate a.wallNs
  mirror : t.mirror.devState = 3

/-- The last step of a start: CONFIGURING, with the lane preset's quads, and the raster due. -/
theorem bootComplete_spec {a : State} (hdev : a.dev = .starting) (hstep : a.boot.step = 10) (hf : a.boot.failed = false) : Completed a a.bootComplete := by
  obtain ⟨quads, hquads⟩ : ∃ q, q = presetQuads (if a.bk.strapAmbig then 0 else strapPreset a.bk.strapChoice) := ⟨_, rfl⟩
  obtain ⟨b, hb⟩ : ∃ b, b = a.setStartCount 0 := ⟨_, rfl⟩
  obtain ⟨c, hc⟩ : ∃ c : State, c = { b with
    boot := { b.boot with step := 11 }
    lay := { b.lay with quads := quads, access := firmwareEntries b.lay.access }
    txns := { b.txns with next := b.firstTxn }
    raster := { first := firstFrameAfter b.lay.dev.wallRate b.wallNs } } := ⟨_, rfl⟩
  obtain ⟨d, hd⟩ : ∃ d : State, d = (List.range 40).foldl (fun s i => s.allocSource (984 + i)) c := ⟨_, rfl⟩
  obtain ⟨e, he⟩ : ∃ e : State, e = (d.startQuads quads).restLanes userLanes := ⟨_, rfl⟩
  have hrow : a.bootComplete = e.setDev .configuring 0xFFFF := by
    rw [he, hd, hc, hb, hquads]
    exact if_neg (by simp [hdev, hstep, hf])
  have hab := setStartCount_frame 0 a
  rw [← hb] at hab
  have hcd := allocSources_frame (List.range 40) c
  rw [← hd] at hcd
  have hde := (restLanes_frame userLanes (d.startQuads quads)).1
  rw [← he] at hde
  obtain ⟨hset, hmirror⟩ := setDev_frame .configuring 0xFFFF e
  have hview : e.startView = c.startView := by
    have h1 : e.startView = (d.startQuads quads).startView := (congrArg State.startView hde :)
    have h2 : (d.startQuads quads).startView = d.startView := (congrArg State.startView (startQuads_frame quads d) :)
    have h3 : d.startView = c.startView := (congrArg State.startView hcd :)
    exact h1.trans (h2.trans h3)
  have hsets : (e.setDev .configuring 0xFFFF).boot = e.boot ∧ (e.setDev .configuring 0xFFFF).lay = e.lay ∧ (e.setDev .configuring 0xFFFF).raster = e.raster :=
    ⟨(congrArg State.boot hset :), (congrArg State.lay hset :), (congrArg State.raster hset :)⟩
  have hb' : b.dev = a.dev ∧ b.lay = a.lay ∧ b.wallNs = a.wallNs := ⟨(congrArg State.dev hab :), (congrArg State.lay hab :), (congrArg State.wallNs hab :)⟩
  obtain ⟨hsboot, hslay, hsraster⟩ := hsets
  obtain ⟨hbdev, hblay, hbwall⟩ := hb'
  have hedev : e.dev = .starting := (congrArg Prod.fst hview).trans (by rw [hc]; exact hbdev.trans hdev)
  have heboot : e.boot = c.boot := congrArg (fun v => v.2.1) hview
  have helay : e.lay = c.lay := congrArg (fun v => v.2.2.1) hview
  have heraster : e.raster = c.raster := congrArg (fun v => v.2.2.2) hview
  rw [hrow]
  refine ⟨(setDev_flt _ _ _).2, ?_, ?_, ?_, ?_, hmirror (by rw [hedev]; decide)⟩
  · rw [hsboot, heboot, hc]
  · rw [hslay, helay, hc]
    exact hquads
  · rw [hsraster, heraster, hc]
  · rw [hsraster, heraster, hc]
    dsimp only
    rw [hblay, hbwall]

/-! ### The obligation -/

/-- A row that lets a clock pass: its windows pass, or the window after its own edges. -/
def PassingRow (dt n : Nat) (k : Clock) (a : State) (i : Instr) : Prop :=
  (∃ counts, i = .clockStable dt ⟨n, counts⟩ ∧ eightPass (a.nominalKhz k) 0 counts = true) ∨
    (∃ count, i = .clockJudgeTimeout dt n (some count) ∧ windowPasses (a.nominalKhz k) 2 count = true)

/-- Such a row has the clock pass. -/
theorem exec_passingRow {dt n : Nat} {k : Clock} {s a : State} {i : Instr} (ha : a = s.advance dt) (hk : clockOf n = some k) (hen : k ∈ a.clk.enabled)
    (hnew : k ∉ a.clk.stable) (hi : PassingRow dt n k a i) : exec i s = .next (a.clockPasses k).drain := by
  rcases hi with ⟨counts, rfl, h⟩ | ⟨count, rfl, h⟩
  · have hrow : exec (.clockStable dt ⟨n, counts⟩) s = .next (a.onClock n (State.clockStable counts)).drain := by rw [ha]; rfl
    rw [hrow, onClock_of_code _ a hk, clockStable_passes h]
  · have hrow : exec (.clockJudgeTimeout dt n (some count)) s = .next (a.onClock n (State.clockTimeout (some count))).drain := by rw [ha]; rfl
    rw [hrow, onClock_of_code _ a hk, clockTimeout_passes hen hnew h]

/-- Settles O59: the rows of the start, each from the lemma about its operation. -/
theorem startSequence : Obligations.StartSequence := by
  intro dt s a ha
  have hfuse : ∀ bad strap, exec (.fuseLoadDone dt bad strap) s = .next (a.fuseLoad bad strap).drain := fun bad strap => by rw [ha]; rfl
  have hstable : ∀ n counts, exec (.clockStable dt ⟨n, counts⟩) s = .next (a.onClock n (State.clockStable counts)).drain := fun n counts => by rw [ha]; rfl
  have hjudge : ∀ n count, exec (.clockJudgeTimeout dt n count) s = .next (a.onClock n (State.clockTimeout count)).drain := fun n count => by rw [ha]; rfl
  have hmonitor : ∀ n counts, exec (.clockMonitorFail dt ⟨n, counts⟩) s = .next (a.onClock n (State.monitorFail counts)) := fun n counts => by rw [ha]; rfl
  have hretry : exec (.fioRetry dt) s = .next a.fioRetry.drain := by rw [ha]; rfl
  have himage : ∀ bad, exec (.imageLoaded dt bad) s = .next (a.imageLoad bad).drain := fun bad => by rw [ha]; rfl
  have htrain : ∀ bad, exec (.memTrainingDone dt bad) s = .next (a.memTrained bad) := fun bad => by rw [ha]; rfl
  have hcomplete : exec (.bootComplete dt) s = .next a.bootComplete := by rw [ha]; rfl
  refine ⟨enterRecovery_spec, fun bad strap l b hdev hstep hf hl hb => ?_, fun n k b f hk hen hnew hb hfio => ⟨fun i hfio' hi => ?_, fun counts hbad => ?_,
    fun count hbad => ?_, fun counts hkf hstep => ?_⟩, fun x => countLatches_of_clear, fun n k counts hk hst hstep => ?_, fun hwait => ?_,
    fun bad b hdev hstep hf hb => ?_, fun bad hdev hstep hf => ?_, fun hdev hstep hf => ?_⟩
  · obtain ⟨hsio, hfails, hgoes⟩ := fuseLoad_spec bad strap l a b hdev hstep hf hl hb
    rw [hfuse]
    refine ⟨fun h => by rw [hsio h], fun h0 h1 h => by rw [hfails h0 h1 h], fun h0 h1 h2 h3 h5 h7 => ?_⟩
    obtain ⟨c, hc, hrest⟩ := hgoes h0 h1 h2 h3 h5 h7
    exact ⟨c, by rw [hc], hrest⟩
  · have hb' : b = a.stabilised k := hb
    have hrow := exec_passingRow ha hk hen hnew hi
    rw [clockPasses_of_enabled hen hnew hfio', ← hb'] at hrow
    have hstep : b.boot = a.boot := by rw [hb]
    have hdevb : b.dev = a.dev := by rw [hb]
    have hfrom : b.bootFrom = a.bootFrom := by rw [hb]; rfl
    refine ⟨fun hkf h4 c hc => ?_, fun hnot => ?_⟩
    · rw [hrow, if_pos ⟨hkf, h4⟩, stepFive_eq hc]
    · rw [if_neg (by tauto)] at hrow
      refine ⟨fun hdev c hc => ?_, fun hdev h6 hxa => ?_, fun h7 hdev => ?_⟩
      · rw [hrow, clockSteps_recovery (c := c) (hdevb.trans hdev) (by rw [hstep]; exact hc), hfrom]
      · rw [hrow, clockSteps_six (by rw [hdevb]; exact hdev) (by rw [hstep]; exact h6) hxa, hstep]
      · rw [hrow, clockSteps_seven (hdevb.trans hdev) (by rw [hstep]; exact h7), hfrom]
  · rw [hstable, onClock_of_code _ a hk, clockStable_waits hbad]
  · rw [hjudge, onClock_of_code _ a hk, clockTimeout_fails hen hnew hbad]
    refine ⟨fun h4 => ?_, fun h67 hdev => ?_, fun h4 hdev => ?_⟩
    · rw [if_pos h4, hfio]
      rfl
    · rw [if_neg (by omega), if_pos ⟨hdev, h67⟩]
      rfl
    · rw [if_neg h4, if_neg (by rw [hdev]; rintro ⟨h, -⟩; cases h), if_pos hdev]
  · subst hkf
    rw [hmonitor, onClock_of_code _ a hk, monitorFail_attempt hstep hen, hfio]
    rfl
  · rw [hmonitor, onClock_of_code _ a hk, monitorFail_of_stable hst hstep]
    refine ⟨fun h => by rw [if_neg (by rw [h]; exact Bool.false_ne_true)], fun h => ?_⟩
    obtain ⟨hlatch, hstab, hsio, hraster, hmem, honFio, hheads, hframe⟩ := changeOver_spec k a
    rw [if_pos h]
    exact ⟨_, rfl, hlatch, hstab, hsio, hraster, hmem, honFio, hheads, hframe⟩
  · rw [hretry, fioRetry_of_waiting hwait]
    exact ⟨fun h3 => by rw [if_pos h3], fun h3 => by rw [if_neg (by omega)]⟩
  · rw [himage, imageLoad_of_waiting bad hdev hstep hf, ← hb]
    refine ⟨fun hpor h4 => by rw [if_pos ⟨hpor, h4⟩], fun hgo o ho => ?_⟩
    have hno : ¬ (a.boot.afterPor = true ∧ 4 ≤ a.flash.startCount) := by
      rintro ⟨hpor, h4⟩
      rcases hgo with h | h
      · rw [h] at hpor
        cases hpor
      · omega
    rw [if_neg hno]
    refine ⟨fun hx hv => by rw [chooseImage_eq, if_neg hx, if_pos hv], fun hvalid => ?_⟩
    rw [chooseImage_of_option ho hvalid]
    refine ⟨fun hn => by rw [hn]; rfl, fun e he => ?_⟩
    rw [he]
    exact ⟨b.releaseProcs e.1 e.2, rfl, releaseProcs_spec e.1 e.2 b⟩
  · rw [htrain, memTrained_of_waiting bad hdev hstep hf]
    refine ⟨fun hgood => ?_, fun hbad => ?_⟩
    · rw [if_pos (List.filter_eq_nil_iff.2 (fun c hc => by simpa using hgood c hc))]
    · obtain ⟨c, hc, hlt⟩ := hbad
      rw [if_neg (fun h => by simpa [hlt] using List.filter_eq_nil_iff.1 h c hc)]
  · obtain ⟨hd, h11, hquads, hrun, hfirst, hmirror⟩ := bootComplete_spec hdev hstep hf
    exact ⟨_, hcomplete, hd, h11, hquads, hrun, hfirst, hmirror⟩

end Sys2Proof.Machine
end

section
/-! PROOF. The debug port: pins, accesses, trace and halts (O60). -/

namespace Sys2Proof.Machine

open Sys2Proof

/-- The debug port with an instruction loaded that takes no pin. -/
def State.loaded (i : TapInstr) (a : State) : State := { a with dbg := { a.dbg with ir := i, pinDrive := none } }

/-- The identification register's bytes. -/
theorem leBytes_idcode : leBytes 4 idcodeValue = [0xAB#8, 0x65#8, 0x79#8, 0x15#8] := by decide

/-- EXTEST, CLAMP and HIGHZ take the pins while RESET_N is low, and act as BYPASS otherwise. -/
theorem takePins_of_on {a : State} (i : TapInstr) (hon : a.dev ≠ .off) :
    (a.pins.resetLow = true → a.takePins i = { a with dbg := { a.dbg with ir := i, pinDrive := some i } }) ∧
    (a.pins.resetLow = false → a.takePins i = { a with dbg := { a.dbg with ir := .bypass, pinDrive := none, data := [0#8] } }) := by
  unfold State.takePins
  rw [tap_eq _ _ hon]
  exact ⟨fun h => by rw [if_pos h], fun h => by rw [if_neg (by rw [h]; exact Bool.false_ne_true)]; rfl⟩

/-! ### Accesses (R391 to R394, R397) -/

/-- The debug masters are privileged where the device is not field-locked, or is unlocked. -/
theorem privileged_debug (a : State) : a.privileged 41 = (!a.fuses.fieldLocked || a.auth.unlocked) := rfl

/-- An access of the debug port, once DBG_ACCESS is loaded. -/
theorem debugAccess_of_running {a b : State} (x : Access) (hon : a.dev ≠ .off) (hruns : a.coreRuns = true) (hmin : 1 ≤ x.len) (hmax : x.len ≤ 4096)
    (hb : b = a.loaded .dbgAccess) :
    a.debugAccess x = if (b.access 41 x.write x.addr x.len).1 = false then
        (b.access 41 x.write x.addr x.len).2.tap (fun d => { d with sticky := true, data := List.replicate x.len 0#8 })
      else if x.write then (b.access 41 x.write x.addr x.len).2.busWrite x.addr (x.data.take x.len ++ List.replicate (x.len - x.data.length) 0#8)
      else (b.access 41 x.write x.addr x.len).2.tap (fun d => { d with data := (b.access 41 x.write x.addr x.len).2.busRead x.addr x.len }) := by
  have htap : a.tap (fun d => d.load .dbgAccess) = b := by rw [tap_eq _ _ hon, hb]; rfl
  unfold State.debugAccess
  dsimp only
  rw [if_neg (by simp [hon, hruns, inRange, hmin, hmax]), htap]
  cases (b.access 41 x.write x.addr x.len).1 <;> rfl

/-- With the debug port locked, every access is denied under source 65. -/
theorem access_of_locked {b : State} (write : Bool) (addr len : Nat) (hpriv : b.privileged 41 = false) :
    b.access 41 write addr len = (false, b.fireAccess 65 41 (if write then 2 else 1) addr len) := by
  have hlash : b.lash 41 write addr len = .deny 65 := if_pos (by rw [hpriv]; rfl)
  unfold State.access accType
  rw [hlash]

/-! ### Halts (R397, R398) -/

/-- What a privileged halt request does to a processor. -/
def State.haltGranted (op : HaltOp) (id : Nat) (b : State) : State :=
  match op, procOf id with
  | .halt, none => b.haltRefused
  | .halt, some p => b.tap (fun d => { d with halted := insertSorted p d.halted })
  | .step, _ => b
  | .resume, none => b
  | .resume, some p => (fun u : State => if p < 2 then u.drain else u.dispatch) (b.tap (fun d => { d with halted := removeNat p d.halted }))

/-- A halt request once DBG_HALT is loaded. -/
theorem debugHalt_of_running {a b : State} (op : HaltOp) {id : Nat} (hon : a.dev ≠ .off) (hruns : a.coreRuns = true) (hid : id ≤ 10) (hb : b = a.loaded .dbgHalt) :
    a.debugHalt op id = if b.privileged 41 = false then b.haltRefused else b.haltGranted op id := by
  have htap : a.tap (fun d => d.load .dbgHalt) = b := by rw [tap_eq _ _ hon, hb]; rfl
  unfold State.debugHalt
  dsimp only
  rw [if_neg (by simp [hon, hruns, hid]), htap]
  cases b.privileged 41 <;> rfl

/-- A request that the port refuses sets the sticky bit and fires source 65. -/
theorem haltRefused_of_on {b : State} (hon : b.dev ≠ .off) :
    b.haltRefused = State.fireAccess 65 41 0 0 0 { b with dbg := { b.dbg with sticky := true } } := by
  unfold State.haltRefused
  rw [tap_eq _ _ hon]

/-- Settles O60: the rows of the debug port, each from the lemma about its operation. -/
theorem tapRows : Obligations.TapRows := by
  intro dt s a ha hon
  have htap : ∀ f : Debug → Debug, a.tap f = { a with dbg := f a.dbg } := fun f => tap_eq f a hon
  have hpins : ∀ i x, (i = .extest dt ∧ x = .extest) ∨ (i = .clamp dt ∧ x = .clamp) ∨ (i = .highz dt ∧ x = .highz) → exec i s = .next (a.takePins x) := by
    rintro i x (⟨rfl, rfl⟩ | ⟨rfl, rfl⟩ | ⟨rfl, rfl⟩) <;> rw [ha] <;> rfl
  have hscan : ∀ scan, exec (.samplePreload dt scan) s = .next (a.tap (fun d => { d.load .samplePreload with scan := scan })) := fun scan => by rw [ha]; rfl
  have hid : ∀ i, i = .idcode dt ∨ i = .trstN dt → exec i s = .next (a.tap Debug.identify) := by
    rintro i (rfl | rfl) <;> rw [ha] <;> rfl
  have hbypass : exec (.bypass dt) s = .next (a.tap Debug.bypassed) := by rw [ha]; rfl
  have htrace : ∀ base size, exec (.dbgTrace dt base size) s = .next (a.tap (fun d => { d.load .dbgTrace with trace := some (base, size) })) :=
    fun base size => by rw [ha]; rfl
  have haccess : ∀ x, exec (.dbgAccess dt x) s = .next (a.debugAccess x) := fun x => by rw [ha]; rfl
  have hhalt : ∀ op id, exec (.dbgHalt dt op id) s = .next (a.debugHalt op id) := fun op id => by rw [ha]; rfl
  refine ⟨fun i x hi => ⟨fun hlow => ?_, fun hhigh => ?_⟩, fun scan => ?_, fun i hi => ?_, ?_, fun base size => ?_, fun b hruns hb x hmin hmax => ?_,
    fun x k v hwf hctl hst hpt hseal htpr hbuf hslot => pokeByte_spec x k v hwf ⟨hctl, hst, by omega, hseal, htpr, hbuf, hslot⟩, fun b id hruns hid' hb => ?_⟩
  · rw [hpins i x hi, (takePins_of_on x hon).1 hlow]
  · rw [hpins i x hi, (takePins_of_on x hon).2 hhigh]
  · rw [hscan, htap]
    rfl
  · rw [hid i hi, htap, ← leBytes_idcode]
    rfl
  · rw [hbypass, htap]
    rfl
  · rw [htrace, htap]
    rfl
  · rw [haccess, debugAccess_of_running x hon hruns hmin hmax hb]
    refine ⟨fun c hc hcon => ?_, fun c hc hw => ?_, fun c hc hr hcon => ?_, fun hlocked hunlock => ?_⟩
    · rw [hc]
      exact congrArg Host.Outcome.next ((if_pos rfl).trans (tap_eq _ c hcon))
    · rw [hc, hw]
      rfl
    · rw [hc, hr]
      exact congrArg Host.Outcome.next ((if_neg Bool.noConfusion).trans ((if_neg Bool.false_ne_true).trans (tap_eq _ c hcon)))
    · refine access_of_locked x.write x.addr x.len ?_
      rw [privileged_debug, hb]
      exact (by rw [hlocked, hunlock]; rfl : (!a.fuses.fieldLocked || a.auth.unlocked) = false)
  · have hbon : b.dev ≠ .off := by rw [hb]; exact hon
    have hpriv : b.privileged 41 = (!a.fuses.fieldLocked || a.auth.unlocked) := by rw [hb]; rfl
    have hrow : ∀ op, exec (.dbgHalt dt op id) s = .next (if b.privileged 41 = false then b.haltRefused else b.haltGranted op id) := fun op => by
      rw [hhalt, debugHalt_of_running op hon hruns hid' hb]
    refine ⟨fun hopen => ?_, fun hlocked hunlock op => ?_⟩
    · have hgrant : ∀ op, exec (.dbgHalt dt op id) s = .next (b.haltGranted op id) := fun op => by
        rw [hrow, if_neg]
        rw [hpriv]
        rcases hopen with h | h <;> rw [h] <;> simp
      refine ⟨fun p hp => ?_, fun hp => ?_, hgrant .step⟩
      · rw [hgrant, hgrant]
        unfold State.haltGranted
        rw [hp]
        dsimp only
        rw [tap_eq _ b hbon, tap_eq _ b hbon]
        exact ⟨rfl, rfl⟩
      · rw [hgrant]
        unfold State.haltGranted
        rw [hp]
        exact congrArg Host.Outcome.next (haltRefused_of_on hbon)
    · rw [hrow, if_pos (by rw [hpriv, hlocked, hunlock]; rfl), haltRefused_of_on hbon]

end Sys2Proof.Machine
end
